-- ==== Sys2Proof/Word.lean ====
section
/-! DEFINITION. The word types of the machine (R3): bytes, 32-bit words, 64-bit words, vector rows. -/

namespace Sys2Proof

/-- A byte of memory. -/
abbrev Byte := BitVec 8

/-- A 64-bit register value. -/
abbrev Word := BitVec 64

/-- A vector register: 1024 bits (*Vector instructions*). -/
abbrev Row := BitVec 1024

/-- An instruction address (R45). -/
abbrev Addr := BitVec 48

end Sys2Proof
end

