-- ==== Sys2Proof/Config.lean ====
section
/-! DEFINITION. What the part fixes (*Scope of this manual*, *The mesh*), and the values the manual
leaves open: opaque constants, of which nothing can be proved. -/

namespace Sys2Proof.Config

/-- Dies of the package (R12). -/
def dies : Nat := 4

/-- Die columns and die rows (R12). -/
def dieSide : Nat := 32

/-- Package columns and package rows (R12). -/
def pkgSide : Nat := 64

/-- Strand slots of a core (R185). -/
def slots : Nat := 4

/-- Bytes of a core's scratchpad (R247). -/
def spadBytes : Nat := 262144

/-- MESH_DIM (R63). -/
def meshDim : Word := 0x40402020

/-- SWAP_DELAY in core cycles (R185). -/
def swapDelay : Nat := 8192

/-- Records of a store-fault queue (R400). -/
def sfqDepth : Nat := 8

/-- Entries of the SFU FIFO (R195). -/
def sfuDepth : Nat := 8

/-- Packets of a core's receive queue (R152). -/
def rxDepth : Nat := 16

/-- Messages of a core input queue (R162). -/
def inputDepth : Nat := 64

/-- Launch slots of the package (R188). -/
def launchSlots : Nat := 32

/-- Instructions of one capsule step (R370). -/
def capsuleSteps : Nat := 32

/-- The private key of the device's identity, which is never readable (R133); the manual gives no value. -/
opaque deviceKey : Nat

/-- The digest of the comparator of twins, of an item or of a record; the manual does not give the function
(R173). -/
opaque digest : Nat → BitVec 64

/-- How many pairs of pseudo-channels a tier has beyond the four channels that a G256 unit needs: the manual gives no number (R277). -/
opaque moreChannels : Nat → Nat

/-- The order of bits an intermediate value of the device's own takes where the manual gives no value:
the free value applied to a counter of the machine. -/
opaque freeWord : Nat → BitVec 64

end Sys2Proof.Config
end

