-- ==== Sys2Proof/Syntax.lean ====
section
/-! DEFINITION. The instructions of the BJ-4096, one constructor per row of the opcode table: the
instruction words of *Instruction words, registers and the opcode map* (R30 to R37) with their fields,
and the steps the machine takes of its own accord (*What each step holds*). Which piece of work in
flight such a step acts on stands in `State.pick`. The rows with operands come first. -/

namespace Sys2Proof

/-- Format A with a destination and two sources (R30): specifiers and policy bits. -/
structure A3 where
  d : BitVec 6
  a : BitVec 6
  b : BitVec 6
  pa : Bool
  pb : Bool
  deriving DecidableEq, Repr

/-- A destination and one source with its policy bit (R30). -/
structure A2 where
  d : BitVec 6
  a : BitVec 6
  pa : Bool
  deriving DecidableEq, Repr

/-- Two sources and no destination (R30). -/
structure AB where
  a : BitVec 6
  b : BitVec 6
  pa : Bool
  pb : Bool
  deriving DecidableEq, Repr

/-- One source and no destination (R30). -/
structure A1 where
  a : BitVec 6
  pa : Bool
  deriving DecidableEq, Repr

/-- The fields of a prefix word (R30 format X, R32). -/
structure Pfx where
  sat : Bool
  pc : Bool
  c : BitVec 6
  rnd : BitVec 3
  zero : Bool
  men : Bool
  m : BitVec 3
  deriving DecidableEq, Repr

/-- The fields of a vector word and the prefix before it, if there is one (R30 format V, R31, R32).
In VCVT `b` is the source type code and `pb` is the field SUB (R215). -/
structure VOp where
  pfx : Option Pfx
  ty : BitVec 3
  b : BitVec 6
  pb : Bool
  a : BitVec 6
  pa : Bool
  vd : BitVec 5
  deriving DecidableEq, Repr

/-- The prefix of all zeros, which R32 gives a vector word that has none. -/
def Pfx.none : Pfx := ⟨false, false, 0, 0, false, false, 0⟩

/-- The prefix fields that govern a vector word (R32). -/
def VOp.p (x : VOp) : Pfx := x.pfx.getD Pfx.none

/-- One constructor per row of the opcode table. -/
inductive Instr where
  /-- Writes the wrapped 64-bit sum of two registers. (R40) -/
  | add (x : A3)
  /-- Writes the wrapped difference of two registers. (R40) -/
  | sub (x : A3)
  /-- Writes the low 64 bits of the signed product. (R40) -/
  | mul (x : A3)
  /-- Writes the high 64 bits of the signed product. (R40) -/
  | mulh (x : A3)
  /-- Writes the high 64 bits of the unsigned product. (R40) -/
  | mulhn (x : A3)
  /-- Writes the signed quotient rounded toward zero, or -1 for a zero divisor. (R40) -/
  | div (x : A3)
  /-- Writes the unsigned quotient, or all ones for a zero divisor. (R40) -/
  | divn (x : A3)
  /-- Writes the signed remainder, or the dividend for a zero divisor. (R40) -/
  | rem (x : A3)
  /-- Writes the unsigned remainder, or the dividend for a zero divisor. (R40) -/
  | remn (x : A3)
  /-- Writes the bitwise AND of two registers. (R40) -/
  | and (x : A3)
  /-- Writes the bitwise OR of two registers. (R40) -/
  | or (x : A3)
  /-- Writes the bitwise XOR of two registers. (R40) -/
  | xor (x : A3)
  /-- Writes a AND NOT b. (R40) -/
  | andn (x : A3)
  /-- Writes a OR NOT b. (R40) -/
  | orn (x : A3)
  /-- Shifts left by b[5:0]. (R40) -/
  | shl (x : A3)
  /-- Shifts right logically by b[5:0]. (R40) -/
  | shr (x : A3)
  /-- Shifts right arithmetically by b[5:0]. (R40) -/
  | sra (x : A3)
  /-- Rotates right by b[5:0]. (R40) -/
  | rot (x : A3)
  /-- Writes the signed minimum. (R40) -/
  | min (x : A3)
  /-- Writes the signed maximum. (R40) -/
  | max (x : A3)
  /-- Writes the unsigned minimum. (R40) -/
  | minn (x : A3)
  /-- Writes the unsigned maximum. (R40) -/
  | maxn (x : A3)
  /-- Writes 1 if the registers are equal. (R40) -/
  | seq (x : A3)
  /-- Writes 1 if the registers differ. (R40) -/
  | sne (x : A3)
  /-- Writes 1 if a is signed-less than b. (R40) -/
  | slt (x : A3)
  /-- Writes 1 if a is unsigned-less than b. (R40) -/
  | sltn (x : A3)
  /-- Writes 1 if a is signed-less or equal to b. (R40) -/
  | sle (x : A3)
  /-- Writes 1 if a is unsigned-less or equal to b. (R40) -/
  | slen (x : A3)
  /-- Writes the sign-extended 32-bit sum. (R40) -/
  | addw (x : A3)
  /-- Writes the sign-extended 32-bit difference. (R40) -/
  | subw (x : A3)
  /-- Writes a + (b << 3). (R40) -/
  | lea (x : A3)
  /-- Writes a + (b << 2). (R40) -/
  | leaw (x : A3)
  /-- Counts leading zero bits. (R42) -/
  | clz (x : A2)
  /-- Counts trailing zero bits. (R42) -/
  | ctz (x : A2)
  /-- Counts one bits. (R42) -/
  | popc (x : A2)
  /-- Reverses the bit order. (R42) -/
  | brev (x : A2)
  /-- Writes the wrapped absolute value. (R42) -/
  | abs (x : A2)
  /-- Writes the wrapped negation. (R42) -/
  | neg (x : A2)
  /-- Sign-extends the low byte. (R42) -/
  | sxtb (x : A2)
  /-- Sign-extends the low halfword. (R42) -/
  | sxth (x : A2)
  /-- Sign-extends the low word. (R42) -/
  | sxtw (x : A2)
  /-- Zero-extends the low byte. (R42) -/
  | zxtb (x : A2)
  /-- Zero-extends the low halfword. (R42) -/
  | zxth (x : A2)
  /-- Zero-extends the low word. (R42) -/
  | zxtw (x : A2)
  /-- Adds a signed 9-bit immediate. (R43) -/
  | addi (x : A2) (imm : BitVec 9)
  /-- ANDs with the sign-extended immediate. (R43) -/
  | andi (x : A2) (imm : BitVec 9)
  /-- ORs with the sign-extended immediate. (R43) -/
  | ori (x : A2) (imm : BitVec 9)
  /-- XORs with the sign-extended immediate. (R43) -/
  | xori (x : A2) (imm : BitVec 9)
  /-- Writes 1 if a is signed-less than the immediate. (R43) -/
  | slti (x : A2) (imm : BitVec 9)
  /-- Shifts left by an immediate amount. (R43) -/
  | shli (x : A2) (n : BitVec 6)
  /-- Shifts right logically by an immediate amount. (R43) -/
  | shri (x : A2) (n : BitVec 6)
  /-- Shifts right arithmetically by an immediate amount. (R43) -/
  | srai (x : A2) (n : BitVec 6)
  /-- Loads a sign-extended 19-bit immediate. (R44) -/
  | li (d : BitVec 6) (imm : BitVec 19)
  /-- Loads a 19-bit immediate shifted left by 13. (R44) -/
  | liu (d : BitVec 6) (imm : BitVec 19)
  /-- Branches if the register is zero. (R46) -/
  | bz (x : A1) (off : BitVec 15)
  /-- Branches if the register is not zero. (R46) -/
  | bnz (x : A1) (off : BitVec 15)
  /-- Branches if the register is negative. (R46) -/
  | bltz (x : A1) (off : BitVec 15)
  /-- Branches if the register is non-negative. (R46) -/
  | bgez (x : A1) (off : BitVec 15)
  /-- Branches if the register is at most zero. (R46) -/
  | blez (x : A1) (off : BitVec 15)
  /-- Branches if the register is positive. (R46) -/
  | bgtz (x : A1) (off : BitVec 15)
  /-- Branches if bit 0 of the register is 1. (R46) -/
  | bodd (x : A1) (off : BitVec 15)
  /-- Decrements the register and branches while it is not zero. (R47) -/
  | bloop (x : A1) (off : BitVec 15)
  /-- Writes the link and jumps by a 19-bit offset. (R48) -/
  | jal (d : BitVec 6) (off : BitVec 19)
  /-- Jumps to a register target. (R48) -/
  | jr (x : A1)
  /-- Writes the link and jumps to a register target. (R48) -/
  | jalr (x : A2)
  /-- Enters the trap handler with cause 0x80 plus code. (R57) -/
  | trap (code : BitVec 6)
  /-- Reads a control register numbered 0-63. (R61) -/
  | crdBank0 (n d : BitVec 6)
  /-- Reads a control register numbered 64-127. (R61) -/
  | crdBank1 (n d : BitVec 6)
  /-- Writes a control register numbered 0-63 through its access code. (R61) -/
  | cwrBank0 (n : BitVec 6) (x : A1)
  /-- Writes a control register numbered 64-127 through its access code. (R61) -/
  | cwrBank1 (n : BitVec 6) (x : A1)
  /-- Acquires at a scope and at package or system scope refreshes the die view. (R326) -/
  | fenceAcq (scope : BitVec 6)
  /-- Releases at a scope. (R326) -/
  | fenceRel (scope : BitVec 6)
  /-- Releases and then acquires at a scope. (R326) -/
  | fenceFull (scope : BitVec 6)
  /-- Invalidates instruction copies of a range within a scope and waits for acknowledgement. (R68) -/
  | icinv (scope : BitVec 6) (x : AB)
  /-- Orders scratchpad stores before engine reads and advances the GEN of masked tiles. (R69) -/
  | fencesp (x : A1)
  /-- Ends the strand leaving a continuation record in a hardware queue. (R51) -/
  | susp (x : A1)
  /-- Builds a continuation for a child line of work on the same core. (R54) -/
  | spawn (x : AB)
  /-- Extracts a bitfield described by e6. (R59) -/
  | ext (x : A2)
  /-- Inserts a bitfield described by e6. (R59) -/
  | ins (x : A2)
  /-- Loads from the core's own scratchpad. (R247) -/
  | lds (x : A2) (size : BitVec 3) (off : BitVec 8)
  /-- Stores to the core's own scratchpad. (R247) -/
  | sts (x : A2) (size : BitVec 3) (off : BitVec 8)
  /-- Pushes a doubleword onto the spill stack, overflowing to global memory. (R251) -/
  | pushs (d : BitVec 6)
  /-- Pops a doubleword from the spill stack. (R251) -/
  | pops (d : BitVec 6)
  /-- Loads from a sibling team's scratchpad. (R253) -/
  | ldn (x : A3) (size : BitVec 3)
  /-- Posts a store to a sibling team's scratchpad. (R253) -/
  | stn (x : A3) (size : BitVec 3)
  /-- Loads from the current actor's state record. (R255) -/
  | lda (d : BitVec 6) (size : BitVec 3) (off : BitVec 15)
  /-- Stores to the current actor's state record. (R255) -/
  | sta (d : BitVec 6) (size : BitVec 3) (off : BitVec 15)
  /-- Loads from the launch parameter block. (R256) -/
  | ldk (d : BitVec 6) (size : BitVec 3) (off : BitVec 16)
  /-- Loads from global virtual memory with order, scope and policy. (R257) -/
  | ldg (x : A2) (size : BitVec 3) (ord : BitVec 2) (scope : BitVec 3) (pol : BitVec 2)
  /-- Posts a store to global virtual memory. (R257) -/
  | stg (x : A2) (size : BitVec 3) (ord : BitVec 2) (scope : BitVec 3) (pol : BitVec 2)
  /-- Prefetches a 128-byte block without visible effect. (R260) -/
  | pfg (x : A1) (scope : BitVec 3) (pol : BitVec 2)
  /-- Loads from host memory over the Yalvel Link. (R261) -/
  | ldh (x : A2) (size : BitVec 3) (ord : BitVec 2)
  /-- Posts a store to host memory. (R261) -/
  | sth (x : A2) (size : BitVec 3) (ord : BitVec 2)
  /-- Relaxed atomic add at the owner die. (R338) -/
  | aadd (x : A3) (dw : Bool)
  /-- Relaxed atomic AND. (R338) -/
  | aand (x : A3) (dw : Bool)
  /-- Relaxed atomic OR. (R338) -/
  | aor (x : A3) (dw : Bool)
  /-- Relaxed atomic XOR. (R338) -/
  | axor (x : A3) (dw : Bool)
  /-- Relaxed atomic signed minimum. (R338) -/
  | amin (x : A3) (dw : Bool)
  /-- Relaxed atomic signed maximum. (R338) -/
  | amax (x : A3) (dw : Bool)
  /-- Relaxed atomic unsigned minimum. (R338) -/
  | aminn (x : A3) (dw : Bool)
  /-- Relaxed atomic unsigned maximum. (R338) -/
  | amaxn (x : A3) (dw : Bool)
  /-- Relaxed atomic exchange. (R338) -/
  | axchg (x : A3) (dw : Bool)
  /-- Relaxed atomic compare-and-swap against e0. (R338) -/
  | acas (x : A3) (dw : Bool)
  /-- Relaxed atomic FP32 add. (R338) -/
  | afadd (x : A3)
  /-- Atomic add with release and acquire at package scope. (R338) -/
  | aaddAr (x : A3) (dw : Bool)
  /-- Acquire-release atomic AND. (R338) -/
  | aandAr (x : A3) (dw : Bool)
  /-- Acquire-release atomic OR. (R338) -/
  | aorAr (x : A3) (dw : Bool)
  /-- Acquire-release atomic XOR. (R338) -/
  | axorAr (x : A3) (dw : Bool)
  /-- Acquire-release atomic signed minimum. (R338) -/
  | aminAr (x : A3) (dw : Bool)
  /-- Acquire-release atomic signed maximum. (R338) -/
  | amaxAr (x : A3) (dw : Bool)
  /-- Acquire-release atomic unsigned minimum. (R338) -/
  | aminnAr (x : A3) (dw : Bool)
  /-- Acquire-release atomic unsigned maximum. (R338) -/
  | amaxnAr (x : A3) (dw : Bool)
  /-- Acquire-release atomic exchange. (R338) -/
  | axchgAr (x : A3) (dw : Bool)
  /-- Acquire-release atomic compare-and-swap against e0. (R338) -/
  | acasAr (x : A3) (dw : Bool)
  /-- Acquire-release atomic FP32 add. (R338) -/
  | afaddAr (x : A3)
  /-- Waits at the owner until a 32-bit variable differs from the comparand. (R341) -/
  | waitne (x : A3)
  /-- Waits until a 32-bit variable equals the comparand. (R341) -/
  | waiteq (x : A3)
  /-- Waits until a 32-bit variable reaches the comparand, wrap-safe. (R341) -/
  | waitge (x : A3)
  /-- Waits for a copy job's mailbox word and acquires at the job's scope. (R344) -/
  | jwait (x : A2)
  /-- Reads a copy job's mailbox word at issue. (R344) -/
  | jtest (x : A2)
  /-- Arms a join counter with a count, queue and continuation record. (R346) -/
  | joininit (x : A3)
  /-- Sends a counter message that decrements a join counter. (R347) -/
  | joindec (x : AB)
  /-- Opens a capsule, waiting while it is held and not parked. (R373) -/
  | capb (x : A2)
  /-- Commits a capsule step and checkpoints g40-g47. (R374) -/
  | caps (d : BitVec 6)
  /-- Commits the last capsule step, writes RESULT and frees the lock. (R374) -/
  | cape (x : A2)
  /-- Adopts a parked capsule and resumes its code. (R375) -/
  | capa (x : A2)
  /-- Reads or waits for a capsule's result by ticket. (R376) -/
  | capr (x : A3)
  /-- Reads a capsule's lock word. (R376) -/
  | capq (x : A2)
  /-- Sends a message to an actor or the host. (R179) -/
  | send (x : AB)
  /-- Sends a message only if it can inject this cycle, writing success. (R179) -/
  | sendc (x : A3)
  /-- Places a 64-byte record in a hardware queue. (R351) -/
  | enq (x : AB)
  /-- Places a record and returns a ticket for its acknowledgement. (R352) -/
  | enqAck (x : A3)
  /-- Takes the head record of a queue into the scratchpad. (R354) -/
  | deq (x : A3)
  /-- Places an item on a pipe channel. (R385) -/
  | psend (x : AB)
  /-- Takes the next item of a pipe channel. (R387) -/
  | precv (x : A3)
  /-- Places the end-of-stream token on a pipe channel. (R385) -/
  | eos (x : A1)
  /-- Sends 128 scratchpad bytes to a rectangle of cores. (R149) -/
  | mcast (x : AB)
  /-- Takes the oldest multicast packet into the scratchpad. (R153) -/
  | netrx (x : A2)
  /-- Forwards a g value into a neighbour strand's k register. (R239) -/
  | fwd (x : A2) (dir slot : BitVec 2)
  /-- Sets the forward mark of an own k register and empties it. (R237) -/
  | fwdArm (d : BitVec 6)
  /-- Places a device launch command with an optional join-counter handle. (R390) -/
  | launch (x : AB)
  /-- Waits for an ENQ.ack acknowledgement and returns its status. (R353) -/
  | ackw (x : A2)
  /-- Defines a tile-table entry. (R287) -/
  | tdef (n : BitVec 5) (x : A1)
  /-- Releases a tile-table entry to EMPTY. (R287) -/
  | trel (n : BitVec 5)
  /-- Reads a tile-table entry. (R287) -/
  | tstat (n : BitVec 5) (d : BitVec 6)
  /-- Issues a copy job that fills a tile from a tensor. (R294) -/
  | cpyj (n : BitVec 5) (x : A2)
  /-- Issues a copy job that writes a tile back to a tensor. (R294) -/
  | cpyjSt (n : BitVec 5) (x : A2)
  /-- Issues a copy job that quantises a tensor tile into a bit-plane tile. (R295) -/
  | cpyq (n : BitVec 5) (x : A2)
  /-- Enqueues a chain of tile-pair products into FP32 accumulator rows. (R301) -/
  | mxqF32 (a b : BitVec 5)
  /-- Enqueues a chain of tile-pair products into INT32 accumulator rows. (R301) -/
  | mxqI32 (a b : BitVec 5)
  /-- Drains FP32 accumulator rows to memory as stores. (R303) -/
  | mxdrStF32 (x : A1)
  /-- Drains FP32 accumulator rows as atomic adds. (R303) -/
  | mxdrAddF32 (x : A1)
  /-- Drains INT32 accumulator rows to memory as stores. (R303) -/
  | mxdrStI32 (x : A1)
  /-- Drains INT32 accumulator rows as atomic adds. (R303) -/
  | mxdrAddI32 (x : A1)
  /-- Writes an operand-extension register. (R60) -/
  | xmov (n : BitVec 3) (x : A1)
  /-- Copies an operand-extension register into a g or k register. (R60) -/
  | xget (n : BitVec 3) (d : BitVec 6)
  /-- Lane-wise add with one rounding. (R208) -/
  | vadd (x : VOp)
  /-- Lane-wise subtract. (R208) -/
  | vsub (x : VOp)
  /-- Lane-wise multiply. (R208) -/
  | vmul (x : VOp)
  /-- Lane-wise fused multiply-add. (R208) -/
  | vfma (x : VOp)
  /-- Lane-wise fused multiply-subtract. (R208) -/
  | vfms (x : VOp)
  /-- Lane-wise fused negated multiply-add. (R208) -/
  | vfnma (x : VOp)
  /-- Lane-wise minimum preferring numbers. (R209) -/
  | vmin (x : VOp)
  /-- Lane-wise maximum preferring numbers. (R209) -/
  | vmax (x : VOp)
  /-- Lane-wise minimum propagating NaN. (R209) -/
  | vminn (x : VOp)
  /-- Lane-wise maximum propagating NaN. (R209) -/
  | vmaxn (x : VOp)
  /-- Lane-wise absolute value. (R210) -/
  | vabs (x : VOp)
  /-- Lane-wise negation. (R210) -/
  | vneg (x : VOp)
  /-- Lane-wise bitwise AND. (R211) -/
  | vand (x : VOp)
  /-- Lane-wise bitwise OR. (R211) -/
  | vor (x : VOp)
  /-- Lane-wise bitwise XOR. (R211) -/
  | vxor (x : VOp)
  /-- Lane-wise left shift. (R211) -/
  | vshl (x : VOp)
  /-- Lane-wise equality compare into a mask. (R212) -/
  | vceq (x : VOp)
  /-- Lane-wise inequality compare into a mask. (R212) -/
  | vcne (x : VOp)
  /-- Lane-wise less-than compare into a mask. (R212) -/
  | vclt (x : VOp)
  /-- Lane-wise less-or-equal compare into a mask. (R212) -/
  | vcle (x : VOp)
  /-- Selects lanes from two sources under the prefix mask. (R213) -/
  | vsel (x : VOp)
  /-- Lane-wise logical right shift. (R211) -/
  | vshr (x : VOp)
  /-- Lane-wise arithmetic right shift. (R211) -/
  | vsra (x : VOp)
  /-- Writes a one-hot class code per lane. (R214) -/
  | vclass (x : VOp)
  /-- Converts lanes between formats. (R216) -/
  | vcvt (x : VOp)
  /-- Copies lanes, broadcasting a g register. (R217) -/
  | vmov (x : VOp)
  /-- Broadcasts one lane to every lane. (R217) -/
  | vbcast (x : VOp)
  /-- Extracts one lane into a g register. (R218) -/
  | vext (x : VOp)
  /-- Inserts a g register into one lane. (R218) -/
  | vins (x : VOp)
  /-- Slides lanes by a signed amount. (R219) -/
  | vslide (x : VOp)
  /-- Permutes lanes by an index vector. (R219) -/
  | vperm (x : VOp)
  /-- Writes each lane's index. (R217) -/
  | vidx (x : VOp)
  /-- Sums lanes by the fixed tree into lane 0. (R220) -/
  | vreda (x : VOp)
  /-- Reduces lanes to their maximum. (R220) -/
  | vredx (x : VOp)
  /-- Reduces lanes to their minimum. (R220) -/
  | vredn (x : VOp)
  /-- Forms inclusive prefix sums in Kogge-Stone order. (R221) -/
  | vscan (x : VOp)
  /-- Runs a linear recurrence along one row in tree order. (R234) -/
  | vlrs (x : VOp)
  /-- Runs a linear recurrence down the accumulator rows. (R230) -/
  | tlrs (x : VOp)
  /-- Runs an exponential average down the accumulator rows. (R232) -/
  | tema (x : VOp)
  /-- Adds element products into 32-bit accumulator lanes. (R222) -/
  | vdot (x : VOp)
  /-- Queues a reciprocal on the special-function unit. (R223) -/
  | vrcp (x : VOp)
  /-- Queues a reciprocal square root on the SFU. (R223) -/
  | vrsq (x : VOp)
  /-- Queues a square root on the SFU. (R223) -/
  | vsqrt (x : VOp)
  /-- Queues a base-2 exponential on the SFU. (R223) -/
  | vexp2 (x : VOp)
  /-- Queues a base-2 logarithm on the SFU. (R223) -/
  | vlog2 (x : VOp)
  /-- Queues a hyperbolic tangent on the SFU. (R223) -/
  | vtanh (x : VOp)
  /-- Queues a logistic sigmoid on the SFU. (R223) -/
  | vsigm (x : VOp)
  /-- Queues a lane-wise division on the SFU. (R223) -/
  | vdiv (x : VOp)
  /-- Forwards a whole v register to the neighbour's same register. (R240) -/
  | vfwd (p : Option Pfx) (dir slot : BitVec 2) (vd : BitVec 5)
  /-- Sets the forward mark of an own v register and empties it. (R237) -/
  | vfwdArm (p : Option Pfx) (vd : BitVec 5)
  /-- Occupies the vector pipe for one issue. (R225) -/
  | vnop (p : Option Pfx)
  /-- ANDs two mask registers. (R226) -/
  | mand (x : VOp)
  /-- ORs two mask registers. (R226) -/
  | mor (x : VOp)
  /-- XORs two mask registers. (R226) -/
  | mxor (x : VOp)
  /-- Inverts a mask register. (R226) -/
  | mnot (x : VOp)
  /-- Counts set mask bits into a g register. (R227) -/
  | mpop (x : VOp)
  /-- Sets a prefix of mask bits from a count. (R227) -/
  | mset (x : VOp)
  /-- Compact ADD on g0-g7. (R37) -/
  | cAdd (d a b : BitVec 3)
  /-- Compact SUB on g0-g7. (R37) -/
  | cSub (d a b : BitVec 3)
  /-- Compact AND on g0-g7. (R37) -/
  | cAnd (d a b : BitVec 3)
  /-- Compact OR on g0-g7. (R37) -/
  | cOr (d a b : BitVec 3)
  /-- Compact XOR on g0-g7. (R37) -/
  | cXor (d a b : BitVec 3)
  /-- Compact register move, ADDI with 0. (R37) -/
  | cMov (d a : BitVec 3)
  /-- Compact ADDI with a 4-bit signed immediate. (R37) -/
  | cAddi (d a : BitVec 3) (imm : BitVec 4)
  /-- Compact left shift by 0-15. (R37) -/
  | cShli (d a : BitVec 3) (imm : BitVec 4)
  /-- Compact logical right shift by 0-15. (R37) -/
  | cShri (d a : BitVec 3) (imm : BitVec 4)
  /-- Compact signed less-than. (R37) -/
  | cSlt (d a b : BitVec 3)
  /-- Compact load of a 7-bit signed immediate. (R37) -/
  | cLi (d : BitVec 3) (imm : BitVec 7)
  /-- Compact scratchpad doubleword load. (R37) -/
  | cLdsD (d a : BitVec 3) (off : BitVec 4)
  /-- Compact scratchpad doubleword store. (R37) -/
  | cStsD (d a : BitVec 3) (off : BitVec 4)
  /-- Compact scratchpad word load. (R37) -/
  | cLdsW (d a : BitVec 3) (off : BitVec 4)
  /-- Compact scratchpad word store. (R37) -/
  | cStsW (d a : BitVec 3) (off : BitVec 4)
  /-- Compact actor-state doubleword load. (R37) -/
  | cLdaD (d : BitVec 3) (off : BitVec 8)
  /-- Compact actor-state doubleword store. (R37) -/
  | cStaD (d : BitVec 3) (off : BitVec 8)
  /-- Compact branch if zero. (R37) -/
  | cBz (a : BitVec 3) (off : BitVec 7)
  /-- Compact branch if not zero. (R37) -/
  | cBnz (a : BitVec 3) (off : BitVec 7)
  /-- Compact jump to g0-g7. (R37) -/
  | cJr (a : BitVec 3)
  /-- Returns from a trap handler to TRAP_PC and clears IN_TRAP. (R58) -/
  | eret
  /-- Stalls until every earlier posted G and H store is performed or has placed its fault record. (R67) -/
  | drainst
  /-- Makes the strand ineligible next cycle when another strand is eligible. (R52) -/
  | yield
  /-- Waits, drains posted stores and ends the strand. (R53) -/
  | exit
  /-- Does nothing. (R55) -/
  | nop
  /-- Raises BREAKPOINT or, with BKHALT armed, halts the strand. (R55) -/
  | bkpt
  /-- Stops the issuing supervisor strand until debug resume or reset. (R55) -/
  | halt
  /-- Ends an actor handler or creator run. (R182) -/
  | done
  /-- Clears v0-v31 to zero. (R305) -/
  | mxz
  /-- Sets the strand's AUDX mark so its next MXQ is audited. (R314) -/
  | audx
  /-- Clears e0-e7. (R60) -/
  | xclr
  /-- Compact NOP. (R37) -/
  | cNop
  /-- Compact return through g46. (R37) -/
  | cRet
  /-- Compact EXIT. (R37) -/
  | cExit
  /-- Compact YIELD. (R37) -/
  | cYield
  /-- Compact DONE. (R37) -/
  | cDone
  /-- Compact BKPT. (R37) -/
  | cBkpt
  /-- At a boundary with IN_TRAP 0, the oldest unreported store-fault record raises a trap. (R403) -/
  | storeFault
  /-- A failed posted operation's record arrives in the strand's store-fault queue or is discarded when full. (R400) -/
  | storeFaultRecordArrival
  /-- The fetch unit serves one strand's fetch buffer from the instruction cache, slice or memory. (R183) -/
  | instructionFetch
  /-- A long-latency producer's result or fault tag is written and its register marked full. (R26) -/
  | longLatencyResult
  /-- The head SFU entry completes, writes its destination and ORs its flags. (R195) -/
  | sfuEntryComplete
  /-- A TLRS or TEMA completes and writes its rows, carry and flags. (R228) -/
  | recurrenceComplete
  /-- A forward lands in an awaiting register, completing the sender's FWD or VFWD. (R237) -/
  | forwardLand
  /-- A multicast packet's head reaches a router and is sent into every branch with room. (R148) -/
  | multicastFork
  /-- The residue buffer sends a packet into an untaken branch that gained room. (R148) -/
  | residueBranchSend
  /-- Every 16 cycles each router passes its region occupancy counts to its neighbours. (R143) -/
  | occupancyPropagate
  /-- An admitted message is injected once its SEND's release has completed. (R179) -/
  | messageInject
  /-- Once SPAWN's release completes the child starts on a free slot or is enqueued. (R54) -/
  | spawnPlace
  /-- A message reaches its flow-table entry and is forwarded, held or begins activation. (R163) -/
  | flowMessageArrival
  /-- An activation's heap probe ends, fetching state or starting the creator. (R167) -/
  | heapProbeDone
  /-- The record is in place; the entry becomes LIVE and its waystation is released in order. (R163) -/
  | activationComplete
  /-- An eviction write-back finishes and the entry becomes ABSENT or ACTIVATING. (R163) -/
  | evictionWritebackDone
  /-- A core input queue credit returns and held messages are released in order. (R163) -/
  | inputQueueCreditReturn
  /-- A port stopped by a full waystation ring resumes and sends its episode report. (R181) -/
  | waystationFull
  /-- A message from another package enters the home-die flow table with REMOTE set. (R175) -/
  | remoteMessageArrival
  /-- A handler or creator starts on a free or lent slot with message registers. (R171) -/
  | handlerStart
  /-- The comparator pairs a twin item and on matched DONE forwards messages and writes back. (R173) -/
  | twinItem
  /-- A twin item's partner fails to arrive within COMPARE_WINDOW, failing the pair. (R174) -/
  | compareWindow
  /-- A dispatcher fills a free slot with a resumption, handler start or queue record. (R189) -/
  | dispatch
  /-- A strand stalled 8192 cycles in a wait becomes PARKED. (R185) -/
  | swapDelay
  /-- A parked strand is swapped out so a handler can borrow its slot. (R197) -/
  | swapOut
  /-- A swapped-out strand resumes on its own slot once its condition holds. (R198) -/
  | strandResume
  /-- DRAIN_LIMIT expires and remaining strands of the displaced launch are forced-saved. (R199) -/
  | drainLimit
  /-- A strand is stopped, waits, drains and writes its context record. (R200) -/
  | forcedSave
  /-- The drover restores a displaced team's records when its core is free. (R201) -/
  | teamRestore
  /-- A copy job completes, updates the tile entry and releases its mailbox word. (R294) -/
  | copyJobComplete
  /-- The matrix engine performs a round of weighted tile-pair products. (R298) -/
  | matrixRound
  /-- An MXQ chain completes, writes v0-v31 and ORs its flags. (R301) -/
  | mxqComplete
  /-- The copy engine takes drained rows and v0-v31 become full again. (R303) -/
  | mxdrRowsTaken
  /-- Re-execution ends; divergence is binned, histograms updated and messages sent. (R312) -/
  | auditSampleComplete
  /-- An unfinished rate-selected sample is abandoned at AUDIT_DEADLINE. (R311) -/
  | auditDeadline
  /-- A write reaches its owner die, enters the coherence order and is acknowledged. (R319) -/
  | postedWriteAtOwner
  /-- A forwarded update or notice is applied to a die view in causal order. (R320) -/
  | dieViewUpdate
  /-- A dirty slice line is written back and performed in the die view. (R317) -/
  | sliceWriteback
  /-- A refresh marker reaches another die, which sends its performed writes and replies. (R326) -/
  | refreshMarker
  /-- The synchronisation engine performs an atomic at one instant and replies. (R338) -/
  | atomicPerform
  /-- A wait's reply arrives, writes the value and acquires. (R341) -/
  | waitReply
  /-- A join-counter message decrements the counter and at zero places its record. (R347) -/
  | counterMessage
  /-- An enqueue record arrives and is placed in the hardware part or spill ring. (R349) -/
  | enqRecordArrival
  /-- An enqueue acknowledgement with its status returns to the strand. (R352) -/
  | enqAckArrival
  /-- A remote-enqueue credit returns to the source die. (R140) -/
  | vc3CreditReturn
  /-- A pipe item or token lands in its consumer slot. (R383) -/
  | pipeItemArrival
  /-- A freed pipe slot's credit returns to the producer. (R383) -/
  | pipeCreditReturn
  /-- The 100 microsecond wait-for walk finds deadlocks and sends reports. (R357) -/
  | deadlock
  /-- The drover core starts moving a page, setting MIG and entering COPY. (R281) -/
  | pageMove
  /-- A migration phase ends and the move enters RECOPY, FINAL or SWITCH. (R282) -/
  | migrationPhaseEnd
  /-- A bank's recovery engine finishes rebuilding a word after 70 cycles. (R413) -/
  | sramRebuildDone
  /-- Every 4096 cycles the scrubber reads one row of the bank. (R416) -/
  | patrolScrub
  /-- A rectangle is fenced, stopped, reset and accounted. (R420) -/
  | containment
  /-- The contained cores finish reset and the drover applies effects and reports. (R421) -/
  | containmentResetDone
  /-- The host doorbell write of CQ_TAIL; too far ahead stops the queue with QUEUE_ERROR. (R117) -/
  | cqTail
  /-- A host write of CQ_BASE resets and restarts the command queue empty. (R117) -/
  | cqBase
  /-- A host write to a window register without its own row, ignored if illegal. (R116) -/
  | hostRegisterWrite
  /-- The sequencer takes the next command round-robin and broadcasts it with a sequence number. (R117) -/
  | commandTake
  /-- A launch command snapshots, validates, distributes and prepares a launch. (R124) -/
  | launchCommand
  /-- Each drover core makes the launch's leased pages resident and pinned. (R275) -/
  | leaseResidency
  /-- A placed admission unit's teams start within the convoy skew. (R127) -/
  | teamStart
  /-- A host MESSAGE command becomes an actor message of a launch. (R119) -/
  | messageCommand
  /-- An END command begins retirement of a launch. (R443) -/
  | endCommand
  /-- DRAIN_LIMIT after END passes and still-resident strands are stopped. (R443) -/
  | endDrainLimit
  /-- A POWER command moves clusters to a power state or completes with CLUSTER_BUSY. (R134) -/
  | powerCommand
  /-- All named clusters reach the commanded state and COMPLETION is raised. (R134) -/
  | powerTransitionDone
  /-- ATTEST writes a signed attestation report into the host buffer. (R132) -/
  | attestCommand
  /-- A START_CTL write of 1 begins a cold start on every die. (R130) -/
  | coldStart
  /-- A START_CTL write of 2 begins a warm start on every die. (R130) -/
  | warmStart
  /-- A start step ends, records its result and the next step begins. (R130) -/
  | startStep
  /-- A die's critical thermal trip turns its clusters off and ends affected launches. (R135) -/
  | thermalTrip
  /-- A buffered event is written to the event ring and EVQ_PROD advances. (R120) -/
  | eventRingWrite
  /-- A message to class 0xFFFF is written into its host receive ring. (R123) -/
  | hostRingDelivery
  /-- A coalescing window closes and one user-level interrupt is raised. (R129) -/
  | uliWindow
  /-- A team-end broadcast item is applied by every drover core. (R441) -/
  | teamEnd
  /-- The drover cores retire an ended launch, release leases and write LAUNCH_ENDED. (R444) -/
  | launchEnded
  /-- A DBG_CTL HALT write halts the cluster. (R428) -/
  | dbgHalt
  /-- A DBG_CTL RESUME write resumes halted strands and engines. (R430) -/
  | dbgResume
  /-- A DBG_CTL STEP write runs the selected strand for one instruction. (R430) -/
  | dbgStep
  /-- The cross-trigger network halts or resumes a cluster with XT_IN set. (R428) -/
  | crossTrigger
  /-- A write to STRAND changes a halted strand's state on resume. (R427) -/
  | dbgStrandWrite
  /-- A TRACE_CTL DUMP write writes PROFILE records of every profile entry. (R439) -/
  | traceDump
  /-- At each sampling instant SAMPLE records are written for one core's strands. (R434) -/
  | traceSample
  /-- A host read or write of device memory over the Yalvel Link is classed and checked at the owner die and performed there. (R270) -/
  | hostAccessToDeviceMemory
  /-- An LDN or STN request reaches the target core, is performed in that unit's order and is answered or acknowledged. (R254) -/
  | nSpaceAccessAtTarget
  /-- The owner's acknowledgement of a remote write, carrying its coherence position, arrives at the writing die, which may reapply its own write and complete waiting releases. (R319) -/
  | writeAcknowledgement
  /-- A wait, JOININIT or capsule operation reaches the owner's synchronisation engine, is performed at one instant and is answered. (R335) -/
  | syncEngineOperation
  /-- The copy engine performs one element block of a running job, writing tile or memory units before the job completes. (R289) -/
  | copyJobElementBlock
  /-- The last invalidation in an ICINV's scope is acknowledged and the stalled strand continues. (R68) -/
  | icinvAcknowledgement
  /-- A boot corner that takes no packet for 1 ms fails the die's start with RESULT 0x16. (R262) -/
  | cornerTimeout
  /-- Bits of an SRAM word flip of themselves, to be detected or not at the next read. (R414) -/
  | softError
  /-- DRAM symbols or a whole pseudo-channel fail, so later decodes correct them or find them uncorrectable. (R418) -/
  | pseudoChannelLoss
  deriving DecidableEq, Repr

end Sys2Proof
end

