-- ==== Sys2Proof/WellFormed.lean ====
section
/-! DEFINITION. Which field values an instruction word may hold (R31, R32, R34, R205 and the
descriptions of the instructions). A word that breaks one of these checks raises ILLEGAL_INSTRUCTION
(R38). The rows that are steps of the machine have no words and are not well formed. -/

namespace Sys2Proof

/-- Whether rnd or sat of the prefix may be non-zero (R205): never, for float types, for integer
types, or always. -/
inductive PfxUse where
  | zero
  | flt
  | int
  | any
  deriving DecidableEq, Repr

/-- What an operand field of format V names (R31, R205). -/
inductive OpUse where
  /-- v0 to v31 or g0 to g31 -/
  | any
  /-- v0 to v31 -/
  | vec
  /-- g0 to g31 -/
  | gen
  /-- a mask register: the upper bits and the policy bit are 0 -/
  | mask
  /-- unused: 0, with its policy bit -/
  | zero
  /-- VCVT's source type code (R215) -/
  | code
  deriving DecidableEq, Repr

/-- What vd names (R31, R205). -/
inductive VdUse where
  | vec
  | gen
  | mask
  deriving DecidableEq, Repr

/-- What men may be (R205). -/
inductive MenUse where
  | free
  | zero
  | one
  deriving DecidableEq, Repr

/-- One row of the table of R205. -/
structure VRule where
  types : List Nat := [0, 1, 2, 3, 4, 5, 6, 7]
  rnd : PfxUse := .zero
  sat : PfxUse := .zero
  c : Bool := false
  a : OpUse := .any
  b : OpUse := .any
  vd : VdUse := .vec
  men : MenUse := .free
  zero : Bool := true
  deriving DecidableEq, Repr

/-- type3 codes 0, 1 and 2 are the float types (R31). -/
def isFloatTy (ty : BitVec 3) : Bool := ty.toNat < 3

/-- Whether a prefix bit or code that is non-zero is allowed. -/
def PfxUse.allows (u : PfxUse) (ty : BitVec 3) : Bool :=
  match u with
  | .zero => false
  | .flt => isFloatTy ty
  | .int => !isFloatTy ty
  | .any => true

/-- Whether an operand field and its policy bit are as the row says. -/
def OpUse.allows (u : OpUse) (f : BitVec 6) (pol : Bool) : Bool :=
  match u with
  | .any => true
  | .vec => f.toNat < 32
  | .gen => 32 ≤ f.toNat
  | .mask => f.toNat < 8 && !pol
  | .zero => f.toNat == 0 && !pol
  | .code => f.toNat < 12

/-- Whether the prefix is legal for a row (R32, R205). -/
def Pfx.legal (r : VRule) (ty : BitVec 3) (p : Pfx) : Bool :=
  p.rnd.toNat < 6
    && (p.rnd.toNat == 0 || r.rnd.allows ty)
    && (!p.sat || r.sat.allows ty)
    && (r.c || (p.c.toNat == 0 && !p.pc))
    && (p.men || (p.m.toNat == 0 && !p.zero))
    && (r.zero || !p.zero)
    && (match r.men with
        | .free => true
        | .zero => !p.men
        | .one => p.men)

/-- Whether a vector word with its prefix is legal (R31, R32, R205). -/
def VOp.legal (r : VRule) (x : VOp) : Bool :=
  r.types.contains x.ty.toNat
    && x.p.legal r x.ty
    && r.a.allows x.a x.pa
    && r.b.allows x.b x.pb
    && (match r.vd with
        | .mask => x.vd.toNat < 8
        | .vec => true
        | .gen => true)

/-- VCVT with SUB = 1 names a sub-byte destination type, 0 to 3 (R215). -/
def VOp.cvtLegal (x : VOp) : Bool := !x.pb || x.ty.toNat < 4

/-- The last register of a range of `n` rows of the operand type that starts at `f`; a g register and
a HOLD register name no range (R228, R230). -/
def rangeFits (f : BitVec 6) (ty : BitVec 3) (n : Nat) : Bool :=
  if 32 ≤ f.toNat then true
  else if ty.toNat == 0 then f.toNat + n - 1 ≤ 31
  else if ty.toNat < 3 then f.toNat + (n + 1) / 2 - 1 ≤ 31
  else true

/-- TLRS: the carry register is a v register and no range runs past v31 (R230). -/
def VOp.tlrsLegal (x : VOp) : Bool :=
  x.p.c.toNat < 32 && rangeFits x.a x.ty (32 - x.vd.toNat) && rangeFits x.b x.ty (32 - x.vd.toNat)

/-- TEMA: as TLRS, but a names one register (R232). -/
def VOp.temaLegal (x : VOp) : Bool :=
  x.p.c.toNat < 32 && rangeFits x.b x.ty (32 - x.vd.toNat)

/-- A prefix before VNOP, VFWD or VFWD.arm has bits [31:7] all 0 (R225, R240). -/
def pfxBlank (p : Option Pfx) : Bool :=
  match p with
  | none => true
  | some q => q == Pfx.none

/-- size of S space (R34); a V access names v0 to v31. -/
def sizeOkS (size : BitVec 3) (d : BitVec 6) : Bool :=
  size.toNat < 7 && (size.toNat != 4 || d.toNat < 32)

/-- size of N, A and K space (R34). -/
def sizeOkN (size : BitVec 3) (d : BitVec 6) : Bool :=
  size.toNat < 5 && (size.toNat != 4 || d.toNat < 32)

/-- scope of format Mg (R34): team, convoy, die, package, system. -/
def scopeOkG (scope : BitVec 3) : Bool := 1 ≤ scope.toNat && scope.toNat ≤ 5

/-- ord of a load: plain or acq (R34). -/
def ordOkLoad (o : BitVec 2) : Bool := o.toNat < 2

/-- ord of a store: plain or rel (R34). -/
def ordOkStore (o : BitVec 2) : Bool := o.toNat == 0 || o.toNat == 2

/-- The rows of R205. -/
def vRule : Instr → VRule
  | .vadd _ => { rnd := .flt, sat := .any }
  | .vsub _ => { rnd := .flt, sat := .any }
  | .vmul _ => { rnd := .flt, sat := .any }
  | .vfma _ => { rnd := .flt, sat := .any, c := true }
  | .vfms _ => { rnd := .flt, sat := .any, c := true }
  | .vfnma _ => { rnd := .flt, sat := .any, c := true }
  | .vmin _ => { }
  | .vmax _ => { }
  | .vminn _ => { }
  | .vmaxn _ => { }
  | .vabs _ => { sat := .int, b := .zero }
  | .vneg _ => { sat := .int, b := .zero }
  | .vand _ => { }
  | .vor _ => { }
  | .vxor _ => { }
  | .vshl _ => { types := [3, 4, 5, 6, 7], sat := .int }
  | .vceq _ => { vd := .mask }
  | .vcne _ => { vd := .mask }
  | .vclt _ => { vd := .mask }
  | .vcle _ => { vd := .mask }
  | .vsel _ => { men := .one, zero := false }
  | .vshr _ => { types := [3, 4, 5, 6, 7] }
  | .vsra _ => { types := [3, 4, 5, 6, 7] }
  | .vclass _ => { types := [0, 1, 2], b := .zero }
  | .vcvt _ => { rnd := .any, sat := .any, b := .code }
  | .vmov _ => { b := .zero }
  | .vbcast _ => { a := .vec, b := .gen }
  | .vext _ => { a := .vec, b := .gen, vd := .gen, men := .zero }
  | .vins _ => { a := .gen, b := .gen, zero := false }
  | .vslide _ => { b := .gen }
  | .vperm _ => { b := .vec }
  | .vidx _ => { a := .zero, b := .zero }
  | .vreda _ => { rnd := .flt, sat := .int, b := .zero, zero := false }
  | .vredx _ => { b := .zero, zero := false }
  | .vredn _ => { b := .zero, zero := false }
  | .vscan _ => { rnd := .flt, sat := .int, b := .zero }
  | .vlrs _ => { types := [0, 1, 2], rnd := .any, sat := .any, c := true }
  | .tlrs _ => { types := [0, 1, 2, 4, 5, 6], rnd := .any, sat := .any, c := true }
  | .tema _ => { types := [0, 1, 2], rnd := .any, sat := .any, c := true }
  | .vdot _ => { types := [1, 2, 6, 7], rnd := .flt, sat := .any }
  | .vrcp _ => { types := [0, 1, 2], rnd := .flt, sat := .flt, b := .zero }
  | .vrsq _ => { types := [0, 1, 2], rnd := .flt, sat := .flt, b := .zero }
  | .vsqrt _ => { types := [0, 1, 2], rnd := .flt, sat := .flt, b := .zero }
  | .vexp2 _ => { types := [0, 1, 2], rnd := .flt, sat := .flt, b := .zero }
  | .vlog2 _ => { types := [0, 1, 2], rnd := .flt, sat := .flt, b := .zero }
  | .vtanh _ => { types := [0, 1, 2], rnd := .flt, sat := .flt, b := .zero }
  | .vsigm _ => { types := [0, 1, 2], rnd := .flt, sat := .flt, b := .zero }
  | .vdiv _ => { rnd := .flt, sat := .flt }
  | .mand _ => { a := .mask, b := .mask, vd := .mask, men := .zero }
  | .mor _ => { a := .mask, b := .mask, vd := .mask, men := .zero }
  | .mxor _ => { a := .mask, b := .mask, vd := .mask, men := .zero }
  | .mnot _ => { a := .mask, b := .zero, vd := .mask, men := .zero }
  | .mpop _ => { a := .mask, b := .zero, vd := .gen, men := .zero }
  | .mset _ => { a := .zero, b := .gen, vd := .mask, men := .zero }
  | _ => { }

/-- The registers that a capsule keeps: g40 to g47, the only destinations of CAPB, CAPS and CAPE beside z, and none of
CAPA's (R372). -/
def keptReg (d : BitVec 6) : Bool := 40 ≤ d.toNat && d.toNat < 48

/-- Every check a word of a well-formed instruction passes, beyond the bits its encoding fixes. -/
def Instr.wf (i : Instr) : Bool :=
  match i with
  | .add _ => true
  | .sub _ => true
  | .mul _ => true
  | .mulh _ => true
  | .mulhn _ => true
  | .div _ => true
  | .divn _ => true
  | .rem _ => true
  | .remn _ => true
  | .and _ => true
  | .or _ => true
  | .xor _ => true
  | .andn _ => true
  | .orn _ => true
  | .shl _ => true
  | .shr _ => true
  | .sra _ => true
  | .rot _ => true
  | .min _ => true
  | .max _ => true
  | .minn _ => true
  | .maxn _ => true
  | .seq _ => true
  | .sne _ => true
  | .slt _ => true
  | .sltn _ => true
  | .sle _ => true
  | .slen _ => true
  | .addw _ => true
  | .subw _ => true
  | .lea _ => true
  | .leaw _ => true
  | .clz _ => true
  | .ctz _ => true
  | .popc _ => true
  | .brev _ => true
  | .abs _ => true
  | .neg _ => true
  | .sxtb _ => true
  | .sxth _ => true
  | .sxtw _ => true
  | .zxtb _ => true
  | .zxth _ => true
  | .zxtw _ => true
  | .addi _ _ => true
  | .andi _ _ => true
  | .ori _ _ => true
  | .xori _ _ => true
  | .slti _ _ => true
  | .shli _ _ => true
  | .shri _ _ => true
  | .srai _ _ => true
  | .li _ _ => true
  | .liu _ _ => true
  | .bz _ _ => true
  | .bnz _ _ => true
  | .bltz _ _ => true
  | .bgez _ _ => true
  | .blez _ _ => true
  | .bgtz _ _ => true
  | .bodd _ _ => true
  | .bloop _ _ => true
  | .jal _ _ => true
  | .jr _ => true
  | .jalr _ => true
  | .trap _ => true
  | .eret => true
  | .crdBank0 _ _ => true
  | .crdBank1 _ _ => true
  | .cwrBank0 _ _ => true
  | .cwrBank1 _ _ => true
  | .fenceAcq scope => 1 ≤ scope.toNat && scope.toNat ≤ 5
  | .fenceRel scope => 1 ≤ scope.toNat && scope.toNat ≤ 5
  | .fenceFull scope => 1 ≤ scope.toNat && scope.toNat ≤ 5
  | .drainst => true
  | .icinv scope _ => 2 ≤ scope.toNat && scope.toNat ≤ 4
  | .fencesp _ => true
  | .susp _ => true
  | .yield => true
  | .exit => true
  | .nop => true
  | .bkpt => true
  | .halt => true
  | .spawn _ => true
  | .ext _ => true
  | .ins _ => true
  | .lds x size _ => sizeOkS size x.d
  | .sts x size _ => sizeOkS size x.d
  | .pushs _ => true
  | .pops _ => true
  | .ldn x size => sizeOkN size x.d
  | .stn x size => sizeOkN size x.d
  | .lda d size _ => sizeOkN size d
  | .sta d size _ => sizeOkN size d
  | .ldk d size _ => sizeOkN size d
  | .ldg x size ord scope _ => sizeOkS size x.d && ordOkLoad ord && scopeOkG scope
  | .stg x size ord scope _ => sizeOkS size x.d && ordOkStore ord && scopeOkG scope
  | .pfg _ scope _ => scopeOkG scope
  | .ldh _ size ord => size.toNat < 4 && ordOkLoad ord
  | .sth _ size ord => size.toNat < 4 && ordOkStore ord
  | .aadd _ _ => true
  | .aand _ _ => true
  | .aor _ _ => true
  | .axor _ _ => true
  | .amin _ _ => true
  | .amax _ _ => true
  | .aminn _ _ => true
  | .amaxn _ _ => true
  | .axchg _ _ => true
  | .acas _ _ => true
  | .afadd _ => true
  | .aaddAr _ _ => true
  | .aandAr _ _ => true
  | .aorAr _ _ => true
  | .axorAr _ _ => true
  | .aminAr _ _ => true
  | .amaxAr _ _ => true
  | .aminnAr _ _ => true
  | .amaxnAr _ _ => true
  | .axchgAr _ _ => true
  | .acasAr _ _ => true
  | .afaddAr _ => true
  | .waitne _ => true
  | .waiteq _ => true
  | .waitge _ => true
  | .jwait _ => true
  | .jtest _ => true
  | .joininit _ => true
  | .joindec _ => true
  | .capb x => keptReg x.d
  | .caps d => keptReg d || d.toNat == 60
  | .cape x => keptReg x.d || x.d.toNat == 60
  | .capa x => !keptReg x.d
  | .capr _ => true
  | .capq _ => true
  | .send _ => true
  | .sendc _ => true
  | .done => true
  | .enq _ => true
  | .enqAck x => x.d.toNat != 60
  | .deq _ => true
  | .psend _ => true
  | .precv _ => true
  | .eos _ => true
  | .mcast _ => true
  | .netrx _ => true
  | .fwd x _ _ => 48 ≤ x.d.toNat && x.d.toNat != 60
  | .fwdArm d => 48 ≤ d.toNat && d.toNat != 60
  | .launch _ => true
  | .ackw _ => true
  | .tdef _ _ => true
  | .trel _ => true
  | .tstat _ _ => true
  | .cpyj _ _ => true
  | .cpyjSt _ _ => true
  | .cpyq _ _ => true
  | .mxqF32 _ _ => true
  | .mxqI32 _ _ => true
  | .mxdrStF32 _ => true
  | .mxdrAddF32 _ => true
  | .mxdrStI32 _ => true
  | .mxdrAddI32 _ => true
  | .mxz => true
  | .audx => true
  | .xmov _ _ => true
  | .xget _ _ => true
  | .xclr => true
  | .vadd x => x.legal (vRule i)
  | .vsub x => x.legal (vRule i)
  | .vmul x => x.legal (vRule i)
  | .vfma x => x.legal (vRule i)
  | .vfms x => x.legal (vRule i)
  | .vfnma x => x.legal (vRule i)
  | .vmin x => x.legal (vRule i)
  | .vmax x => x.legal (vRule i)
  | .vminn x => x.legal (vRule i)
  | .vmaxn x => x.legal (vRule i)
  | .vabs x => x.legal (vRule i)
  | .vneg x => x.legal (vRule i)
  | .vand x => x.legal (vRule i)
  | .vor x => x.legal (vRule i)
  | .vxor x => x.legal (vRule i)
  | .vshl x => x.legal (vRule i)
  | .vceq x => x.legal (vRule i)
  | .vcne x => x.legal (vRule i)
  | .vclt x => x.legal (vRule i)
  | .vcle x => x.legal (vRule i)
  | .vsel x => x.legal (vRule i)
  | .vshr x => x.legal (vRule i)
  | .vsra x => x.legal (vRule i)
  | .vclass x => x.legal (vRule i)
  | .vcvt x => x.legal (vRule i) && x.cvtLegal
  | .vmov x => x.legal (vRule i)
  | .vbcast x => x.legal (vRule i)
  | .vext x => x.legal (vRule i)
  | .vins x => x.legal (vRule i)
  | .vslide x => x.legal (vRule i)
  | .vperm x => x.legal (vRule i)
  | .vidx x => x.legal (vRule i)
  | .vreda x => x.legal (vRule i)
  | .vredx x => x.legal (vRule i)
  | .vredn x => x.legal (vRule i)
  | .vscan x => x.legal (vRule i)
  | .vlrs x => x.legal (vRule i)
  | .tlrs x => x.legal (vRule i) && x.tlrsLegal
  | .tema x => x.legal (vRule i) && x.temaLegal
  | .vdot x => x.legal (vRule i)
  | .vrcp x => x.legal (vRule i)
  | .vrsq x => x.legal (vRule i)
  | .vsqrt x => x.legal (vRule i)
  | .vexp2 x => x.legal (vRule i)
  | .vlog2 x => x.legal (vRule i)
  | .vtanh x => x.legal (vRule i)
  | .vsigm x => x.legal (vRule i)
  | .vdiv x => x.legal (vRule i)
  | .vfwd p _ _ _ => pfxBlank p
  | .vfwdArm p _ => pfxBlank p
  | .vnop p => pfxBlank p
  | .mand x => x.legal (vRule i)
  | .mor x => x.legal (vRule i)
  | .mxor x => x.legal (vRule i)
  | .mnot x => x.legal (vRule i)
  | .mpop x => x.legal (vRule i)
  | .mset x => x.legal (vRule i)
  | .cAdd d a b => d.toNat != 0 || a.toNat != 0 || b.toNat != 0
  | .cSub _ _ _ => true
  | .cAnd _ _ _ => true
  | .cOr _ _ _ => true
  | .cXor _ _ _ => true
  | .cMov _ _ => true
  | .cAddi _ _ _ => true
  | .cShli _ _ _ => true
  | .cShri _ _ _ => true
  | .cSlt _ _ _ => true
  | .cLi _ _ => true
  | .cLdsD _ _ _ => true
  | .cStsD _ _ _ => true
  | .cLdsW _ _ _ => true
  | .cStsW _ _ _ => true
  | .cLdaD _ _ => true
  | .cStaD _ _ => true
  | .cBz _ _ => true
  | .cBnz _ _ => true
  | .cNop => true
  | .cRet => true
  | .cExit => true
  | .cYield => true
  | .cDone => true
  | .cJr _ => true
  | .cBkpt => true
  | .storeFault => false
  | .storeFaultRecordArrival => false
  | .instructionFetch => false
  | .longLatencyResult => false
  | .sfuEntryComplete => false
  | .recurrenceComplete => false
  | .forwardLand => false
  | .multicastFork => false
  | .residueBranchSend => false
  | .occupancyPropagate => false
  | .messageInject => false
  | .spawnPlace => false
  | .flowMessageArrival => false
  | .heapProbeDone => false
  | .activationComplete => false
  | .evictionWritebackDone => false
  | .inputQueueCreditReturn => false
  | .waystationFull => false
  | .remoteMessageArrival => false
  | .handlerStart => false
  | .twinItem => false
  | .compareWindow => false
  | .dispatch => false
  | .swapDelay => false
  | .swapOut => false
  | .strandResume => false
  | .drainLimit => false
  | .forcedSave => false
  | .teamRestore => false
  | .copyJobComplete => false
  | .matrixRound => false
  | .mxqComplete => false
  | .mxdrRowsTaken => false
  | .auditSampleComplete => false
  | .auditDeadline => false
  | .postedWriteAtOwner => false
  | .dieViewUpdate => false
  | .sliceWriteback => false
  | .refreshMarker => false
  | .atomicPerform => false
  | .waitReply => false
  | .counterMessage => false
  | .enqRecordArrival => false
  | .enqAckArrival => false
  | .vc3CreditReturn => false
  | .pipeItemArrival => false
  | .pipeCreditReturn => false
  | .deadlock => false
  | .pageMove => false
  | .migrationPhaseEnd => false
  | .sramRebuildDone => false
  | .patrolScrub => false
  | .containment => false
  | .containmentResetDone => false
  | .cqTail => false
  | .cqBase => false
  | .hostRegisterWrite => false
  | .commandTake => false
  | .launchCommand => false
  | .leaseResidency => false
  | .teamStart => false
  | .messageCommand => false
  | .endCommand => false
  | .endDrainLimit => false
  | .powerCommand => false
  | .powerTransitionDone => false
  | .attestCommand => false
  | .coldStart => false
  | .warmStart => false
  | .startStep => false
  | .thermalTrip => false
  | .eventRingWrite => false
  | .hostRingDelivery => false
  | .uliWindow => false
  | .teamEnd => false
  | .launchEnded => false
  | .dbgHalt => false
  | .dbgResume => false
  | .dbgStep => false
  | .crossTrigger => false
  | .dbgStrandWrite => false
  | .traceDump => false
  | .traceSample => false
  | .hostAccessToDeviceMemory => false
  | .nSpaceAccessAtTarget => false
  | .writeAcknowledgement => false
  | .syncEngineOperation => false
  | .copyJobElementBlock => false
  | .icinvAcknowledgement => false
  | .cornerTimeout => false
  | .softError => false
  | .pseudoChannelLoss => false

end Sys2Proof
end

