-- ==== Sys2Proof/Decode.lean ====
section
/-! DEFINITION. The decoder, from the halfwords of an instruction (R20 to R22, R30 to R38), total and
rejecting by name; after it the encoder, from the same layouts. -/

namespace Sys2Proof

/-- Why a pattern is not an instruction (R38). -/
inductive DecodeError where
  /-- fewer halfwords than the instruction has -/
  | truncated
  /-- the halfword 0x0000 (R21) -/
  | zeroHalfword
  /-- majors 27 to 30 (R35) -/
  | reservedMajor
  /-- a minor code the opcode map does not list (R35) -/
  | reservedMinor
  /-- a compact operation the table of R37 does not list -/
  | reservedCompact
  /-- a must-be-0 bit or an unused field that is not 0 -/
  | mustBeZero
  /-- a field value that R31, R32, R34 or the instruction's description makes illegal -/
  | illegalField
  /-- a prefix before a word that is not of majors 20 to 26 (R22) -/
  | badFollower
  deriving DecidableEq, Repr

/-- Bits [lo + n - 1 : lo] of `w`. -/
def fld (w lo n : Nat) : Nat := w / 2 ^ lo % 2 ^ n

/-- A field as a bit vector. -/
def bits (w lo n : Nat) : BitVec n := BitVec.ofNat n (fld w lo n)

/-- One bit of `w`. -/
def flag (w lo : Nat) : Bool := fld w lo 1 == 1

/-- The instruction, if the fields that must be 0 are. -/
def zeroed (z : Nat) (i : Instr) : Except DecodeError Instr :=
  if z = 0 then .ok i else .error .mustBeZero

/-- The operands of format A (R30). -/
def a3 (w : Nat) : A3 := ⟨bits w 7 6, bits w 14 6, bits w 21 6, flag w 13, flag w 20⟩

/-- Format A without b. -/
def a2 (w : Nat) : A2 := ⟨bits w 7 6, bits w 14 6, flag w 13⟩

/-- Format A without d. -/
def ab (w : Nat) : AB := ⟨bits w 14 6, bits w 21 6, flag w 13, flag w 20⟩

/-- Format A with a alone. -/
def a1 (w : Nat) : A1 := ⟨bits w 14 6, flag w 13⟩

/-- The operands of format BR. -/
def br (w : Nat) : A1 := ⟨bits w 7 6, flag w 13⟩

/-- The prefix word's fields (R30 format X). -/
def pfxOf (w : Nat) : Pfx :=
  ⟨flag w 22, flag w 21, bits w 15 6, bits w 12 3, flag w 11, flag w 10, bits w 7 3⟩

/-- The fields of format V. -/
def vop (p : Option Pfx) (w : Nat) : VOp :=
  ⟨p, bits w 26 3, bits w 20 6, flag w 19, bits w 13 6, flag w 12, bits w 7 5⟩

/-- Major 0, ALU (R35). -/
def dec0 (w : Nat) : Except DecodeError Instr :=
  match fld w 27 5 with
  | 0 => .ok (.add (a3 w))
  | 1 => .ok (.sub (a3 w))
  | 2 => .ok (.mul (a3 w))
  | 3 => .ok (.mulh (a3 w))
  | 4 => .ok (.mulhn (a3 w))
  | 5 => .ok (.div (a3 w))
  | 6 => .ok (.divn (a3 w))
  | 7 => .ok (.rem (a3 w))
  | 8 => .ok (.remn (a3 w))
  | 9 => .ok (.and (a3 w))
  | 10 => .ok (.or (a3 w))
  | 11 => .ok (.xor (a3 w))
  | 12 => .ok (.andn (a3 w))
  | 13 => .ok (.orn (a3 w))
  | 14 => .ok (.shl (a3 w))
  | 15 => .ok (.shr (a3 w))
  | 16 => .ok (.sra (a3 w))
  | 17 => .ok (.rot (a3 w))
  | 18 => .ok (.min (a3 w))
  | 19 => .ok (.max (a3 w))
  | 20 => .ok (.minn (a3 w))
  | 21 => .ok (.maxn (a3 w))
  | 22 => .ok (.seq (a3 w))
  | 23 => .ok (.sne (a3 w))
  | 24 => .ok (.slt (a3 w))
  | 25 => .ok (.sltn (a3 w))
  | 26 => .ok (.sle (a3 w))
  | 27 => .ok (.slen (a3 w))
  | 28 => .ok (.addw (a3 w))
  | 29 => .ok (.subw (a3 w))
  | 30 => .ok (.lea (a3 w))
  | 31 => .ok (.leaw (a3 w))
  | _ => .error .reservedMinor

/-- Major 1, ALU1 (R35). -/
def dec1 (w : Nat) : Except DecodeError Instr :=
  match fld w 27 5 with
  | 0 => zeroed (fld w 20 7) (.clz (a2 w))
  | 1 => zeroed (fld w 20 7) (.ctz (a2 w))
  | 2 => zeroed (fld w 20 7) (.popc (a2 w))
  | 3 => zeroed (fld w 20 7) (.brev (a2 w))
  | 4 => zeroed (fld w 20 7) (.abs (a2 w))
  | 5 => zeroed (fld w 20 7) (.neg (a2 w))
  | 6 => zeroed (fld w 20 7) (.sxtb (a2 w))
  | 7 => zeroed (fld w 20 7) (.sxth (a2 w))
  | 8 => zeroed (fld w 20 7) (.sxtw (a2 w))
  | 9 => zeroed (fld w 20 7) (.zxtb (a2 w))
  | 10 => zeroed (fld w 20 7) (.zxth (a2 w))
  | 11 => zeroed (fld w 20 7) (.zxtw (a2 w))
  | _ => .error .reservedMinor

/-- Major 2, ALUI (R35). -/
def dec2 (w : Nat) : Except DecodeError Instr :=
  match fld w 20 3 with
  | 0 => .ok (.addi (a2 w) (bits w 23 9))
  | 1 => .ok (.andi (a2 w) (bits w 23 9))
  | 2 => .ok (.ori (a2 w) (bits w 23 9))
  | 3 => .ok (.xori (a2 w) (bits w 23 9))
  | 4 => .ok (.slti (a2 w) (bits w 23 9))
  | 5 => zeroed (fld w 29 3) (.shli (a2 w) (bits w 23 6))
  | 6 => zeroed (fld w 29 3) (.shri (a2 w) (bits w 23 6))
  | 7 => zeroed (fld w 29 3) (.srai (a2 w) (bits w 23 6))
  | _ => .error .reservedMinor

/-- Major 5, BR (R35). -/
def dec5 (w : Nat) : Except DecodeError Instr :=
  match fld w 14 3 with
  | 0 => .ok (.bz (br w) (bits w 17 15))
  | 1 => .ok (.bnz (br w) (bits w 17 15))
  | 2 => .ok (.bltz (br w) (bits w 17 15))
  | 3 => .ok (.bgez (br w) (bits w 17 15))
  | 4 => .ok (.blez (br w) (bits w 17 15))
  | 5 => .ok (.bgtz (br w) (bits w 17 15))
  | 6 => .ok (.bodd (br w) (bits w 17 15))
  | 7 => .ok (.bloop (br w) (bits w 17 15))
  | _ => .error .reservedMinor

/-- Major 7, SYS (R35). -/
def dec7 (w : Nat) : Except DecodeError Instr :=
  match fld w 27 5 with
  | 0 => zeroed (fld w 7 6 + fld w 20 7) (.jr (a1 w))
  | 1 => zeroed (fld w 20 7) (.jalr (a2 w))
  | 2 => zeroed (fld w 7 14) (.trap (bits w 21 6))
  | 3 => zeroed (fld w 7 20) .eret
  | 4 => zeroed (fld w 13 8) (.crdBank0 (bits w 21 6) (bits w 7 6))
  | 5 => zeroed (fld w 13 8) (.crdBank1 (bits w 21 6) (bits w 7 6))
  | 6 => zeroed (fld w 7 6 + fld w 20 1) (.cwrBank0 (bits w 21 6) (a1 w))
  | 7 => zeroed (fld w 7 6 + fld w 20 1) (.cwrBank1 (bits w 21 6) (a1 w))
  | 8 =>
    match fld w 14 6 with
    | 0 => zeroed (fld w 7 7 + fld w 20 1) (.fenceAcq (bits w 21 6))
    | 1 => zeroed (fld w 7 7 + fld w 20 1) (.fenceRel (bits w 21 6))
    | 2 => zeroed (fld w 7 7 + fld w 20 1) (.fenceFull (bits w 21 6))
    | _ => .error .illegalField
  | 9 => zeroed (fld w 7 20) .drainst
  | 10 => .ok (.icinv (bits w 7 6) (ab w))
  | 11 => zeroed (fld w 7 6 + fld w 20 7) (.fencesp (a1 w))
  | 12 => zeroed (fld w 7 6 + fld w 20 7) (.susp (a1 w))
  | 13 => zeroed (fld w 7 20) .yield
  | 14 => zeroed (fld w 7 20) .exit
  | 15 => zeroed (fld w 7 20) .nop
  | 16 => zeroed (fld w 7 20) .bkpt
  | 17 => zeroed (fld w 7 20) .halt
  | 18 => zeroed (fld w 7 6) (.spawn (ab w))
  | 19 => zeroed (fld w 20 7) (.ext (a2 w))
  | 20 => zeroed (fld w 20 7) (.ins (a2 w))
  | _ => .error .reservedMinor

/-- Major 14, ATOM (R35). -/
def dec14 (w : Nat) : Except DecodeError Instr :=
  match fld w 27 4 with
  | 0 => .ok (.aadd (a3 w) (flag w 31))
  | 1 => .ok (.aand (a3 w) (flag w 31))
  | 2 => .ok (.aor (a3 w) (flag w 31))
  | 3 => .ok (.axor (a3 w) (flag w 31))
  | 4 => .ok (.amin (a3 w) (flag w 31))
  | 5 => .ok (.amax (a3 w) (flag w 31))
  | 6 => .ok (.aminn (a3 w) (flag w 31))
  | 7 => .ok (.amaxn (a3 w) (flag w 31))
  | 8 => .ok (.axchg (a3 w) (flag w 31))
  | 9 => .ok (.acas (a3 w) (flag w 31))
  | 10 => zeroed (fld w 31 1) (.afadd (a3 w))
  | _ => .error .reservedMinor

/-- Major 15, ATOMO (R35). -/
def dec15 (w : Nat) : Except DecodeError Instr :=
  match fld w 27 4 with
  | 0 => .ok (.aaddAr (a3 w) (flag w 31))
  | 1 => .ok (.aandAr (a3 w) (flag w 31))
  | 2 => .ok (.aorAr (a3 w) (flag w 31))
  | 3 => .ok (.axorAr (a3 w) (flag w 31))
  | 4 => .ok (.aminAr (a3 w) (flag w 31))
  | 5 => .ok (.amaxAr (a3 w) (flag w 31))
  | 6 => .ok (.aminnAr (a3 w) (flag w 31))
  | 7 => .ok (.amaxnAr (a3 w) (flag w 31))
  | 8 => .ok (.axchgAr (a3 w) (flag w 31))
  | 9 => .ok (.acasAr (a3 w) (flag w 31))
  | 10 => zeroed (fld w 31 1) (.afaddAr (a3 w))
  | _ => .error .reservedMinor

/-- Major 16, WAIT (R35). -/
def dec16 (w : Nat) : Except DecodeError Instr :=
  match fld w 27 5 with
  | 0 => .ok (.waitne (a3 w))
  | 1 => .ok (.waiteq (a3 w))
  | 2 => .ok (.waitge (a3 w))
  | 3 => zeroed (fld w 20 7) (.jwait (a2 w))
  | 4 => zeroed (fld w 20 7) (.jtest (a2 w))
  | 5 => .ok (.joininit (a3 w))
  | 6 => zeroed (fld w 7 6) (.joindec (ab w))
  | 7 => zeroed (fld w 20 7) (.capb (a2 w))
  | 8 => zeroed (fld w 13 14) (.caps (bits w 7 6))
  | 9 => zeroed (fld w 20 7) (.cape (a2 w))
  | 10 => zeroed (fld w 20 7) (.capa (a2 w))
  | 11 => .ok (.capr (a3 w))
  | 12 => zeroed (fld w 20 7) (.capq (a2 w))
  | _ => .error .reservedMinor

/-- Major 17, MSG (R35). -/
def dec17 (w : Nat) : Except DecodeError Instr :=
  match fld w 27 5 with
  | 0 => zeroed (fld w 7 6) (.send (ab w))
  | 1 => .ok (.sendc (a3 w))
  | 2 => zeroed (fld w 7 20) .done
  | 3 => if fld w 7 6 = 60 then .ok (.enq (ab w)) else .ok (.enqAck (a3 w))
  | 4 => .ok (.deq (a3 w))
  | 5 => zeroed (fld w 7 6) (.psend (ab w))
  | 6 => .ok (.precv (a3 w))
  | 7 => zeroed (fld w 7 6 + fld w 20 7) (.eos (a1 w))
  | 8 => zeroed (fld w 7 6) (.mcast (ab w))
  | 9 => zeroed (fld w 20 7) (.netrx (a2 w))
  | 10 =>
    match fld w 25 1 with
    | 0 => zeroed (fld w 20 1 + fld w 26 1) (.fwd (a2 w) (bits w 23 2) (bits w 21 2))
    | _ => zeroed (fld w 13 12 + fld w 26 1) (.fwdArm (bits w 7 6))
  | 11 => zeroed (fld w 7 6) (.launch (ab w))
  | 12 => zeroed (fld w 20 7) (.ackw (a2 w))
  | _ => .error .reservedMinor

/-- Major 18, TX (R35). -/
def dec18 (w : Nat) : Except DecodeError Instr :=
  match fld w 27 5 with
  | 0 => zeroed (fld w 7 6 + fld w 20 1 + fld w 26 1) (.tdef (bits w 21 5) (a1 w))
  | 1 => zeroed (fld w 7 14 + fld w 26 1) (.trel (bits w 21 5))
  | 2 => zeroed (fld w 13 8 + fld w 26 1) (.tstat (bits w 21 5) (bits w 7 6))
  | 3 => if fld w 26 1 = 0 then zeroed (fld w 20 1) (.cpyj (bits w 21 5) (a2 w))
    else zeroed (fld w 20 1) (.cpyjSt (bits w 21 5) (a2 w))
  | 4 => zeroed (fld w 20 1 + fld w 26 1) (.cpyq (bits w 21 5) (a2 w))
  | 5 =>
    match fld w 7 6 with
    | 0 => zeroed (fld w 13 1 + fld w 19 2 + fld w 26 1) (.mxqF32 (bits w 14 5) (bits w 21 5))
    | 1 => zeroed (fld w 13 1 + fld w 19 2 + fld w 26 1) (.mxqI32 (bits w 14 5) (bits w 21 5))
    | _ => .error .illegalField
  | 6 =>
    match fld w 7 6, fld w 21 6 with
    | 0, 0 => zeroed (fld w 20 1) (.mxdrStF32 (a1 w))
    | 0, 1 => zeroed (fld w 20 1) (.mxdrAddF32 (a1 w))
    | 1, 0 => zeroed (fld w 20 1) (.mxdrStI32 (a1 w))
    | 1, 1 => zeroed (fld w 20 1) (.mxdrAddI32 (a1 w))
    | _, _ => .error .illegalField
  | 7 => zeroed (fld w 7 20) .mxz
  | 8 => zeroed (fld w 7 20) .audx
  | _ => .error .reservedMinor

/-- Major 19, XE (R35). -/
def dec19 (w : Nat) : Except DecodeError Instr :=
  match fld w 27 5 with
  | 0 => zeroed (fld w 10 3 + fld w 20 7) (.xmov (bits w 7 3) (a1 w))
  | 1 => zeroed (fld w 13 8 + fld w 24 3) (.xget (bits w 21 3) (bits w 7 6))
  | 2 => zeroed (fld w 7 20) .xclr
  | _ => .error .reservedMinor

/-- S space (major 8): size 7 is PUSHS and POPS (R34). -/
def dec8 (w : Nat) : Except DecodeError Instr :=
  match fld w 21 3, fld w 20 1 with
  | 7, 0 => zeroed (fld w 13 7 + fld w 24 8) (.pops (bits w 7 6))
  | 7, _ => zeroed (fld w 13 7 + fld w 24 8) (.pushs (bits w 7 6))
  | _, 0 => .ok (.lds (a2 w) (bits w 21 3) (bits w 24 8))
  | _, _ => .ok (.sts (a2 w) (bits w 21 3) (bits w 24 8))

/-- N space (major 9). -/
def dec9 (w : Nat) : Except DecodeError Instr :=
  if fld w 27 1 = 0 then zeroed (fld w 31 1) (.ldn (a3 w) (bits w 28 3))
  else zeroed (fld w 31 1) (.stn (a3 w) (bits w 28 3))

/-- A space (major 10). -/
def dec10 (w : Nat) : Except DecodeError Instr :=
  if fld w 13 1 = 0 then .ok (.lda (bits w 7 6) (bits w 14 3) (bits w 17 15))
  else .ok (.sta (bits w 7 6) (bits w 14 3) (bits w 17 15))

/-- G space (major 12). A prefetch has d = z, plain order and size V (R34). -/
def dec12 (w : Nat) : Except DecodeError Instr :=
  match fld w 20 2 with
  | 0 => .ok (.ldg (a2 w) (bits w 22 3) (bits w 25 2) (bits w 27 3) (bits w 30 2))
  | 1 => .ok (.stg (a2 w) (bits w 22 3) (bits w 25 2) (bits w 27 3) (bits w 30 2))
  | 2 =>
    if fld w 7 6 = 60 ∧ fld w 22 5 = 4 then .ok (.pfg (a1 w) (bits w 27 3) (bits w 30 2))
    else .error .illegalField
  | _ => .error .illegalField

/-- H space (major 13). -/
def dec13 (w : Nat) : Except DecodeError Instr :=
  if fld w 20 1 = 0 then zeroed (fld w 26 6) (.ldh (a2 w) (bits w 21 3) (bits w 24 2))
  else zeroed (fld w 26 6) (.sth (a2 w) (bits w 21 3) (bits w 24 2))

/-- Major 20 (R35). -/
def dec20 (p : Option Pfx) (w : Nat) : Except DecodeError Instr :=
  match fld w 29 3 with
  | 0 => .ok (.vadd (vop p w))
  | 1 => .ok (.vsub (vop p w))
  | 2 => .ok (.vmul (vop p w))
  | 3 => .ok (.vfma (vop p w))
  | 4 => .ok (.vfms (vop p w))
  | 5 => .ok (.vfnma (vop p w))
  | 6 => .ok (.vmin (vop p w))
  | _ => .ok (.vmax (vop p w))

/-- Major 21 (R35). -/
def dec21 (p : Option Pfx) (w : Nat) : Except DecodeError Instr :=
  match fld w 29 3 with
  | 0 => .ok (.vminn (vop p w))
  | 1 => .ok (.vmaxn (vop p w))
  | 2 => .ok (.vabs (vop p w))
  | 3 => .ok (.vneg (vop p w))
  | 4 => .ok (.vand (vop p w))
  | 5 => .ok (.vor (vop p w))
  | 6 => .ok (.vxor (vop p w))
  | _ => .ok (.vshl (vop p w))

/-- Major 22 (R35). -/
def dec22 (p : Option Pfx) (w : Nat) : Except DecodeError Instr :=
  match fld w 29 3 with
  | 0 => .ok (.vceq (vop p w))
  | 1 => .ok (.vcne (vop p w))
  | 2 => .ok (.vclt (vop p w))
  | 3 => .ok (.vcle (vop p w))
  | 4 => .ok (.vsel (vop p w))
  | 5 => .ok (.vshr (vop p w))
  | 6 => .ok (.vsra (vop p w))
  | _ => .ok (.vclass (vop p w))

/-- Major 23 (R35). -/
def dec23 (p : Option Pfx) (w : Nat) : Except DecodeError Instr :=
  match fld w 29 3 with
  | 0 => .ok (.vcvt (vop p w))
  | 1 => .ok (.vmov (vop p w))
  | 2 => .ok (.vbcast (vop p w))
  | 3 => .ok (.vext (vop p w))
  | 4 => .ok (.vins (vop p w))
  | 5 => .ok (.vslide (vop p w))
  | 6 => .ok (.vperm (vop p w))
  | _ => .ok (.vidx (vop p w))

/-- Major 24 (R35). -/
def dec24 (p : Option Pfx) (w : Nat) : Except DecodeError Instr :=
  match fld w 29 3 with
  | 0 => .ok (.vreda (vop p w))
  | 1 => .ok (.vredx (vop p w))
  | 2 => .ok (.vredn (vop p w))
  | 3 => .ok (.vscan (vop p w))
  | 4 => .ok (.vlrs (vop p w))
  | 5 => .ok (.tlrs (vop p w))
  | 6 => .ok (.tema (vop p w))
  | _ => .ok (.vdot (vop p w))

/-- Major 25 (R35). -/
def dec25 (p : Option Pfx) (w : Nat) : Except DecodeError Instr :=
  match fld w 29 3 with
  | 0 => .ok (.vrcp (vop p w))
  | 1 => .ok (.vrsq (vop p w))
  | 2 => .ok (.vsqrt (vop p w))
  | 3 => .ok (.vexp2 (vop p w))
  | 4 => .ok (.vlog2 (vop p w))
  | 5 => .ok (.vtanh (vop p w))
  | 6 => .ok (.vsigm (vop p w))
  | _ => .ok (.vdiv (vop p w))

/-- Major 26 (R35, R225, R240). -/
def dec26 (p : Option Pfx) (w : Nat) : Except DecodeError Instr :=
  match fld w 29 3 with
  | 0 =>
    if fld w 17 1 = 0 then
      zeroed (fld w 12 1 + fld w 18 11) (.vfwd p (bits w 15 2) (bits w 13 2) (bits w 7 5))
    else zeroed (fld w 12 5 + fld w 18 11) (.vfwdArm p (bits w 7 5))
  | 1 => zeroed (fld w 7 22) (.vnop p)
  | 2 => .ok (.mand (vop p w))
  | 3 => .ok (.mor (vop p w))
  | 4 => .ok (.mxor (vop p w))
  | 5 => .ok (.mnot (vop p w))
  | 6 => .ok (.mpop (vop p w))
  | _ => .ok (.mset (vop p w))

/-- A vector word, with the prefix before it if there is one. -/
def decodeVector (p : Option Pfx) (w : Nat) : Except DecodeError Instr :=
  match fld w 2 5 with
  | 20 => dec20 p w
  | 21 => dec21 p w
  | 22 => dec22 p w
  | 23 => dec23 p w
  | 24 => dec24 p w
  | 25 => dec25 p w
  | 26 => dec26 p w
  | _ => .error .badFollower

/-- A 32-bit word without a prefix (R35). -/
def decodeWord (w : Nat) : Except DecodeError Instr :=
  match fld w 2 5 with
  | 0 => dec0 w
  | 1 => dec1 w
  | 2 => dec2 w
  | 3 => .ok (.li (bits w 7 6) (bits w 13 19))
  | 4 => .ok (.liu (bits w 7 6) (bits w 13 19))
  | 5 => dec5 w
  | 6 => .ok (.jal (bits w 7 6) (bits w 13 19))
  | 7 => dec7 w
  | 8 => dec8 w
  | 9 => dec9 w
  | 10 => dec10 w
  | 11 => .ok (.ldk (bits w 7 6) (bits w 13 3) (bits w 16 16))
  | 12 => dec12 w
  | 13 => dec13 w
  | 14 => dec14 w
  | 15 => dec15 w
  | 16 => dec16 w
  | 17 => dec17 w
  | 18 => dec18 w
  | 19 => dec19 w
  | 20 => dec20 none w
  | 21 => dec21 none w
  | 22 => dec22 none w
  | 23 => dec23 none w
  | 24 => dec24 none w
  | 25 => dec25 none w
  | 26 => dec26 none w
  | _ => .error .reservedMajor

/-- A prefix word and the 32-bit word after it (R22): bits [31:23] of the prefix are 0. -/
def decodePair (x w : Nat) : Except DecodeError Instr :=
  match decodeVector (some (pfxOf x)) w with
  | .ok i => if fld x 23 9 = 0 then .ok i else .error .mustBeZero
  | .error e => .error e

/-- Quadrant 00 (R36, R37). -/
def decQ0 (h : Nat) : Except DecodeError Instr :=
  match fld h 2 4 with
  | 0 => zeroed (fld h 15 1) (.cAdd (bits h 6 3) (bits h 9 3) (bits h 12 3))
  | 1 => zeroed (fld h 15 1) (.cSub (bits h 6 3) (bits h 9 3) (bits h 12 3))
  | 2 => zeroed (fld h 15 1) (.cAnd (bits h 6 3) (bits h 9 3) (bits h 12 3))
  | 3 => zeroed (fld h 15 1) (.cOr (bits h 6 3) (bits h 9 3) (bits h 12 3))
  | 4 => zeroed (fld h 15 1) (.cXor (bits h 6 3) (bits h 9 3) (bits h 12 3))
  | 5 => zeroed (fld h 12 4) (.cMov (bits h 6 3) (bits h 9 3))
  | 6 => .ok (.cAddi (bits h 6 3) (bits h 9 3) (bits h 12 4))
  | 7 => .ok (.cShli (bits h 6 3) (bits h 9 3) (bits h 12 4))
  | 8 => .ok (.cShri (bits h 6 3) (bits h 9 3) (bits h 12 4))
  | 9 => zeroed (fld h 15 1) (.cSlt (bits h 6 3) (bits h 9 3) (bits h 12 3))
  | 10 => .ok (.cLi (bits h 6 3) (bits h 9 7))
  | _ => .error .reservedCompact

/-- Quadrant 01. -/
def decQ1 (h : Nat) : Except DecodeError Instr :=
  match fld h 2 3 with
  | 0 => zeroed (fld h 15 1) (.cLdsD (bits h 5 3) (bits h 8 3) (bits h 11 4))
  | 1 => zeroed (fld h 15 1) (.cStsD (bits h 5 3) (bits h 8 3) (bits h 11 4))
  | 2 => zeroed (fld h 15 1) (.cLdsW (bits h 5 3) (bits h 8 3) (bits h 11 4))
  | 3 => zeroed (fld h 15 1) (.cStsW (bits h 5 3) (bits h 8 3) (bits h 11 4))
  | 4 => .ok (.cLdaD (bits h 5 3) (bits h 8 8))
  | 5 => .ok (.cStaD (bits h 5 3) (bits h 8 8))
  | 6 => zeroed (fld h 15 1) (.cBz (bits h 5 3) (bits h 8 7))
  | _ => zeroed (fld h 15 1) (.cBnz (bits h 5 3) (bits h 8 7))

/-- Quadrant 10. -/
def decQ2 (h : Nat) : Except DecodeError Instr :=
  match fld h 2 4 with
  | 0 => zeroed (fld h 6 10) .cNop
  | 1 => zeroed (fld h 6 10) .cRet
  | 2 => zeroed (fld h 6 10) .cExit
  | 3 => zeroed (fld h 6 10) .cYield
  | 4 => zeroed (fld h 6 10) .cDone
  | 5 => zeroed (fld h 9 7) (.cJr (bits h 6 3))
  | 15 => zeroed (fld h 6 10) .cBkpt
  | _ => .error .reservedCompact

/-- A compact word (R36, R37). The halfword 0x0000 is not an instruction (R21). -/
def decodeCompact (h : Nat) : Except DecodeError Instr :=
  if h = 0 then .error .zeroHalfword
  else
    match fld h 0 2 with
    | 0 => decQ0 h
    | 1 => decQ1 h
    | _ => decQ2 h

/-- Whether the halfwords read so far leave the instruction unfinished (R20, R22): a first halfword
with bits [1:0] = 11 has a second; a word of major 31 is a prefix, and the halfword after it says
whether one or two halfwords follow. -/
def needsMore (hs : List Nat) : Bool :=
  match hs with
  | [] => true
  | [h] => fld h 0 2 == 3
  | [h, _] => fld h 0 2 == 3 && fld h 2 5 == 31
  | [h, _, g] => fld h 0 2 == 3 && fld h 2 5 == 31 && fld g 0 2 == 3
  | _ => false

/-- The value TRAP_INFO reports for an illegal pattern (R39): the halfwords from the lowest bits up. -/
def joinHalves (hs : List Nat) : Nat :=
  match hs with
  | [] => 0
  | h :: t => h + 65536 * joinHalves t

/-- The instruction, if its fields are legal. -/
def checkWf (r : Except DecodeError Instr) : Except DecodeError Instr :=
  match r with
  | .ok i => if i.wf then .ok i else .error .illegalField
  | .error e => .error e

/-- Decoding of the halfwords of one instruction, exactly as many as `needsMore` asks for. -/
def decode (hs : List Nat) : Except DecodeError Instr :=
  match hs with
  | [] => .error .truncated
  | [h] => if fld h 0 2 = 3 then .error .truncated else checkWf (decodeCompact h)
  | [l, h] => if fld l 0 2 = 3 then checkWf (decodeWord (l + 65536 * h)) else .error .truncated
  | [_, _, _] => .error .badFollower
  | l :: h :: l2 :: h2 :: _ => checkWf (decodePair (l + 65536 * h) (l2 + 65536 * h2))

/-- The shortest start of a stream of halfwords that is a whole instruction. -/
def firstInstr : List Nat → List Nat → List Nat
  | pre, [] => pre
  | pre, h :: t => if needsMore pre then firstInstr (pre ++ [h]) t else pre

/-- The halfwords of a list of bytes, low byte first (R20). -/
def halvesOfBytes : List (BitVec 8) → List Nat
  | lo :: hi :: t => (lo.toNat + 256 * hi.toNat) :: halvesOfBytes t
  | _ => []

/-- Decoding of any bytes: the first instruction in them. -/
def decodeBytes (bs : List (BitVec 8)) : Except DecodeError Instr :=
  let hs := firstInstr [] (halvesOfBytes bs)
  if needsMore hs then .error .truncated else decode hs

/-! ### The encoder -/

/-- Format A (R30). -/
def encA (major fn d a b pa pb : Nat) : Nat :=
  3 + 4 * major + 128 * d + 8192 * pa + 16384 * a + 1048576 * pb + 2097152 * b + 134217728 * fn

/-- Format A with all operands. -/
def encA3 (major fn : Nat) (x : A3) : Nat :=
  encA major fn x.d.toNat x.a.toNat x.b.toNat x.pa.toNat x.pb.toNat

/-- Format A with d and a, and b as a code. -/
def encA2 (major fn b : Nat) (x : A2) : Nat :=
  encA major fn x.d.toNat x.a.toNat b x.pa.toNat 0

/-- Format A with a and b, and d as a code. -/
def encAB (major fn d : Nat) (x : AB) : Nat :=
  encA major fn d x.a.toNat x.b.toNat x.pa.toNat x.pb.toNat

/-- Format A with a, and d and b as codes. -/
def encA1 (major fn d b : Nat) (x : A1) : Nat :=
  encA major fn d x.a.toNat b x.pa.toNat 0

/-- Format I (R30). -/
def encI (fn : Nat) (x : A2) (imm : Nat) : Nat :=
  3 + 4 * 2 + 128 * x.d.toNat + 8192 * x.pa.toNat + 16384 * x.a.toNat + 1048576 * fn + 8388608 * imm

/-- Formats U and JL (R30). -/
def encU (major : Nat) (d : BitVec 6) (imm : BitVec 19) : Nat :=
  3 + 4 * major + 128 * d.toNat + 8192 * imm.toNat

/-- Format BR (R30). -/
def encBR (cond : Nat) (x : A1) (off : BitVec 15) : Nat :=
  3 + 4 * 5 + 128 * x.a.toNat + 8192 * x.pa.toNat + 16384 * cond + 131072 * off.toNat

/-- Format Ms (R33). -/
def encMs (st : Nat) (x : A2) (size off : Nat) : Nat :=
  3 + 4 * 8 + 128 * x.d.toNat + 8192 * x.pa.toNat + 16384 * x.a.toNat + 1048576 * st
    + 2097152 * size + 16777216 * off

/-- Format Mn (R33). -/
def encMn (st : Nat) (x : A3) (size : BitVec 3) : Nat :=
  3 + 4 * 9 + 128 * x.d.toNat + 8192 * x.pa.toNat + 16384 * x.a.toNat + 1048576 * x.pb.toNat
    + 2097152 * x.b.toNat + 134217728 * st + 268435456 * size.toNat

/-- Format Ma (R33). -/
def encMa (st : Nat) (d : BitVec 6) (size : BitVec 3) (off : BitVec 15) : Nat :=
  3 + 4 * 10 + 128 * d.toNat + 8192 * st + 16384 * size.toNat + 131072 * off.toNat

/-- Format Mk (R33). -/
def encMk (d : BitVec 6) (size : BitVec 3) (off : BitVec 16) : Nat :=
  3 + 4 * 11 + 128 * d.toNat + 8192 * size.toNat + 65536 * off.toNat

/-- Format Mg (R33). -/
def encMg (op : Nat) (x : A2) (size ord scope pol : Nat) : Nat :=
  3 + 4 * 12 + 128 * x.d.toNat + 8192 * x.pa.toNat + 16384 * x.a.toNat + 1048576 * op
    + 4194304 * size + 33554432 * ord + 134217728 * scope + 1073741824 * pol

/-- Format Mh (R33). -/
def encMh (st : Nat) (x : A2) (size : BitVec 3) (ord : BitVec 2) : Nat :=
  3 + 4 * 13 + 128 * x.d.toNat + 8192 * x.pa.toNat + 16384 * x.a.toNat + 1048576 * st
    + 2097152 * size.toNat + 16777216 * ord.toNat

/-- Format At (R33): m is 0 for major 14 and 1 for major 15. -/
def encAt (major op : Nat) (x : A3) (dw : Bool) : Nat :=
  3 + 4 * major + 128 * x.d.toNat + 8192 * x.pa.toNat + 16384 * x.a.toNat + 1048576 * x.pb.toNat
    + 2097152 * x.b.toNat + 134217728 * op + 2147483648 * dw.toNat

/-- The prefix word (R30 format X). -/
def encX (p : Pfx) : Nat :=
  3 + 4 * 31 + 128 * p.m.toNat + 1024 * p.men.toNat + 2048 * p.zero.toNat + 4096 * p.rnd.toNat
    + 32768 * p.c.toNat + 2097152 * p.pc.toNat + 4194304 * p.sat.toNat

/-- A 32-bit word as two halfwords, low first (R20). -/
def halves (w : Nat) : List Nat := [w % 65536, w / 65536]

/-- A vector word after its prefix, if there is one (R22). -/
def withPfx (p : Option Pfx) (w : Nat) : List Nat :=
  match p with
  | none => halves w
  | some q => halves (encX q) ++ halves w

/-- Format V (R30). -/
def encV (major fn : Nat) (x : VOp) : List Nat :=
  withPfx x.pfx (3 + 4 * major + 128 * x.vd.toNat + 4096 * x.pa.toNat + 8192 * x.a.toNat
    + 524288 * x.pb.toNat + 1048576 * x.b.toNat + 67108864 * x.ty.toNat + 536870912 * fn)

/-- Quadrant 00 with registers or a four-bit immediate in [15:12] (R36). -/
def encQ0 (op d a b : Nat) : List Nat := [4 * op + 64 * d + 512 * a + 4096 * b]

/-- Quadrant 01, scratchpad form (R36). -/
def encQ1 (op : Nat) (d a : BitVec 3) (off : BitVec 4) : List Nat :=
  [1 + 4 * op + 32 * d.toNat + 256 * a.toNat + 2048 * off.toNat]

/-- The halfwords of an instruction. The steps of the machine have none. -/
def encode (i : Instr) : List Nat :=
  match i with
  | .add x => halves (encA3 0 0 x)
  | .sub x => halves (encA3 0 1 x)
  | .mul x => halves (encA3 0 2 x)
  | .mulh x => halves (encA3 0 3 x)
  | .mulhn x => halves (encA3 0 4 x)
  | .div x => halves (encA3 0 5 x)
  | .divn x => halves (encA3 0 6 x)
  | .rem x => halves (encA3 0 7 x)
  | .remn x => halves (encA3 0 8 x)
  | .and x => halves (encA3 0 9 x)
  | .or x => halves (encA3 0 10 x)
  | .xor x => halves (encA3 0 11 x)
  | .andn x => halves (encA3 0 12 x)
  | .orn x => halves (encA3 0 13 x)
  | .shl x => halves (encA3 0 14 x)
  | .shr x => halves (encA3 0 15 x)
  | .sra x => halves (encA3 0 16 x)
  | .rot x => halves (encA3 0 17 x)
  | .min x => halves (encA3 0 18 x)
  | .max x => halves (encA3 0 19 x)
  | .minn x => halves (encA3 0 20 x)
  | .maxn x => halves (encA3 0 21 x)
  | .seq x => halves (encA3 0 22 x)
  | .sne x => halves (encA3 0 23 x)
  | .slt x => halves (encA3 0 24 x)
  | .sltn x => halves (encA3 0 25 x)
  | .sle x => halves (encA3 0 26 x)
  | .slen x => halves (encA3 0 27 x)
  | .addw x => halves (encA3 0 28 x)
  | .subw x => halves (encA3 0 29 x)
  | .lea x => halves (encA3 0 30 x)
  | .leaw x => halves (encA3 0 31 x)
  | .clz x => halves (encA2 1 0 0 x)
  | .ctz x => halves (encA2 1 1 0 x)
  | .popc x => halves (encA2 1 2 0 x)
  | .brev x => halves (encA2 1 3 0 x)
  | .abs x => halves (encA2 1 4 0 x)
  | .neg x => halves (encA2 1 5 0 x)
  | .sxtb x => halves (encA2 1 6 0 x)
  | .sxth x => halves (encA2 1 7 0 x)
  | .sxtw x => halves (encA2 1 8 0 x)
  | .zxtb x => halves (encA2 1 9 0 x)
  | .zxth x => halves (encA2 1 10 0 x)
  | .zxtw x => halves (encA2 1 11 0 x)
  | .addi x imm => halves (encI 0 x imm.toNat)
  | .andi x imm => halves (encI 1 x imm.toNat)
  | .ori x imm => halves (encI 2 x imm.toNat)
  | .xori x imm => halves (encI 3 x imm.toNat)
  | .slti x imm => halves (encI 4 x imm.toNat)
  | .shli x n => halves (encI 5 x n.toNat)
  | .shri x n => halves (encI 6 x n.toNat)
  | .srai x n => halves (encI 7 x n.toNat)
  | .li d imm => halves (encU 3 d imm)
  | .liu d imm => halves (encU 4 d imm)
  | .bz x off => halves (encBR 0 x off)
  | .bnz x off => halves (encBR 1 x off)
  | .bltz x off => halves (encBR 2 x off)
  | .bgez x off => halves (encBR 3 x off)
  | .blez x off => halves (encBR 4 x off)
  | .bgtz x off => halves (encBR 5 x off)
  | .bodd x off => halves (encBR 6 x off)
  | .bloop x off => halves (encBR 7 x off)
  | .jal d off => halves (encU 6 d off)
  | .jr x => halves (encA1 7 0 0 0 x)
  | .jalr x => halves (encA2 7 1 0 x)
  | .trap code => halves (encA 7 2 0 0 code.toNat 0 0)
  | .eret => halves (encA 7 3 0 0 0 0 0)
  | .crdBank0 n d => halves (encA 7 4 d.toNat 0 n.toNat 0 0)
  | .crdBank1 n d => halves (encA 7 5 d.toNat 0 n.toNat 0 0)
  | .cwrBank0 n x => halves (encA1 7 6 0 n.toNat x)
  | .cwrBank1 n x => halves (encA1 7 7 0 n.toNat x)
  | .fenceAcq scope => halves (encA 7 8 0 0 scope.toNat 0 0)
  | .fenceRel scope => halves (encA 7 8 0 1 scope.toNat 0 0)
  | .fenceFull scope => halves (encA 7 8 0 2 scope.toNat 0 0)
  | .drainst => halves (encA 7 9 0 0 0 0 0)
  | .icinv scope x => halves (encAB 7 10 scope.toNat x)
  | .fencesp x => halves (encA1 7 11 0 0 x)
  | .susp x => halves (encA1 7 12 0 0 x)
  | .yield => halves (encA 7 13 0 0 0 0 0)
  | .exit => halves (encA 7 14 0 0 0 0 0)
  | .nop => halves (encA 7 15 0 0 0 0 0)
  | .bkpt => halves (encA 7 16 0 0 0 0 0)
  | .halt => halves (encA 7 17 0 0 0 0 0)
  | .spawn x => halves (encAB 7 18 0 x)
  | .ext x => halves (encA2 7 19 0 x)
  | .ins x => halves (encA2 7 20 0 x)
  | .lds x size off => halves (encMs 0 x size.toNat off.toNat)
  | .sts x size off => halves (encMs 1 x size.toNat off.toNat)
  | .pushs d => halves (encMs 1 ⟨d, 0, false⟩ 7 0)
  | .pops d => halves (encMs 0 ⟨d, 0, false⟩ 7 0)
  | .ldn x size => halves (encMn 0 x size)
  | .stn x size => halves (encMn 1 x size)
  | .lda d size off => halves (encMa 0 d size off)
  | .sta d size off => halves (encMa 1 d size off)
  | .ldk d size off => halves (encMk d size off)
  | .ldg x size ord scope pol => halves (encMg 0 x size.toNat ord.toNat scope.toNat pol.toNat)
  | .stg x size ord scope pol => halves (encMg 1 x size.toNat ord.toNat scope.toNat pol.toNat)
  | .pfg x scope pol => halves (encMg 2 ⟨60, x.a, x.pa⟩ 4 0 scope.toNat pol.toNat)
  | .ldh x size ord => halves (encMh 0 x size ord)
  | .sth x size ord => halves (encMh 1 x size ord)
  | .aadd x dw => halves (encAt 14 0 x dw)
  | .aand x dw => halves (encAt 14 1 x dw)
  | .aor x dw => halves (encAt 14 2 x dw)
  | .axor x dw => halves (encAt 14 3 x dw)
  | .amin x dw => halves (encAt 14 4 x dw)
  | .amax x dw => halves (encAt 14 5 x dw)
  | .aminn x dw => halves (encAt 14 6 x dw)
  | .amaxn x dw => halves (encAt 14 7 x dw)
  | .axchg x dw => halves (encAt 14 8 x dw)
  | .acas x dw => halves (encAt 14 9 x dw)
  | .afadd x => halves (encAt 14 10 x false)
  | .aaddAr x dw => halves (encAt 15 0 x dw)
  | .aandAr x dw => halves (encAt 15 1 x dw)
  | .aorAr x dw => halves (encAt 15 2 x dw)
  | .axorAr x dw => halves (encAt 15 3 x dw)
  | .aminAr x dw => halves (encAt 15 4 x dw)
  | .amaxAr x dw => halves (encAt 15 5 x dw)
  | .aminnAr x dw => halves (encAt 15 6 x dw)
  | .amaxnAr x dw => halves (encAt 15 7 x dw)
  | .axchgAr x dw => halves (encAt 15 8 x dw)
  | .acasAr x dw => halves (encAt 15 9 x dw)
  | .afaddAr x => halves (encAt 15 10 x false)
  | .waitne x => halves (encA3 16 0 x)
  | .waiteq x => halves (encA3 16 1 x)
  | .waitge x => halves (encA3 16 2 x)
  | .jwait x => halves (encA2 16 3 0 x)
  | .jtest x => halves (encA2 16 4 0 x)
  | .joininit x => halves (encA3 16 5 x)
  | .joindec x => halves (encAB 16 6 0 x)
  | .capb x => halves (encA2 16 7 0 x)
  | .caps d => halves (encA 16 8 d.toNat 0 0 0 0)
  | .cape x => halves (encA2 16 9 0 x)
  | .capa x => halves (encA2 16 10 0 x)
  | .capr x => halves (encA3 16 11 x)
  | .capq x => halves (encA2 16 12 0 x)
  | .send x => halves (encAB 17 0 0 x)
  | .sendc x => halves (encA3 17 1 x)
  | .done => halves (encA 17 2 0 0 0 0 0)
  | .enq x => halves (encAB 17 3 60 x)
  | .enqAck x => halves (encA3 17 3 x)
  | .deq x => halves (encA3 17 4 x)
  | .psend x => halves (encAB 17 5 0 x)
  | .precv x => halves (encA3 17 6 x)
  | .eos x => halves (encA1 17 7 0 0 x)
  | .mcast x => halves (encAB 17 8 0 x)
  | .netrx x => halves (encA2 17 9 0 x)
  | .fwd x dir slot => halves (encA2 17 10 (4 * dir.toNat + slot.toNat) x)
  | .fwdArm d => halves (encA 17 10 d.toNat 0 16 0 0)
  | .launch x => halves (encAB 17 11 0 x)
  | .ackw x => halves (encA2 17 12 0 x)
  | .tdef n x => halves (encA1 18 0 0 n.toNat x)
  | .trel n => halves (encA 18 1 0 0 n.toNat 0 0)
  | .tstat n d => halves (encA 18 2 d.toNat 0 n.toNat 0 0)
  | .cpyj n x => halves (encA2 18 3 n.toNat x)
  | .cpyjSt n x => halves (encA2 18 3 (32 + n.toNat) x)
  | .cpyq n x => halves (encA2 18 4 n.toNat x)
  | .mxqF32 a b => halves (encA 18 5 0 a.toNat b.toNat 0 0)
  | .mxqI32 a b => halves (encA 18 5 1 a.toNat b.toNat 0 0)
  | .mxdrStF32 x => halves (encA1 18 6 0 0 x)
  | .mxdrAddF32 x => halves (encA1 18 6 0 1 x)
  | .mxdrStI32 x => halves (encA1 18 6 1 0 x)
  | .mxdrAddI32 x => halves (encA1 18 6 1 1 x)
  | .mxz => halves (encA 18 7 0 0 0 0 0)
  | .audx => halves (encA 18 8 0 0 0 0 0)
  | .xmov j x => halves (encA1 19 0 j.toNat 0 x)
  | .xget j d => halves (encA 19 1 d.toNat 0 j.toNat 0 0)
  | .xclr => halves (encA 19 2 0 0 0 0 0)
  | .vadd x => encV 20 0 x
  | .vsub x => encV 20 1 x
  | .vmul x => encV 20 2 x
  | .vfma x => encV 20 3 x
  | .vfms x => encV 20 4 x
  | .vfnma x => encV 20 5 x
  | .vmin x => encV 20 6 x
  | .vmax x => encV 20 7 x
  | .vminn x => encV 21 0 x
  | .vmaxn x => encV 21 1 x
  | .vabs x => encV 21 2 x
  | .vneg x => encV 21 3 x
  | .vand x => encV 21 4 x
  | .vor x => encV 21 5 x
  | .vxor x => encV 21 6 x
  | .vshl x => encV 21 7 x
  | .vceq x => encV 22 0 x
  | .vcne x => encV 22 1 x
  | .vclt x => encV 22 2 x
  | .vcle x => encV 22 3 x
  | .vsel x => encV 22 4 x
  | .vshr x => encV 22 5 x
  | .vsra x => encV 22 6 x
  | .vclass x => encV 22 7 x
  | .vcvt x => encV 23 0 x
  | .vmov x => encV 23 1 x
  | .vbcast x => encV 23 2 x
  | .vext x => encV 23 3 x
  | .vins x => encV 23 4 x
  | .vslide x => encV 23 5 x
  | .vperm x => encV 23 6 x
  | .vidx x => encV 23 7 x
  | .vreda x => encV 24 0 x
  | .vredx x => encV 24 1 x
  | .vredn x => encV 24 2 x
  | .vscan x => encV 24 3 x
  | .vlrs x => encV 24 4 x
  | .tlrs x => encV 24 5 x
  | .tema x => encV 24 6 x
  | .vdot x => encV 24 7 x
  | .vrcp x => encV 25 0 x
  | .vrsq x => encV 25 1 x
  | .vsqrt x => encV 25 2 x
  | .vexp2 x => encV 25 3 x
  | .vlog2 x => encV 25 4 x
  | .vtanh x => encV 25 5 x
  | .vsigm x => encV 25 6 x
  | .vdiv x => encV 25 7 x
  | .vfwd p dir slot vd => withPfx p (107 + 128 * vd.toNat + 8192 * (4 * dir.toNat + slot.toNat))
  | .vfwdArm p vd => withPfx p (107 + 128 * vd.toNat + 131072)
  | .vnop p => withPfx p (107 + 536870912)
  | .mand x => encV 26 2 x
  | .mor x => encV 26 3 x
  | .mxor x => encV 26 4 x
  | .mnot x => encV 26 5 x
  | .mpop x => encV 26 6 x
  | .mset x => encV 26 7 x
  | .cAdd d a b => encQ0 0 d.toNat a.toNat b.toNat
  | .cSub d a b => encQ0 1 d.toNat a.toNat b.toNat
  | .cAnd d a b => encQ0 2 d.toNat a.toNat b.toNat
  | .cOr d a b => encQ0 3 d.toNat a.toNat b.toNat
  | .cXor d a b => encQ0 4 d.toNat a.toNat b.toNat
  | .cMov d a => encQ0 5 d.toNat a.toNat 0
  | .cAddi d a imm => encQ0 6 d.toNat a.toNat imm.toNat
  | .cShli d a imm => encQ0 7 d.toNat a.toNat imm.toNat
  | .cShri d a imm => encQ0 8 d.toNat a.toNat imm.toNat
  | .cSlt d a b => encQ0 9 d.toNat a.toNat b.toNat
  | .cLi d imm => [4 * 10 + 64 * d.toNat + 512 * imm.toNat]
  | .cLdsD d a off => encQ1 0 d a off
  | .cStsD d a off => encQ1 1 d a off
  | .cLdsW d a off => encQ1 2 d a off
  | .cStsW d a off => encQ1 3 d a off
  | .cLdaD d off => [1 + 4 * 4 + 32 * d.toNat + 256 * off.toNat]
  | .cStaD d off => [1 + 4 * 5 + 32 * d.toNat + 256 * off.toNat]
  | .cBz a off => [1 + 4 * 6 + 32 * a.toNat + 256 * off.toNat]
  | .cBnz a off => [1 + 4 * 7 + 32 * a.toNat + 256 * off.toNat]
  | .cNop => [2 + 4 * 0]
  | .cRet => [2 + 4 * 1]
  | .cExit => [2 + 4 * 2]
  | .cYield => [2 + 4 * 3]
  | .cDone => [2 + 4 * 4]
  | .cJr a => [2 + 4 * 5 + 64 * a.toNat]
  | .cBkpt => [2 + 4 * 15]
  | .storeFault => []
  | .storeFaultRecordArrival => []
  | .instructionFetch => []
  | .longLatencyResult => []
  | .sfuEntryComplete => []
  | .recurrenceComplete => []
  | .forwardLand => []
  | .multicastFork => []
  | .residueBranchSend => []
  | .occupancyPropagate => []
  | .messageInject => []
  | .spawnPlace => []
  | .flowMessageArrival => []
  | .heapProbeDone => []
  | .activationComplete => []
  | .evictionWritebackDone => []
  | .inputQueueCreditReturn => []
  | .waystationFull => []
  | .remoteMessageArrival => []
  | .handlerStart => []
  | .twinItem => []
  | .compareWindow => []
  | .dispatch => []
  | .swapDelay => []
  | .swapOut => []
  | .strandResume => []
  | .drainLimit => []
  | .forcedSave => []
  | .teamRestore => []
  | .copyJobComplete => []
  | .matrixRound => []
  | .mxqComplete => []
  | .mxdrRowsTaken => []
  | .auditSampleComplete => []
  | .auditDeadline => []
  | .postedWriteAtOwner => []
  | .dieViewUpdate => []
  | .sliceWriteback => []
  | .refreshMarker => []
  | .atomicPerform => []
  | .waitReply => []
  | .counterMessage => []
  | .enqRecordArrival => []
  | .enqAckArrival => []
  | .vc3CreditReturn => []
  | .pipeItemArrival => []
  | .pipeCreditReturn => []
  | .deadlock => []
  | .pageMove => []
  | .migrationPhaseEnd => []
  | .sramRebuildDone => []
  | .patrolScrub => []
  | .containment => []
  | .containmentResetDone => []
  | .cqTail => []
  | .cqBase => []
  | .hostRegisterWrite => []
  | .commandTake => []
  | .launchCommand => []
  | .leaseResidency => []
  | .teamStart => []
  | .messageCommand => []
  | .endCommand => []
  | .endDrainLimit => []
  | .powerCommand => []
  | .powerTransitionDone => []
  | .attestCommand => []
  | .coldStart => []
  | .warmStart => []
  | .startStep => []
  | .thermalTrip => []
  | .eventRingWrite => []
  | .hostRingDelivery => []
  | .uliWindow => []
  | .teamEnd => []
  | .launchEnded => []
  | .dbgHalt => []
  | .dbgResume => []
  | .dbgStep => []
  | .crossTrigger => []
  | .dbgStrandWrite => []
  | .traceDump => []
  | .traceSample => []
  | .hostAccessToDeviceMemory => []
  | .nSpaceAccessAtTarget => []
  | .writeAcknowledgement => []
  | .syncEngineOperation => []
  | .copyJobElementBlock => []
  | .icinvAcknowledgement => []
  | .cornerTimeout => []
  | .softError => []
  | .pseudoChannelLoss => []

/-- The bytes of an instruction, as the machine stores them (R20). -/
def bytesOfHalves : List Nat → List (BitVec 8)
  | [] => []
  | h :: t => BitVec.ofNat 8 (h % 256) :: BitVec.ofNat 8 (h / 256) :: bytesOfHalves t

/-- The first `n` halfwords of the number `w`, whose bits count on from the first halfword. -/
def halvesOfNat : Nat → Nat → List Nat
  | 0, _ => []
  | n + 1, w => w % 65536 :: halvesOfNat n (w / 65536)

/-- The bytes an instruction of `nbits` bits, numbered as the opcode table numbers them, lies in, with
zeros above it up to the longest instruction, 8 bytes. -/
def tableBytes (nbits w : Nat) : List (BitVec 8) :=
  bytesOfHalves (halvesOfNat 4 (w % 2 ^ nbits))

/-- What the decoder reads from an instruction whose bits are `w`. -/
def decodeTableWord (nbits w : Nat) : Option Instr :=
  match decodeBytes (tableBytes nbits w) with
  | .ok i => some i
  | .error _ => none

end Sys2Proof
end

