-- ==== Sys2Proof/Machine/Crypto.lean ====
section
/-! DEFINITION. The digests and signatures of a start and of attestation (R130 step 2, R132, R133): SM3 (GB/T 32905) and SM2
(GB/T 32918) on the recommended 256-bit curve. PRESUMED (log entry 47): the numbers of the two standards, which the manual names
and does not print. -/

namespace Sys2Proof.Machine

/-! ### SM3 -/

/-- The lower 32 bits. -/
def w32 (x : Nat) : Nat := x % 2 ^ 32

/-- A word of 32 bits turned left. -/
def rol32 (x n : Nat) : Nat := w32 (x * 2 ^ (n % 32)) + x / 2 ^ (32 - n % 32)

/-- The complement of a word of 32 bits. -/
def not32 (x : Nat) : Nat := 2 ^ 32 - 1 - x

/-- P_0 and P_1 of the standard. -/
def smP0 (x : Nat) : Nat := x ^^^ rol32 x 9 ^^^ rol32 x 17
def smP1 (x : Nat) : Nat := x ^^^ rol32 x 15 ^^^ rol32 x 23

/-- The words W_0 to W_67 of a block, the latest first. -/
def smExpand (b : List Nat) : List Nat :=
  (List.range 52).foldl (fun (l : List Nat) _ =>
    (smP1 (l.getD 15 0 ^^^ l.getD 8 0 ^^^ rol32 (l.getD 2 0) 15) ^^^ rol32 (l.getD 12 0) 7 ^^^ l.getD 5 0) :: l) b.reverse

/-- Round `j` of the compression on the words A to H, with W_j and W_(j + 4). -/
def smRound (v : List Nat) (x : Nat × Nat × Nat) : List Nat :=
  let j := x.1
  let r := fun (i : Nat) => v.getD i 0
  let t := if j < 16 then 0x79CC4519 else 0x7A879D8A
  let ff := if j < 16 then r 0 ^^^ r 1 ^^^ r 2 else (r 0 &&& r 1) ||| (r 0 &&& r 2) ||| (r 1 &&& r 2)
  let gg := if j < 16 then r 4 ^^^ r 5 ^^^ r 6 else (r 4 &&& r 5) ||| (not32 (r 4) &&& r 6)
  let ss1 := rol32 (w32 (rol32 (r 0) 12 + r 4 + rol32 t (j % 32))) 7
  let ss2 := ss1 ^^^ rol32 (r 0) 12
  let tt1 := w32 (ff + r 3 + ss2 + (x.2.1 ^^^ x.2.2))
  let tt2 := w32 (gg + r 7 + ss1 + x.2.1)
  [tt1, r 0, rol32 (r 1) 9, r 2, smP0 tt2, r 4, rol32 (r 5) 19, r 6]

/-- A block compressed into the chaining words. -/
def smBlock (v b : List Nat) : List Nat :=
  let w := (smExpand b).reverse
  let xs := (List.range 64).zip (w.zip (w.drop 4))
  List.zipWith (· ^^^ ·) (xs.foldl smRound v) v

/-- Bytes as words of 32 bits, the first byte highest. -/
def wordsBE : List Nat → List Nat
  | a :: b :: c :: d :: l => (a * 2 ^ 24 + b * 2 ^ 16 + c * 2 ^ 8 + d) :: wordsBE l
  | _ => []

/-- A number as `n` bytes, the highest first. -/
def bytesBE (n v : Nat) : List Nat := (List.range n).map (fun i => v / 256 ^ (n - 1 - i) % 256)

/-- Bytes as a number, the first highest. -/
def numBE (l : List Nat) : Nat := l.foldl (fun v b => 256 * v + b) 0

/-- Blocks of 16 words. -/
def smBlocks (w : List Nat) : List (List Nat) := (List.range (w.length / 16)).map (fun i => (w.drop (16 * i)).take 16)

/-- The SM3 digest of some bytes, as a number. -/
def sm3 (m : List Nat) : Nat :=
  let pad := (119 - m.length % 64) % 64
  let w := wordsBE (m ++ [0x80] ++ List.replicate pad 0 ++ bytesBE 8 (8 * m.length))
  let iv := [0x7380166F, 0x4914B2B9, 0x172442D7, 0xDA8A0600, 0xA96F30BC, 0x163138AA, 0xE38DEE4D, 0xB0FB0E4E]
  ((smBlocks w).foldl smBlock iv).foldl (fun v x => 2 ^ 32 * v + x) 0

/-! ### SM2 -/

/-- The curve: its field, its coefficients, the order and the base point. -/
def smp : Nat := 0xFFFFFFFEFFFFFFFFFFFFFFFFFFFFFFFFFFFFFFFF00000000FFFFFFFFFFFFFFFF
def sma : Nat := 0xFFFFFFFEFFFFFFFFFFFFFFFFFFFFFFFFFFFFFFFF00000000FFFFFFFFFFFFFFFC
def smb : Nat := 0x28E9FA9E9D9F5E344D5A9E4BCF6509A7F39789F515AB8F92DDBCBD414D940E93
def smn : Nat := 0xFFFFFFFEFFFFFFFFFFFFFFFFFFFFFFFF7203DF6B21C6052B53BBF40939D54123
def smgx : Nat := 0x32C4AE2C1F1981195F9904466A39C9948FE30BBFF2660BE1715A4589334C74C7
def smgy : Nat := 0xBC3736A2F4F6779C59BDCEE36B692153D0A9877CC62A474002DF32E52139F0A0

/-- A power modulo `m`, of an exponent of up to 256 bits. -/
def powMod (m a e : Nat) : Nat :=
  (List.range 256).foldr (fun i r => if e.testBit i then r * r % m * a % m else r * r % m) 1

/-- The inverse modulo a prime. -/
def invMod (m a : Nat) : Nat := powMod m (a % m) (m - 2)

/-- A point (x / z^2, y / z^3); z is 0 at infinity. -/
abbrev Point := Nat × Nat × Nat

/-- A point doubled. -/
def smDouble (q : Point) : Point :=
  let x := q.1
  let y := q.2.1
  let z := q.2.2
  let yy := y * y % smp
  let s := 4 * x * yy % smp
  let m := (3 * x * x + sma * (z * z % smp * (z * z % smp) % smp)) % smp
  let x1 := (m * m + 2 * (smp - s)) % smp
  (x1, (m * (s + (smp - x1)) + (smp - 8 * yy * yy % smp)) % smp, 2 * y * z % smp)

/-- The sum of two points. -/
def smAdd (p q : Point) : Point :=
  let z1 := p.2.2
  let z2 := q.2.2
  if z1 = 0 then q
  else if z2 = 0 then p
  else
    let u1 := p.1 * z2 * z2 % smp
    let u2 := q.1 * z1 * z1 % smp
    let s1 := p.2.1 * z2 * z2 * z2 % smp
    let s2 := q.2.1 * z1 * z1 * z1 % smp
    if u1 = u2 then (if s1 = s2 then smDouble p else (1, 1, 0))
    else
      let h := (u2 + (smp - u1)) % smp
      let r := (s2 + (smp - s1)) % smp
      let hh := h * h % smp
      let v := u1 * hh % smp
      let x := (r * r + (smp - h * hh % smp) + 2 * (smp - v)) % smp
      (x, (r * (v + (smp - x)) + (smp - s1 * h * hh % smp)) % smp, h * z1 * z2 % smp)

/-- A multiple of a point. -/
def smMul (k : Nat) (p : Point) : Point :=
  (List.range 256).foldr (fun i r => if k.testBit i then smAdd (smDouble r) p else smDouble r) (1, 1, 0)

/-- The coordinates of a point. -/
def smAffine (p : Point) : Nat × Nat :=
  let i := invMod smp p.2.2
  (p.1 * i * i % smp, p.2.1 * i * i * i % smp)

/-- The base point. -/
def smG : Point := (smgx, smgy, 1)

/-- Z_A of a public key, with the identifier of R133. -/
def smZ (x y : Nat) : Nat :=
  let ident := [0x31, 0x32, 0x33, 0x34, 0x35, 0x36, 0x37, 0x38, 0x31, 0x32, 0x33, 0x34, 0x35, 0x36, 0x37, 0x38]
  sm3 (bytesBE 2 128 ++ ident ++ [sma, smb, smgx, smgy, x, y].flatMap (bytesBE 32))

/-- What is signed of a message that is a digest (R133): SM3(Z_A ‖ M). -/
def smHash (x y m : Nat) : Nat := sm3 (bytesBE 32 (smZ x y) ++ bytesBE 32 m)

/-- Whether a signature of a digest holds for a public key (R133). -/
def smVerify (x y m r s : Nat) : Bool :=
  let t := (r + s) % smn
  let q := smAffine (smAdd (smMul s smG) (smMul t (x, y, 1)))
  decide (0 < r) && decide (r < smn) && decide (0 < s) && decide (s < smn) && t != 0
    && decide (x < smp) && decide (y < smp) && y * y % smp == (x * x * x + sma * x + smb) % smp
    && (smHash x y m + q.1) % smn == r

/-- The public key of a private key. -/
def smPublic (d : Nat) : Nat × Nat := smAffine (smMul d smG)

/-- The signature of a digest by a private key, with the first of some numbers that serves (R133). -/
def smSign (d m : Nat) (ks : List Nat) : Nat × Nat :=
  let q := smPublic d
  let e := smHash q.1 q.2 m
  let one := fun (k : Nat) =>
    let r := (e + (smAffine (smMul k smG)).1) % smn
    (r, invMod smn (1 + d) * (k + (smn - r * d % smn)) % smn, k)
  let ok := fun (v : Nat × Nat × Nat) => v.1 != 0 && v.1 + v.2.2 != smn && v.2.1 != 0
  match (ks.map one).find? ok with
  | some v => (v.1, v.2.1)
  | none => (0, 0)

/-! ### The image in the boot flash (R133) -/

/-- Bytes of a list from a place on. -/
def bytesAt (l : List Nat) (i n : Nat) : List Nat := (l.drop i).take n

/-- The digest of the body of a firmware image: N bytes behind its header of 256. -/
def imageDigest (f : List Nat) : Nat :=
  let n := (bytesAt f 0x80 8).foldr (fun b r => b + 256 * r) 0
  sm3 (bytesAt f 256 n)

/-- Whether an image holds its header and its body, is signed by its key, and the key has the fused digest. DEDUCED (log entry
58): an image whose header is not 0 where R133 has it 0 is refused too; R133 does not list that among the checks of step 2. -/
def imageGood (f : List Nat) (fused : Nat) : Bool :=
  let n := (bytesAt f 0x80 8).foldr (fun b r => b + 256 * r) 0
  decide (256 + n ≤ f.length) && (bytesAt f 0x88 0x78).all (· == 0) && sm3 (bytesAt f 0 64) == fused
    && smVerify (numBE (bytesAt f 0 32)) (numBE (bytesAt f 32 32)) (imageDigest f) (numBE (bytesAt f 64 32)) (numBE (bytesAt f 96 32))

/-- An image whose body is empty, signed with the private key 1, whose public key is the base point. -/
def emptyImage : List Nat :=
  bytesBE 32 smgx ++ bytesBE 32 smgy
    ++ bytesBE 32 114944857533460528805401501757907188093029768539253571247365093831735565985811
    ++ bytesBE 32 423615838447859975509421728056852336515927592852086660239357762278936530057
    ++ List.replicate 128 0

/-- The digest of the key of `emptyImage`. -/
def emptyKeyDigest : Nat := 24939250382507175752083072799416237290384799415126973411483425151740943022697

end Sys2Proof.Machine
end

