-- ==== Sys2Proof/Machine/State.lean ====
section
/-! DEFINITION. The state of the machine, all of it plain data, and the state after reset. -/

namespace Sys2Proof.Machine

/-- Faults of a run: no behaviour of the device is left unpredictable (R5), so no meaning raises one. -/
inductive Fault where
  /-- Raised by `step` alone: the schedule names an instruction word as a step of the machine's own, which
  is no schedule of this hardware. Safe: the model stops where it has no run to follow. -/
  | badSchedule
  deriving DecidableEq, Repr

/-- Refusals: an instruction whose meaning is not written. -/
inductive Refusal where
  /-- Raised by an arm of `exec` without a meaning. Safe: the model stops. -/
  | notModelled (mnemonic : String)
  deriving DecidableEq, Repr

/-- A fault tag (R259, R399): the cause and the address of the access that failed. -/
structure Tag where
  cause : Nat
  addr : Word
  deriving DecidableEq, Repr

/-- A g or k register: its value, its full/empty bit (R26), its forward mark (R237), whether a
long-latency producer is pending on it (R28), and the fault tag it holds (R399). -/
structure Reg where
  val : Word := 0
  full : Bool := true
  mark : Bool := false
  pend : Bool := false
  tag : Option Tag := none
  deriving DecidableEq, Repr

/-- A v register, as `Reg`. -/
structure VReg where
  val : Row := 0
  full : Bool := true
  mark : Bool := false
  pend : Bool := false
  tag : Option Tag := none
  deriving DecidableEq, Repr

/-- The two modes (R392). -/
inductive Mode where
  | launch
  | supervisor
  deriving DecidableEq, Repr

/-- What a strand was started as (R186, R262). -/
inductive Kind where
  | cont
  | handler
  | creator
  | boot
  | drover
  deriving DecidableEq, Repr

/-- The state of a slot while a strand holds it (R185): RUN, PARKED, or HALTED. -/
inductive RunState where
  | run
  | parked
  | halted
  deriving DecidableEq, Repr

/-- A store-fault record (R400). -/
structure SfRec where
  addr : Word
  data : Word
  info : Word
  deriving DecidableEq, Repr

/-- The capsule state of a strand (R369). -/
inductive CapMode where
  | none
  | opened
  | displaced
  deriving DecidableEq, Repr

/-- A store that a capsule step has buffered (R371): address, size in bytes, value. -/
structure BufStore where
  addr : Nat
  size : Nat
  val : Word
  deriving DecidableEq, Repr

/-- What is kept with the capsule state (R369): L, the ticket, the step index, the entry kind with its
return address and destination, the store buffer, and the instructions executed in the step. -/
structure Capsule where
  mode : CapMode := .none
  l : Nat := 0
  ticket : Nat := 0
  idx : Nat := 0
  viaCapa : Bool := false
  ret : Addr := 0
  dA : Nat := 0
  stores : List BufStore := []
  count : Nat := 0
  deriving DecidableEq, Repr

/-- Why a strand is stalled inside an instruction that has already issued (R395). The numbers say which
request in flight, mailbox, channel or ticket it waits for. -/
inductive WaitKind where
  | none
  /-- the conditions of a FENCE or DRAINST that has issued are tested again each time it is chosen -/
  | again
  /-- a request at a synchronisation engine, awaiting its reply -/
  | sync
  /-- PSEND or EOS awaiting room -/
  | psend
  /-- ACKW awaiting an acknowledgement -/
  | ackw
  /-- FWD or VFWD awaiting its landing -/
  | fwd
  /-- ICINV awaiting its acknowledgements -/
  | icinv
  deriving DecidableEq, Repr

/-- A strand's wait: the kind, the uid of the request or the number waited for, the cycle the stall began
(R185), and the bytes of the instruction, past which the pc moves when it completes. -/
structure Wait where
  kind : WaitKind := .none
  n : Nat := 0
  since : Nat := 0
  len : Nat := 4
  /-- the marked k registers that the instruction has emptied (R237): a trap at it leaves them full (R394) -/
  cells : List Nat := []
  deriving DecidableEq, Repr

/-- A JWAIT or PRECV in flight (R200): its address, the number of the producer, and the marked registers it has emptied. -/
structure LastRecv where
  pc : Addr := 0
  uid : Nat := 0
  cells : List Nat := []
  deriving DecidableEq, Repr

/-- A strand: one hardware thread context (*The hierarchy of work*). -/
structure Strand where
  /-- whether the slot holds a strand at all -/
  live : Bool := false
  uid : Nat := 0
  /-- the core, numbered 64 * Y + X in package coordinates (R12) -/
  core : Nat := 0
  slot : Nat := 0
  mode : Mode := .launch
  kind : Kind := .cont
  run : RunState := .run
  launch : Nat := 0
  team : Nat := 0
  pc : Addr := 0
  gk : Vector Reg 56 := Vector.replicate 56 { }
  y : Vector Word 4 := Vector.replicate 4 0
  v : Vector VReg 32 := Vector.replicate 32 { }
  m : Vector (BitVec 128) 8 := Vector.replicate 8 0
  e : Vector Word 8 := Vector.replicate 8 0
  trapVector : Word := 0
  trapCause : Word := 0
  trapPc : Word := 0
  trapInfo : Word := 0
  status : Word := 0
  roundMode : Word := 0
  overflowPtr : Word := 0
  overflowStride : Nat := 0
  spillBase : Nat := 0
  spillSize : Nat := 0
  svTrapVector : Word := 0
  svTrapCause : Word := 0
  svTrapPc : Word := 0
  svTrapInfo : Word := 0
  svStatus : Word := 0
  svScratch0 : Word := 0
  svScratch1 : Word := 0
  actorClass : Nat := 0
  actorKey : Word := 0
  actorBase : Nat := 0
  actorSize : Nat := 0
  msgSender : Nat := 0
  sfq : List SfRec := []
  /-- the SEND sequence counter (R179) -/
  seq : Nat := 0
  /-- posted operations issued, modulo 65536 (R400) -/
  posted : Nat := 0
  /-- ENQ.ack tickets issued; a ticket is this count modulo 65536 (R352) -/
  tickets : Nat := 0
  /-- acknowledgement statuses of the last 64 tickets (R203, R352) -/
  acks : BitVec 64 := 0
  cap : Capsule := { }
  /-- the AUDX mark (R314) -/
  audx : Bool := false
  wait : Wait := { }
  /-- YIELD passes the next issue to another strand; the cycle in which the last instruction issued, if it was one (R52) -/
  yielded : Bool := false
  yieldAt : Option Nat := none
  /-- DEQ, JWAIT and PRECV issued and not yet answered: majors 8 to 18 wait behind them -/
  hold : Nat := 0
  /-- ENQ.ack tickets whose acknowledgement has not arrived (R352) -/
  ackPend : List Nat := []
  /-- whether a debug halt has been requested (R428), or one instruction is to be issued (R430) -/
  haltReq : Bool := false
  stepReq : Bool := false
  /-- it has issued its one instruction and halts, with no record, once that is complete (R430) -/
  quietHalt : Bool := false
  /-- the state a halted strand returns to (R430) -/
  before : RunState := .run
  /-- a handler's entry and message: the flow-table entry's uid, the message's words, the time it entered
  the core input queue and the time its first instruction issued (R176) -/
  entry : Nat := 0
  msgWords : List Word := []
  tIn : Nat := 0
  tStart : Option Nat := none
  /-- the side of a twin pair, and the messages it has sent in this run (R173) -/
  twin : Option Bool := none
  twinSends : Nat := 0
  /-- the fetch buffer (R183): the address of 32 bytes of instructions, and the bytes -/
  fetchBuf : Option (Nat × Nat) := none
  /-- a record held for the DEQ that this continuation executes again (R355) -/
  heldRec : Option (List Word) := none
  /-- a trap taken before the first instruction (R114, R407): cause and TRAP_INFO -/
  preTrap : Option (Nat × Word) := none
  /-- the report of R398 that the trap which ends the work leaves -/
  endReport : List Word := []
  /-- the cycle at which the instruction it offers first could not issue (R185) -/
  stallSince : Option Nat := none
  /-- what the instruction it offers is stalled for (R185, R356): registers that await a forward, and JWAITs, PRECVs and DEQs in
  flight -/
  starved : List Nat := []
  stallIn : List Nat := []
  /-- TIME_NS at which the debug module halted it (R429) -/
  haltAt : Nat := 0
  /-- the end code the strand's team ends with, once it is ending (R397, R276, R443) -/
  ending : Option Nat := none
  /-- the clock of what it has acquired (R320, R324): its later accesses wait until its die has applied that -/
  need : List Nat := []
  /-- the clock of its die at its last release fence at system scope (R325) -/
  relClock : List Nat := []
  /-- the JWAIT or PRECV that it issued last, while it has issued nothing since (R200) -/
  lastAt : Option LastRecv := none
  /-- stopped by an uncorrectable error: no RESUME starts it again (R408) -/
  stopped : Bool := false
  deriving DecidableEq, Repr


/-! ### Work described by a manifest (*Describing work*) -/

/-- A kernel entry (R99); `spill` is in bytes. -/
structure KernelD where
  entry : Word := 0
  convoys : Nat := 0
  teams : Nat := 0
  strands : Nat := 0
  spill : Nat := 0
  frameBase : Word := 0
  frameStride : Word := 0
  args : List Word := []
  deriving DecidableEq, Repr

/-- An actor class entry (R101). -/
structure ClassD where
  cls : Nat := 0
  twin : Bool := false
  stateSize : Nat := 0
  handler : Word := 0
  creator : Word := 0
  heapBase : Nat := 0
  heapSize : Nat := 0
  hostSet : BitVec 64 := 0
  stateArea : Nat := 0
  deriving DecidableEq, Repr

/-- A pipe entry (R103). -/
structure PipeD where
  producer : Nat := 0
  consumer : Nat := 0
  slots : Nat := 0
  slotSize : Nat := 0
  buf : Nat := 0
  deriving DecidableEq, Repr

/-- A tensor entry (R105). -/
structure TensorD where
  shape : Nat := 0
  audit : Nat := 0
  deriving DecidableEq, Repr

/-- A lease entry (R109). -/
structure LeaseD where
  base : Nat := 0
  len : Nat := 0
  gran : Nat := 0
  tier : Nat := 0
  deriving DecidableEq, Repr

/-- A queue entry (R110). -/
structure QueueD where
  q : Nat := 0
  scope : Nat := 2
  ring : Nat := 256
  ringBase : Nat := 0
  deriving DecidableEq, Repr

/-- A route region or containment rectangle (R111). -/
structure RectD where
  kind : Nat := 0
  h : Nat := 0
  w : Nat := 0
  y0 : Nat := 0
  x0 : Nat := 0
  deriving DecidableEq, Repr

/-- A manifest snapshot, field by field (R96, R98). -/
structure Manifest where
  coresident : Bool := false
  priority : Nat := 0
  joinCount : Nat := 0
  ownerClass : Nat := 0
  ownerKey : Word := 0
  drainLimit : Nat := 2000000
  paramImage : Nat := 0
  paramSize : Nat := 0
  overflowStride : Nat := 0
  overflowBase : Word := 0
  trapVector : Word := 0
  regions : List Word := []
  kernels : List KernelD := []
  classes : List ClassD := []
  pipes : List PipeD := []
  caravans : List Nat := []
  tensors : List TensorD := []
  leases : List LeaseD := []
  queues : List QueueD := []
  routes : List RectD := []
  rects : List RectD := []
  deriving DecidableEq, Repr

/-- How far a launch has come (R124, R443, R444). -/
inductive LaunchStage where
  /-- leases not yet resident -/
  | leases
  /-- prepared; its units start -/
  | live
  /-- its end has begun (R442, R443) -/
  | ending
  /-- its end item is in the sequence (R444 step 6) -/
  | over
  deriving DecidableEq, Repr

/-- A team and the core that holds it (R125). -/
structure Hold where
  core : Nat := 0
  launch : Nat := 0
  kernel : Nat := 0
  convoy : Nat := 0
  /-- the team's number in its convoy -/
  idx : Nat := 0
  /-- TEAM_ID (R99) -/
  team : Nat := 0
  unit : Nat := 0
  /-- the package cluster -/
  cluster : Nat := 0
  started : Bool := false
  /-- the slots whose launch continuations have not started (R100) -/
  toStart : List Nat := []
  /-- the end code the team ends with, once it is ending (R397, R276, R443) -/
  ending : Option Nat := none
  /-- a strand of the team has ended so that the team may end (R440) -/
  someEnded : Bool := false
  endCode : Nat := 0
  /-- the reports of the team's end (R398, R421): selector and payload -/
  report : Option (Nat × List Word) := none
  /-- whether the team-end item has been broadcast (R441) -/
  ended : Bool := false
  /-- displaced by launches of higher priority: the TIME_NS the drain began (R199), and those launches -/
  drained : Option Nat := none
  displacers : List Nat := []
  /-- its DRAIN_LIMIT has passed: its strands are forced-saved (R199) -/
  limit : Bool := false
  /-- another team holds its core meanwhile (R201) -/
  away : Bool := false
  deriving DecidableEq, Repr

/-- The REGION registers of a launch on a core (R270). -/
structure RegionSet where
  core : Nat := 0
  launch : Nat := 0
  regs : List Word := []
  deriving DecidableEq, Repr

/-- A state area on a core (R464). -/
structure AreaD where
  core : Nat := 0
  launch : Nat := 0
  cls : Nat := 0
  base : Nat := 0
  size : Nat := 0
  deriving DecidableEq, Repr

/-- A launch that holds a launch slot (R124, R188). -/
structure Launch where
  id : Nat := 0
  slot : Nat := 0
  m : Manifest := { }
  /-- the sequence number its stages run at (R117) -/
  seqNo : Nat := 0
  /-- the command queue that placed it, or 16 plus the die of the launching strand -/
  source : Nat := 0
  tag : Nat := 0
  /-- the address of its manifest -/
  addr : Nat := 0
  vector : Nat := 0
  token : Word := 0
  /-- a device-launched child: the handle of its parent's counter (R391) -/
  counter : Option Word := none
  /-- the launch that launched it, of a device-launched child, and whether its counter message has been sent -/
  parent : Nat := 0
  counted : Bool := false
  /-- the clock of what is released to it with its command, and, once it is retired, of what it releases itself (R334,
  R391, R444) -/
  clock : List Nat := []
  /-- the parameter image, byte by byte (R112) -/
  params : List Host.Cell := []
  startTime : Nat := 0
  stage : LaunchStage := .leases
  /-- the admission units not yet placed (R126) -/
  pending : List Nat := []
  /-- the clusters the launch uses (R110) -/
  clusters : List Nat := []
  /-- team numbers that have ended -/
  endedTeams : List Nat := []
  /-- its teams that have ended, with the cores that held them: the map is frozen (R156, R253) -/
  pastHolds : List Hold := []
  abnormal : Nat := 0
  unsaved : Nat := 0
  discarded : Nat := 0
  /-- DEADLOCK reports sent (R358) -/
  reports : Nat := 0
  /-- TIME_NS of step 1 of R443 -/
  endAt : Nat := 0
  /-- what the distribution of a launch whose leases are not yet resident has placed: its teams and its state
  areas (R124, R126) -/
  plan : List Hold := []
  areaPlan : List AreaD := []
  /-- the die whose thermal trip ends the launch (R135) -/
  thermal : Option Nat := none
  deriving DecidableEq, Repr

/-! ### Memory in flight (*The memory model*) -/

/-- A byte that a die's view shows in place of the owner's memory (R318): the value, and the position
in the coherence order of the write it came from. -/
structure Shadow where
  die : Nat
  addr : Nat
  val : Byte
  pos : Nat
  /-- the value is that of a write of the die itself that has not been acknowledged (R321) -/
  own : Bool := false
  deriving DecidableEq, Repr

/-- The origin of a posted operation (R400). -/
inductive Origin where
  | stg
  | sth
  | stn
  | atomic
  | pushs
  | mxdr
  /-- a write that no strand posts: an engine's, the host's, a write-back -/
  | engine
  deriving DecidableEq, Repr

/-- What a store-fault record says of its posted operation (R400): the strand, the sequence number, the origin, the size
code, the words ADDR and DATA; and the bytes it writes. -/
structure Post where
  strand : Nat := 0
  seq : Nat := 0
  origin : Origin := .stg
  code : Nat := 0
  raw : Word := 0
  data : Word := 0
  addr : Nat := 0
  size : Nat := 0
  deriving DecidableEq, Repr

/-- A byte of a team- or convoy-scope write still in a cluster's slice (R317): its value, the bits of it that are dirty
(R246), the launches and the agents whose writes of the byte have not been written back (R323), with those that have
acquired it (R325), and the posted operations that wrote it (R400). -/
structure SliceByte where
  cluster : Nat
  addr : Nat
  val : Byte
  mask : Byte := 0xFF
  launches : List Nat
  agents : List Nat
  /-- the strands that have read it there (R258) -/
  readers : List Nat := []
  posts : List Post := []
  deriving DecidableEq, Repr

/-- An operation of a strand that has been performed at an owner, and that its die has yet to apply: the strand's later
accesses to its bytes follow it (R258, R322). -/
structure Behind where
  strand : Nat := 0
  die : Nat := 0
  addr : Nat := 0
  size : Nat := 0
  clock : List Nat := []
  deriving DecidableEq, Repr

/-- What a die receives from an owner (R319): a write, the acknowledgement of its own, or the refusal of its own, with the
bytes that stand at the owner (R366, R417). -/
inductive UpdKind where
  | update
  | ack
  | refuse
  deriving DecidableEq, Repr

/-- A write on its way to a die's view: its bytes, the clock of the die that performed it, and its
position in the coherence order (R319, R320). -/
structure Update where
  kind : UpdKind := .update
  die : Nat := 0
  writer : Nat := 0
  addr : Nat := 0
  size : Nat := 0
  val : Nat := 0
  mask : Nat := 0
  clock : List Nat := []
  pos : Nat := 0
  /-- the store an acknowledgement answers -/
  store : Nat := 0
  /-- further pieces of the same write (R377): address, bytes, value -/
  more : List (Nat × Nat × Nat) := []
  deriving DecidableEq, Repr

/-- How far a posted store has come. -/
inductive StoreStage where
  /-- issued, not yet performed anywhere -/
  | issued
  /-- in its die's view, on its way to the owner (R319) -/
  | sent
  /-- applied at the owner, its acknowledgement on the way -/
  | applied
  deriving DecidableEq, Repr

/-- A posted store: its strand and sequence number (R400), the core and launch it was issued for, its
address, size code, size in bytes, value and bit enables (R246), its scope, and whether it is a release. -/
structure Store where
  uid : Nat := 0
  /-- its place in the strand's program order -/
  ord : Nat := 0
  strand : Nat := 0
  seq : Nat := 0
  origin : Origin := .stg
  core : Nat := 0
  launch : Nat := 0
  sup : Bool := false
  addr : Nat := 0
  raw : Word := 0
  /-- the DATA word of its store-fault record (R400) -/
  data : Word := 0
  code : Nat := 0
  size : Nat := 0
  val : Nat := 0
  mask : Nat := 0
  /-- the access it is a piece of (R246): its first address and its bytes -/
  base : Nat := 0
  span : Nat := 0
  scope : Nat := 5
  rel : Bool := false
  stage : StoreStage := .issued
  clock : List Nat := []
  /-- the size class its request carries (R270) -/
  cls : Nat := 0
  /-- its place in the order of arrival at the owner's engine (R336), and among the writes that stall there while the
  page is in FINAL (R282); 0 where it has none -/
  inj : Nat := 0
  arr : Nat := 0
  /-- an atomic that returns nothing, or an MXDR.add: the operation to be performed at the engine (R304,
  R339) -/
  atomic : Option (Nat × Word) := none
  /-- the job that an MXDR element or a write of the copy engine belongs to (R297, R304) -/
  job : Nat := 0
  /-- the access it is part of has failed elsewhere: its owner does not apply it, and no further record is sent (R259,
  R304) -/
  lost : Bool := false
  /-- a synchronisation engine's own update of a capsule record, which step 6 of R274 does not bind -/
  own : Bool := false
  /-- a slice's write-back whose units are to be uncorrectable (R415) -/
  spoils : Bool := false
  /-- of a slice's write-back: the launches and the agents whose bytes it holds (R323), and the posted operations that wrote
  them (R400); the strands that have read one there (R258) -/
  launches : List Nat := []
  agents : List Nat := []
  readers : List Nat := []
  posts : List Post := []
  /-- a further piece of the same write (R437): address, bytes, value -/
  more : List (Nat × Nat × Nat) := []
  deriving DecidableEq, Repr

/-- A store-fault record on its way to its strand (R400). -/
structure FaultMsg where
  strand : Nat := 0
  r : SfRec := ⟨0, 0, 0⟩
  deriving DecidableEq, Repr

/-- Where a message is on its way. -/
inductive MsgStage where
  /-- at its sender's core, not yet in the network -/
  | queued
  /-- in the network, towards its home die's flow table or a counter's die -/
  | sent
  /-- on its way to another package (R175) -/
  | away
  /-- waits for an entry of a full set (R165) -/
  | deferred
  /-- an item of a twin's run, on its way to the comparator, and its digest at DONE (R173) -/
  | twin
  | twinDone
  deriving DecidableEq, Repr

/-- A message on its way (R115): words 0 to 7, its launch, the die it was sent from, and, once it has left, the clock of
what its sender released (R334). -/
structure Msg where
  uid : Nat := 0
  w : List Word := []
  launch : Nat := 0
  die : Nat := 0
  /-- the sending strand, if a strand sent it -/
  strand : Option Nat := none
  core : Nat := 0
  stage : MsgStage := .sent
  /-- of an item of a twin's run: its entry -/
  entry : Nat := 0
  clock : List Nat := []
  deriving DecidableEq, Repr

/-! ### The units of the package -/

/-- A leaf pair in a TLB (R269): its class, its page, the leaf entry and its companion word. -/
structure TlbPair where
  cls : Nat := 0
  vpn : Nat := 0
  entry : Nat := 0
  mask : Nat := 0
  deriving DecidableEq, Repr

/-- The state of a die: its vector clock (R320), the roots of its two table trees and the bound of the
frames the drover core has given out (R272), whether its translation unit holds the start map (R262),
its shared supervisor registers (R65), and the number of messages its drover core has sent (R115). -/
structure Die where
  clock : List Nat := [0, 0, 0, 0]
  root0 : Nat := 0
  root1 : Nat := 0
  nextHbm : Nat := 0
  nextLp : Nat := 0
  /-- the check bytes of the frames that the allocator has given out (R277) -/
  checkBytes : Nat := 0
  startMap : Bool := false
  auditSeed : Word := 0
  mapBase : Word := 0
  reportSeq : Nat := 0
  /-- the offsets below which a page that no leaf maps has the frame of its own offset (the firmware's own tables,
  R262) -/
  idLimit : Nat := 0
  /-- the leaf pairs its TLB holds, the latest first (R269) -/
  tlb : List TlbPair := []
  /-- when the corner last took a packet in a start (R262) -/
  cornerAt : Nat := 0
  /-- the package routing table and this package's own number, as step 7 of the last start loaded them (R175) -/
  routes : List Nat := List.replicate 256 0
  package : Nat := 0
  /-- the entries of its map as step 6 of the last start passed (R155, R263), and whether a boot strand was stopped before it had
  exited (R262) -/
  map : List Nat := []
  bootLost : Bool := false
  /-- COMPARE_WINDOW and AUDIT_DEADLINE in ns, IMBALANCE_LIMIT (R143, R174, R311) -/
  compareWindow : Nat := 20000
  auditDeadline : Nat := 100000
  imbalance : Nat := 6
  deriving DecidableEq, Repr

/-- What a long-latency producer waits for (R26). -/
inductive PendOp where
  /-- its value is there: to be written -/
  | ready (v : Nat)
  /-- it failed: a fault tag is to be written (R259) -/
  | failed (g : Tag)
  /-- an LDG to be performed: address, size code, bytes, element, scope -/
  | ldg (addr code size el scope : Nat)
  /-- an LDG of a capsule step, performed at the owner, under the step's buffered stores (R371) -/
  | ldgCap (addr size : Nat) (buf : List BufStore)
  /-- an LDH to be performed at the host (R261) -/
  | ldh (addr size : Nat)
  /-- an atomic with a destination, to be performed at the engine (R339) -/
  | atomic (op addr size : Nat) (b e0 : Word) (ar : Bool)
  /-- an access of so many 8-byte units at a sibling's scratchpad (R246, R253) -/
  | units (n : Nat)
  /-- a JWAIT on a job identifier (R344) -/
  | jwait (id : Nat)
  /-- a DEQ: the queue, the scratchpad address, the DEQ's own address, and the record held for it (R354,
  R355) -/
  | deq (q addr : Nat) (pc : Addr) (held : Option (List Word))
  /-- a PRECV: the pipe and the scratchpad address (R387) -/
  | precv (p addr : Nat)
  /-- rows v0 to v31, held by an MXDR (R303) -/
  | rows
  /-- rows v0 to v31, held by an MXQ (R301) -/
  | mxq
  /-- a request at another unit, which answers -/
  | remote
  deriving DecidableEq, Repr

/-- A long-latency producer in flight: its strand, the register it writes (0 to 55 for g and k, 64 to 95
for v, 60 for z), and whether later accesses wait for it (R324). -/
structure Pend where
  uid : Nat := 0
  strand : Nat := 0
  core : Nat := 0
  launch : Nat := 0
  sup : Bool := false
  dst : Nat := 60
  acq : Bool := false
  /-- of an atomic, the clock of its die when it left (R329), and once it is performed the clock of what it acquires;
  none while an `.ar` atomic waits for its release -/
  clock : Option (List Nat) := none
  /-- its place in the order of arrival at the owner's engine (R336) -/
  inj : Nat := 0
  /-- of a load, the 8-byte units that have not been read, as a mask, and what the others held (R246) -/
  left : Nat := 1
  acc : Nat := 0
  /-- its place among the writes that stall at the owner (R282) -/
  arr : Nat := 0
  op : PendOp := .remote
  deriving DecidableEq, Repr

/-- An N-space access on its way to its target (R253, R254). -/
structure NOp where
  uid : Nat := 0
  strand : Nat := 0
  core : Nat := 0
  seq : Nat := 0
  store : Bool := false
  target : Nat := 0
  addr : Nat := 0
  raw : Word := 0
  data : Word := 0
  code : Nat := 0
  size : Nat := 0
  val : Nat := 0
  launch : Nat := 0
  /-- the access it is a unit of (R246): its first address and its bytes -/
  base : Nat := 0
  span : Nat := 0
  deriving DecidableEq, Repr

/-- An entry of a core's special-function unit (R195): its strand, its destination, the row and the flags
its completion writes (R223). -/
structure SfuEntry where
  core : Nat := 0
  strand : Nat := 0
  vd : Nat := 0
  row : Row := 0
  flags : Word := 0
  deriving DecidableEq, Repr

/-- The TLRS or TEMA in a core's recurrence unit (R192, R228): the rows and flags its completion writes. -/
structure RecEntry where
  core : Nat := 0
  strand : Nat := 0
  rows : List (Nat × Row) := []
  flags : Word := 0
  deriving DecidableEq, Repr

/-- A forward on its way or waiting at its receiving core (R237, R238): its sender, the sender's launch,
the core, the slot and the register it is for (48 to 55 for k, 64 to 95 for v), and its value. -/
structure Fwd where
  sender : Nat := 0
  launch : Nat := 0
  src : Nat := 0
  core : Nat := 0
  slot : Nat := 0
  reg : Nat := 0
  val : Nat := 0
  /-- the marked register that its FWD or VFWD has emptied (R237) -/
  cell : Option Nat := none
  /-- its place among those of one cycle: the side it comes from, N, E, S, W, and its sender's slot (R238) -/
  from' : Nat := 0
  /-- once it has arrived, the number of the cycle after -/
  arr : Nat := 0
  deriving DecidableEq, Repr

/-- A tile-table entry at reset: all zero but SCALE, 0x7F (R284). -/
def emptyTile : Word := 0x007F000000000000

/-- A tile's use by others: samples that pin it (R309), MXQs that hold it (R302), and the last load job
that filled it, with its origin (R313). -/
structure TileUse where
  pins : Nat := 0
  holds : Nat := 0
  job : Nat := 0
  origin : Word := 0
  deriving DecidableEq, Repr

/-- The SRAM arrays of the compute dies (R412). -/
inductive SramUnit where
  | scratchpad
  | registers
  | tiles
  | icache
  | slice
  | flowTable
  | waystation
  | sync
  | engine
  deriving DecidableEq, Repr

/-- The counters of a bank of an array (R416), that are not both 0: the core, cluster, octet or die that it is of, its number,
and its corrected and its uncorrectable errors. -/
structure BankCount where
  unit : SramUnit := .scratchpad
  place : Nat := 0
  bank : Nat := 0
  corrected : Nat := 0
  uncorrected : Nat := 0
  deriving DecidableEq, Repr

/-- A word of a scratchpad, or the vertical row of its column group, whose bits have flipped (R412): the core, the word's
address, or that of the group's first word for a row, the bits of the word and its parity that differ, and whether a read has
found it, so that its rebuild is under way (R413). -/
structure SoftErr where
  core : Nat := 0
  addr : Nat := 0
  row : Bool := false
  mask : Nat := 0
  found : Bool := false
  deriving DecidableEq, Repr

/-- A core's own registers and tables (R63, R284, R290, R291, R306). -/
structure Core where
  id : Nat := 0
  mxWeight : Nat := 1
  auditRate : Nat := 0
  lfsr : Nat := 1
  /-- the next job identifier (R290) -/
  nextJob : Nat := 0
  tiles : List Word := List.replicate 32 emptyTile
  uses : List TileUse := List.replicate 32 { }
  /-- mailbox words by identifier that do not hold the reset value (R291) -/
  mail : List (Nat × Word) := []
  /-- uncorrectable errors since the last cold start (R416) -/
  uncorrected : Nat := 0
  deriving DecidableEq, Repr

/-- A cluster: its debug module's registers (R426, R434) and its power state (R134). -/
structure Cluster where
  /-- the engines of the octets are frozen (R428) -/
  frozen : Bool := false
  /-- TIME_NS at which they were frozen (R429), and the cycle of the last sampling instant (R434) -/
  frozenAt : Nat := 0
  lastSample : Nat := 0
  /-- the next core whose strands are sampled (R434) -/
  sampleCore : Nat := 0
  dbgCtl : Word := 0
  dbgSel : Word := 0
  traceCtl : Word := 0
  traceBase : Word := 0
  traceSize : Word := 0
  /-- 0 RUN, 1 GATE, 2 RETAIN, 3 OFF -/
  power : Nat := 0
  deriving DecidableEq, Repr

/-! ### Synchronisation, queues and pipes -/

/-- A wait at a synchronisation engine (R339, R341): its variable's bytes once it is there, and the value a
test found. -/
structure WaitRec where
  uid : Nat := 0
  strand : Nat := 0
  core : Nat := 0
  launch : Nat := 0
  sup : Bool := false
  addr : Nat := 0
  /-- 0 not equal, 1 equal, 2 greater or equal -/
  cond : Nat := 0
  c : Nat := 0
  dst : BitVec 6 := 60
  arrived : Bool := false
  keys : List Nat := []
  found : Option Nat := none
  /-- the clock of its die when it issued (R329) -/
  clock : List Nat := []
  deriving DecidableEq, Repr

/-- What a strand asks of a synchronisation engine and waits for (R346, R372). -/
inductive SyncOp where
  | joininit (handle count queue cluster : Nat) (body : List Word)
  | capb
  | caps (d : BitVec 6) (final : Bool) (result : Word)
  | capa
  | capr (ticket : Nat)
  | capq
  deriving DecidableEq, Repr

/-- A request at a synchronisation engine. -/
structure SyncReq where
  uid : Nat := 0
  strand : Nat := 0
  core : Nat := 0
  launch : Nat := 0
  sup : Bool := false
  l : Nat := 0
  dst : BitVec 6 := 60
  op : SyncOp := .capq
  /-- the clock of its die when it issued (R329) -/
  clock : List Nat := []
  /-- of a CAPS or CAPE: its release is complete, and `clock` is of that time (R377) -/
  left : Bool := false
  /-- at the engine, waiting there in order of arrival (R373, R376) -/
  arrived : Bool := false
  /-- the value that a parking answers a waiting CAPB with (R378), or a CAPE a waiting CAPR (R376) -/
  answer : Option Word := none
  deriving DecidableEq, Repr

/-- Whether a capsule request is on its way to the engine: a CAPS or CAPE leaves once its release is complete (R377). -/
def SyncReq.inFlight (q : SyncReq) : Bool :=
  match q.op with
  | .joininit _ _ _ _ _ => false
  | .caps _ _ _ => q.left
  | _ => true

/-- A refresh marker of a FENCE (R326): from a die to another, and once there, the position in the
coherence order below which every write must have been applied. -/
structure Marker where
  strand : Nat := 0
  src : Nat := 0
  dst : Nat := 0
  pos : Option Nat := none
  deriving DecidableEq, Repr

/-- A join counter (R345). -/
structure Counter where
  launch : Nat := 0
  index : Nat := 0
  armed : Bool := false
  count : Nat := 0
  queue : Nat := 0
  cluster : Nat := 0
  body : List Word := []
  /-- the clock of what the decrements of this arming released (R332) -/
  clock : List Nat := []
  /-- failed beyond correction (R415) -/
  failed : Bool := false
  deriving DecidableEq, Repr

/-- A record of a queue: its eight words, its kind bit (R348), and the clock of what was released with it (R331, R332). -/
structure QRec where
  w : List Word := []
  run : Bool := false
  clock : List Nat := []
  deriving DecidableEq, Repr

/-- A hardware task queue of a launch in a cluster (R348): the hardware part, the spill ring with the
counts of records ever placed in it and taken from it. -/
structure Queue where
  launch : Nat := 0
  q : Nat := 0
  cluster : Nat := 0
  hw : List QRec := []
  ring : List QRec := []
  ringTail : Nat := 0
  ringHead : Nat := 0
  deriving DecidableEq, Repr

/-- A DEQ that has left its slot (R355): its continuation, its place among the waiters, whether the head record is held
for it, and the clock of its die when it left. -/
structure DeqWaiter where
  uid : Nat := 0
  launch : Nat := 0
  q : Nat := 0
  cluster : Nat := 0
  body : List Word := []
  held : Option QRec := none
  clock : List Nat := []
  /-- the core and the slot it left -/
  core : Nat := 0
  slot : Nat := 0
  deriving DecidableEq, Repr

/-- A record on its way to a queue (R351): from a strand or a counter, with its release's strand and scope,
the ticket it acknowledges, and whether it took a credit of R140. -/
structure EnqMsg where
  uid : Nat := 0
  strand : Nat := 0
  core : Nat := 0
  launch : Nat := 0
  target : Nat := 0
  q : Nat := 0
  cluster : Nat := 0
  body : QRec := { }
  scope : Nat := 4
  ticket : Option Nat := none
  credit : Bool := false
  /-- the package it goes to, if another, and the package it comes from, if another (R351) -/
  pkg : Option Nat := none
  origin : Option Nat := none
  /-- a SPAWN: the record may start on a free slot of the core (R54) -/
  spawn : Bool := false
  deriving DecidableEq, Repr

/-- An enqueue acknowledgement on its way (R352). -/
structure AckMsg where
  strand : Nat := 0
  ticket : Nat := 0
  status : Bool := false
  deriving DecidableEq, Repr

/-- A channel (p, i) of a pipe (R382): SENT, CREDITS, whether the producer's side has placed its token,
TAKEN, the kind of the token taken once CLOSED, the items in their slots by number with their kinds and the clocks of
what was released with them, and whether the report of R386 has been sent. -/
structure Channel where
  launch : Nat := 0
  p : Nat := 0
  i : Nat := 0
  sent : Nat := 0
  credits : Nat := 0
  token : Bool := false
  taken : Nat := 0
  closed : Option Nat := none
  /-- the clock of what the token released -/
  clock : List Nat := []
  landed : List (Nat × Nat × List Nat) := []
  abort : Bool := false
  reported : Bool := false
  deriving DecidableEq, Repr

/-- An item or a token on its way (R383): its channel, its number, its kind and its bytes. -/
structure PipeItem where
  uid : Nat := 0
  strand : Nat := 0
  core : Nat := 0
  launch : Nat := 0
  p : Nat := 0
  i : Nat := 0
  k : Nat := 0
  kind : Nat := 0
  data : Nat := 0
  scope : Nat := 2
  /-- the consumer's core -/
  dst : Nat := 0
  /-- once it has left, the clock of what its producer released (R334) -/
  clock : List Nat := []
  deriving DecidableEq, Repr

/-! ### The engines -/

/-- What a job of the copy engine does (R294, R295, R303). -/
inductive JobKind where
  | load
  | store
  | quant
  | drain (add i32 : Bool) (rows : List Row)
  deriving DecidableEq, Repr

/-- The fields of a tensor shape record (R107). -/
structure Shape where
  base : Nat := 0
  scales : Nat := 0
  size0 : Nat := 1
  size1 : Nat := 1
  size2 : Nat := 1
  size3 : Nat := 1
  stride1 : Int := 0
  stride2 : Int := 0
  stride3 : Int := 0
  plane : Nat := 0
  origin0 : Nat := 0
  origin1 : Nat := 0
  clip0 : Nat := 0
  clip1 : Nat := 0
  format : Nat := 0
  tile : Nat := 0
  deriving DecidableEq, Repr

/-- A store of a strand into its core's scratchpad, in the order of the stores (R69, R249): the 8-byte unit, the value that it
held before, and, once a FENCESP of the strand covers it, the number from which engine work follows it. -/
structure LateStore where
  strand : Nat := 0
  core : Nat := 0
  unit : Nat := 0
  old : Nat := 0
  fenced : Option Nat := none
  deriving DecidableEq, Repr

/-- A job of the copy engine (R289 to R297): its record once read, the scale, the next element, the bits of the tile read so
far and their number, the units of the tile that are still to be written (R288), and its fault. -/
structure Job where
  uid : Nat := 0
  core : Nat := 0
  id : Nat := 0
  strand : Nat := 0
  launch : Nat := 0
  sup : Bool := false
  kind : JobKind := .load
  recAddr : Nat := 0
  tile : Nat := 0
  scope : Nat := 3
  seq : Nat := 0
  shape : Option Shape := none
  scale : Nat := 0x7F
  block : Nat := 0
  acc : Nat := 0
  pos : Nat := 0
  units : List (Nat × Nat) := []
  fault : Option (Nat × Nat) := none
  /-- the record of an MXDR's fault has been sent (R304) -/
  told : Bool := false
  deriving DecidableEq, Repr

/-- A tile as an MXQ captures it (R301): its number, BASE, n of its format, PLANES, SCALE and GEN. -/
structure TileCap where
  tile : Nat := 0
  base : Nat := 0
  n : Nat := 8
  planes : Nat := 8
  scale : Nat := 0x7F
  gen : Nat := 0
  deriving DecidableEq, Repr

/-- A command of a matrix engine (R301): the captured pairs, the next pair, the exact sums of the pairs done
(as multiples of 2^(min S_p)), and its sample, if it is audited. -/
structure MxCmd where
  uid : Nat := 0
  core : Nat := 0
  strand : Nat := 0
  launch : Nat := 0
  i32 : Bool := false
  t : Nat := 32
  ka : Nat := 8
  kb : Nat := 8
  pairs : List (TileCap × TileCap) := []
  next : Nat := 0
  sums : List Int := []
  sample : Option Nat := none
  deriving DecidableEq, Repr

/-- A plane block in a matrix engine's operand cache (R302), the latest used first. -/
structure OpBlock where
  octet : Nat := 0
  core : Nat := 0
  tile : Nat := 0
  gen : Nat := 0
  plane : Nat := 0
  bytes : Nat := 128
  val : Nat := 0
  deriving DecidableEq, Repr

/-- A sample of the numerical audit engine (R307 to R311). -/
structure Sample where
  uid : Nat := 0
  octet : Nat := 0
  core : Nat := 0
  launch : Nat := 0
  i32 : Bool := false
  audx : Bool := false
  t : Nat := 32
  pairs : List (TileCap × TileCap) := []
  /-- the reduced tensors with their lowest-numbered reduced tile (R307, R313) -/
  reduced : List (Nat × Nat) := []
  u : List Int := []
  /-- when its MXQ completed (R311) -/
  doneAt : Option Nat := none
  /-- the pairs re-executed, and their exact sums (R309) -/
  next : Nat := 0
  f : List Int := []
  /-- its pins have gone with a restored tile table (R310) -/
  unpinned : Bool := false
  /-- once its re-execution has ended and its histograms are being updated, the clock of its die at that time (R312, R329) -/
  ended : Option (List Nat) := none
  /-- the messages that it sends as it ends (R313): class, key, payload words 0 to 3, and the clock of the add -/
  due : List (Nat × Word × List Word × List Nat) := []
  deriving DecidableEq, Repr

/-! ### The flow table -/

/-- An add of 1 to ABANDONED that an audit engine has yet to perform (R311): its octet, the core, the launch, the address, and
the clock of its die (R329). -/
structure AuditAdd where
  octet : Nat := 0
  core : Nat := 0
  launch : Nat := 0
  addr : Nat := 0
  clock : List Nat := []
  deriving DecidableEq, Repr

/-- The state of a flow-table entry (R163), with what its activation or eviction is doing. -/
inductive EntryState where
  /-- waits for a record (R166) -/
  | waiting
  /-- probes the heap (R167) -/
  | probing
  /-- the state is fetched; the record is to be put in place -/
  | fetched
  /-- its creator runs (R168) -/
  | creating
  | live
  /-- its write-back has begun; the record's bytes once read (R422) -/
  | evicting (bytes : Option Nat)
  deriving DecidableEq, Repr

/-- A flow-table entry (R161), with the version of its state (R167), the messages it holds in order
(R164), and what twin execution needs (R172 to R174). -/
structure Entry where
  uid : Nat := 0
  die : Nat := 0
  launch : Nat := 0
  cls : Nat := 0
  key : Word := 0
  twin : Bool := false
  st : EntryState := .waiting
  core : Nat := 0
  slot : Nat := 0
  core2 : Nat := 0
  slot2 : Nat := 0
  version : Nat := 0
  /-- the entry whose eviction gives its record (R166) -/
  victim : Option Nat := none
  /-- of a twin's run, the time of its last DONE (R182 step 4) -/
  doneAt : Nat := 0
  /-- an abandoned eviction: no victim before its next DONE (R181) -/
  barred : Bool := false
  /-- the messages it holds in the waystation buffer, and those in the waystation ring, in order (R164) -/
  held : List Msg := []
  ring : List Msg := []
  lastDone : Nat := 0
  /-- an ending launch evicts it (R443) -/
  final : Bool := false
  /-- failures of the message at the head of a twin's run, and the first pair (R425) -/
  fails : Nat := 0
  pair1 : Nat × Nat := (0, 0)
  /-- the items of a twin's runs: digests by side with the time each came, the messages of the primary's run, and the ns
  that COMPARE_WINDOW has counted (R173, R174, R423) -/
  digA : List Word := []
  digB : List Word := []
  timesA : List Nat := []
  timesB : List Nat := []
  ran : Nat := 0
  outA : List Msg := []
  doneA : Bool := false
  doneB : Bool := false
  running : Option Msg := none
  deriving DecidableEq, Repr

/-- A message in a core input queue (R162); none is a creator's start (R168). -/
structure InItem where
  core : Nat := 0
  entry : Nat := 0
  msg : Option Msg := none
  tIn : Nat := 0
  deriving DecidableEq, Repr

/-- An entry of a core's profile table (R176, R177). -/
structure ProfE where
  count : Nat := 0
  sender : Nat := 0
  transit : Nat := 0
  wait : Nat := 0
  run : Nat := 0
  deriving DecidableEq, Repr

/-! ### The mesh -/

/-- A multicast packet at a router (R147, R148): the channel it came in by (0 to 3; 4 from the core, 5 from the drover core; 6
the reorder buffer of the core, R141), and, once it has forked, the branches not taken. -/
structure Mcast where
  uid : Nat := 0
  src : Nat := 0
  launch : Nat := 0
  sup : Bool := false
  tag : Nat := 0
  data : Nat := 0
  x0 : Nat := 0
  y0 : Nat := 0
  w : Nat := 0
  h : Nat := 0
  router : Nat := 0
  inp : Nat := 4
  left : Option (List Nat) := none
  /-- the destinations that this copy has yet to bring it to (R150) -/
  dests : List Nat := []
  deriving DecidableEq, Repr

/-- A packet in a core's receive queue (R152). -/
structure RxItem where
  core : Nat := 0
  src : Nat := 0
  tag : Nat := 0
  data : Nat := 0
  deriving DecidableEq, Repr

/-- A line of instruction bytes in a core's instruction cache, or in a cluster's slice (R183). -/
structure ILine where
  owner : Nat := 0
  line : Nat := 0
  val : Nat := 0
  deriving DecidableEq, Repr

/-! ### The host's side -/

/-- A command queue (R116, R117). -/
structure CmdQ where
  base : Nat := 0
  size : Nat := 0
  tail : Nat := 0
  head : Nat := 0
  stopped : Bool := false
  /-- MESSAGE commands numbered (R115) -/
  seq : Nat := 0
  deriving DecidableEq, Repr

/-- A host receive ring (R116, R123). -/
structure RxRing where
  base : Nat := 0
  size : Nat := 0
  prod : Nat := 0
  cons : Nat := 0
  ctl : Word := 0
  token : Word := 0
  deriving DecidableEq, Repr

/-- An open interrupt window (R129): vector, token and when it closes. -/
structure Uli where
  vector : Nat := 0
  token : Word := 0
  closeAt : Nat := 0
  deriving DecidableEq, Repr

/-- A command or an item of the broadcast sequence (R117, R125). -/
inductive ItemKind where
  | launch (manifest : Nat) (vector : Nat) (token : Word)
  | childLaunch (manifest : Nat) (counter : Option Word) (parent : Nat)
  | message (cls sel : Nat) (key : Word) (payload : List Word) (time seq : Nat)
  | endLaunch
  | power (mask : Word) (state : Nat)
  | attest (nonce : List Word) (buf : Nat)
  | teamEnd (core team code : Nat)
  | launchEnd
  deriving DecidableEq, Repr

/-- An item of the broadcast sequence: its number, its source (0 to 15 a command queue, 16 to 19 a die),
its tag and the launch it names. -/
structure Item where
  seq : Nat := 0
  source : Nat := 0
  tag : Nat := 0
  launch : Nat := 0
  kind : ItemKind := .endLaunch
  /-- of a LAUNCH or a MESSAGE, the clock of what is released with it (R331, R334) -/
  clock : List Nat := []
  deriving DecidableEq, Repr

/-- The link's registers (R116). -/
structure Link where
  startKind : Nat := 0
  startAt : Nat := 0
  /-- 0 not started, else the step each die is at -/
  steps : List Nat := [0, 0, 0, 0]
  failed : List Bool := [false, false, false, false]
  started : Bool := false
  startRecord : List Word := List.replicate 32 0
  evqBase : Nat := 0
  evqSize : Nat := 0
  evqProd : Nat := 0
  evqCons : Nat := 0
  uliWindow : Nat := 0
  cqs : List CmdQ := List.replicate 16 { }
  rings : List RxRing := List.replicate 64 { }
  lastQ : Nat := 15
  nextSeq : Nat := 0
  launches : Nat := 0
  /-- events that wait to be written (R120): four words, and after them the vector and the token of the interrupt
  that follows, if one does (R129) -/
  events : List (List Word) := []
  windows : List Uli := []
  /-- the user-level interrupts raised: vector, token, time -/
  raised : List (Nat × Word × Nat) := []
  items : List Item := []
  /-- POWER commands under way: source, tag, the clusters still to reach the state, the state -/
  powers : List (Nat × Nat × List Nat × Nat) := []
  /-- what the last read of device memory by the host returned -/
  readData : Nat := 0
  /-- the clock of the writes to device memory that the host has performed (R334) -/
  released : List Nat := []
  deriving DecidableEq, Repr

/-- A page on the move (R281, R282). -/
inductive MovePhase where
  | copy
  | recopy (n : Nat)
  | final
  deriving DecidableEq, Repr

/-- The move of a page: its die, class and leaf pair, its source and destination frames, the granule of the destination, its
phase and the units marked. -/
structure PageMove where
  die : Nat := 0
  cls : Nat := 0
  vpn : Nat := 0
  pair : Nat := 0
  src : Nat := 0
  dst : Nat := 0
  gran : Nat := 0
  phase : MovePhase := .copy
  marked : List Nat := []
  deriving DecidableEq, Repr

/-- A containment under way or standing (R420, R421): its rectangles, the cores that failed, the launches
that had work there, the strands that held capsules open, and whether its cores have been reset. -/
structure Contain where
  rects : List RectD := []
  cores : List Nat := []
  launches : List Nat := []
  holders : List Strand := []
  /-- entries whose handlers it stopped (R422) -/
  running : List Nat := []
  resetDone : Bool := false
  deriving DecidableEq, Repr

/-- A strand away from its slot (R200, R202): forced-saved or swapped out, when, and the number of its context record among
those of its die. -/
structure Saved where
  t : Strand := { }
  swap : Bool := false
  at' : Nat := 0
  record : Nat := 0
  /-- the JWAIT or PRECV, or the wait, that it was stalled in, which it executes again: its waiter record is withdrawn (R341) -/
  recv : Option Pend := none
  wait : Option WaitRec := none
  deriving DecidableEq, Repr

/-- The tile table of a displaced team (R201): the entries, and the numbers of the four records that hold them. -/
structure SavedTiles where
  core : Nat := 0
  launch : Nat := 0
  tiles : List Word := []
  recs : List Nat := []
  deriving DecidableEq, Repr

/-- A report the drover core of a die receives from the hardware: a cause and a value (R392, R408); of a pair that has failed
twice, the cores of the first pair (R425). -/
structure DroverNote where
  die : Nat := 0
  cause : Nat := 0
  core : Nat := 0
  core2 : Option Nat := none
  info : Word := 0
  deriving DecidableEq, Repr

/-- One move of a schedule: which strand issues next, or which step of the machine's own comes next and
which piece of work it acts on, and how far the two clocks have moved. -/
inductive Move where
  | issue (core slot dCycles dNs : Nat)
  | event (e : Instr) (pick : List Nat) (dCycles dNs : Nat)
  deriving DecidableEq, Repr

/-- The state of the machine. -/
structure State where
  /-- the strand that issues -/
  cur : Strand := { }
  /-- the other strands in slots -/
  strands : List Strand := []
  tape : List Move := []
  pick : List Nat := []
  stalled : Bool := false
  cycles : Nat := 0
  timeNs : Nat := 0
  nextUid : Nat := 1
  tick : Nat := 0
  /-- device memory: die * 2^42 + tier * 2^41 + the byte's address in the tier -/
  hbm : List Host.Cell := []
  /-- the scratchpads: core * 2^18 + the byte's address -/
  spad : List Host.Cell := []
  /-- host memory, by bus address (R122) -/
  host : List Host.Cell := []
  dies : Vector Die 4 := Vector.replicate 4 { }
  clusters : Vector Cluster 64 := Vector.replicate 64 { }
  cores : List Core := []
  sfu : List SfuEntry := []
  recs : List RecEntry := []
  /-- forwards that have not landed -/
  fwds : List Fwd := []
  /-- the cores that are fused off or retired (R156, R157) -/
  dead : List Nat := []
  launches : List Launch := []
  holds : List Hold := []
  regions : List RegionSet := []
  areas : List AreaD := []
  shadows : List Shadow := []
  /-- the clock of the last write of a byte of device memory, by key, while some die has not applied it (R320, R325), and
  the same of host memory, by address -/
  lastW : List (Nat × List Nat) := []
  hostW : List (Nat × List Nat) := []
  behind : List Behind := []
  slices : List SliceByte := []
  updates : List Update := []
  stores : List Store := []
  faultMsgs : List FaultMsg := []
  nextPos : Nat := 1
  pends : List Pend := []
  nops : List NOp := []
  /-- the rectangles that containment has fenced (R154) -/
  fenced : List RectD := []
  /-- the cores that the fuses mark (R156), the address at which a boot strand starts, and the address of the image it
  is given (R262): fixed outside the machine -/
  fusedCores : List Nat := []
  bootEntry : Word := 0
  bootImage : Word := 0
  /-- ranges of host addresses (first, bytes) that the host refuses (R122) -/
  hostDeny : List (Nat × Nat) := []
  notes : List DroverNote := []
  msgs : List Msg := []
  /-- the die-local logical index of each live core that has one (R63, R131) -/
  logical : List (Nat × Nat) := []
  /-- the addresses that the engines hold capsule records of, and those whose STATE is HELD (R366) -/
  records : List Nat := []
  heldRecs : List Nat := []
  /-- the size class in which a record was last reached by a capsule operation (R270) -/
  recCls : List (Nat × Nat) := []
  /-- capsule records that failed beyond correction (R415) -/
  failedRecs : List Nat := []
  /-- units of device memory that are uncorrectable (R417): the key of the first byte, the bytes -/
  badUnits : List (Nat × Nat) := []
  /-- pseudo-channels, of LPDDR-6 sub-channels, that are lost (R418): die, tier, number -/
  lost : List (Nat × Nat × Nat) := []
  /-- the frames of pages with another GRAN than G32 (R277): their key, their bytes, the GRAN -/
  grans : List (Nat × Nat × Nat) := []
  /-- corrected codewords of frames since the last start, and the frames retired (R418): by key -/
  frameErrs : List (Nat × Nat) := []
  retired : List Nat := []
  /-- words and vertical rows of the scratchpads that hold flipped bits (R412, R413), and those that are uncorrectable (R414) -/
  softErrs : List SoftErr := []
  badWords : List SoftErr := []
  /-- the counters of the SRAM banks (R416) -/
  banks : List BankCount := []
  waits : List WaitRec := []
  syncs : List SyncReq := []
  markers : List Marker := []
  counters : List Counter := []
  queues : List Queue := []
  deqWaiters : List DeqWaiter := []
  enqs : List EnqMsg := []
  acks : List AckMsg := []
  /-- credits of R140 on their way back: source die, cluster -/
  creditRets : List (Nat × Nat) := []
  /-- the rotating pointers of the dispatchers, by cluster and level (R189) -/
  pointers : List (Nat × Nat × Nat) := []
  channels : List Channel := []
  pipeItems : List PipeItem := []
  /-- pipe credits on their way back: launch, pipe, channel -/
  pipeCredits : List (Nat × Nat × Nat) := []
  jobs : List Job := []
  late : List LateStore := []
  mxCmds : List MxCmd := []
  opCache : List OpBlock := []
  samples : List Sample := []
  auditAdds : List AuditAdd := []
  /-- messages sent by the audit engines (R115), by octet -/
  auditSeqs : List (Nat × Nat) := []
  /-- ICINVs whose invalidations are not all acknowledged: strand, scope, first line, lines -/
  icinvs : List (Nat × Nat × Nat × Nat) := []
  entries : List Entry := []
  inq : List InItem := []
  /-- credits of core input queues on their way back, by core (R162) -/
  inqRets : List Nat := []
  profiles : List (Nat × ProfE) := []
  /-- the ports that the full waystation ring has stopped, 4 * die + port, when each stopped, and the launches whose
  messages wait there (R165, R181) -/
  wsFull : List (Nat × Nat × List Nat) := []
  wsCount : List Nat := [0, 0, 0, 0]
  mcasts : List Mcast := []
  rxq : List RxItem := []
  /-- occupancy counts other than 0: router, region, count (R143) -/
  occ : List (Nat × Nat × Nat) := []
  icache : List ILine := []
  islices : List ILine := []
  link : Link := { }
  moves : List PageMove := []
  contains : List Contain := []
  saved : List Saved := []
  savedTiles : List SavedTiles := []
  /-- receive buffers of pipes of displaced teams (R389): core, launch, pipe, bytes -/
  savedBufs : List (Nat × Nat × Nat × Nat) := []
  /-- clusters the cross-trigger network is to halt or resume (R428, R430) -/
  xtNet : List (Nat × Bool) := []
  /-- DEADLOCK sets reported: launch and members (R357) -/
  deadlocks : List (Nat × List Nat) := []
  /-- the package routing table and this package's own number as the host has written them into the boot flash (R175) -/
  flashRoutes : List Nat := List.replicate 256 0
  flashPackage : Nat := 0
  /-- the firmware image in the boot flash, where its code is entered, and the digest of the vendor key that the fuses hold
  (R130, R133) -/
  flashImage : List Nat := emptyImage
  flashEntry : Addr := 0
  fuseVendor : Nat := emptyKeyDigest
  deriving DecidableEq, Repr

/-- The machine right after reset. -/
def State.reset : State := { }

end Sys2Proof.Machine
end

