-- ==== Sys2Proof/Machine/Ops.lean ====
section
/-! DEFINITION. The named operations over memory and registers: bytes and their canonical lists, a
strand's registers, translation at the owner die (R272, R274), the die views and the writes that travel
between them (R317 to R321), the parking of a capsule (R378), taking a trap (R392, R396) and returning
from one (R58). -/

namespace Sys2Proof.Machine

/-! ### Bytes -/

/-- What an address that a memory does not list reads as (the assumption log, 3). -/
def unlisted : Byte := 0

/-- One byte of a memory. -/
def Mem.get : List Host.Cell → Nat → Byte
  | [], _ => unlisted
  | (k, v) :: t, a => if a = k then v else if a < k then unlisted else Mem.get t a

/-- A write of one byte; the list stays sorted and lists no byte that reads as an unlisted one. -/
def Mem.set : List Host.Cell → Nat → Byte → List Host.Cell
  | [], a, x => if x = unlisted then [] else [(a, x)]
  | (k, v) :: t, a, x =>
    if a < k then (if x = unlisted then (k, v) :: t else (a, x) :: (k, v) :: t)
    else if a = k then (if x = unlisted then t else (a, x) :: t)
    else (k, v) :: Mem.set t a x

/-- Every address listed is above `lo`, addresses rise strictly, and no entry is an unlisted byte. -/
def Mem.sorted : Nat → List Host.Cell → Bool
  | _, [] => true
  | lo, (k, v) :: t => decide (lo ≤ k) && decide (v ≠ unlisted) && Mem.sorted (k + 1) t

/-- The canonical form of a memory. -/
def Mem.wf (m : List Host.Cell) : Bool := Mem.sorted 0 m

/-- Byte `i` of a value, low byte first (R3). -/
def byteOf (v i : Nat) : Byte := BitVec.ofNat 8 (v / 256 ^ i)

/-- `n` bytes from `a`, low byte first (R3). -/
def Mem.read (m : List Host.Cell) (a : Nat) : Nat → Nat
  | 0 => 0
  | n + 1 => (Mem.get m a).toNat + 256 * Mem.read m (a + 1) n

/-- A write of `n` bytes of `v` at `a`, low byte first. -/
def Mem.write (m : List Host.Cell) (a : Nat) : Nat → Nat → List Host.Cell
  | 0, _ => m
  | n + 1, v => Mem.write (Mem.set m a (BitVec.ofNat 8 v)) (a + 1) n (v / 256)

/-- The bits of `old` that `mask` selects, replaced by those of `new` (R246). -/
def blend (old new mask : Nat) : Nat := (old ^^^ ((old ^^^ new) &&& mask))

/-- All bits of `n` bytes. -/
def fullMask (n : Nat) : Nat := 256 ^ n - 1

/-! ### A strand's registers -/

/-- A change of one g or k register. -/
def Strand.onReg (t : Strand) (n : Nat) (f : Reg → Reg) : Strand :=
  if h : n < 56 then { t with gk := t.gk.set n (f (t.gk[n]'h)) h } else t

/-- A change of one v register. -/
def Strand.onV (t : Strand) (n : Nat) (f : VReg → VReg) : Strand :=
  if h : n < 32 then { t with v := t.v.set n (f (t.v[n]'h)) h } else t

/-- The value a write leaves: full, no producer pending, no tag (R399); the forward mark stays (R237). -/
def Reg.put (r : Reg) (x : Word) : Reg := { r with val := x, full := true, pend := false, tag := none }

/-- A long-latency producer is pending on the register (R26). -/
def Reg.wait (r : Reg) : Reg := { r with full := false, pend := true, tag := none }

/-- A fault tag arrives in place of a result (R259). -/
def Reg.fail (r : Reg) (g : Tag) : Reg := { r with full := true, pend := false, tag := some g }

/-- As `Reg.put`. -/
def VReg.put (r : VReg) (x : Row) : VReg := { r with val := x, full := true, pend := false, tag := none }

/-- As `Reg.wait`. -/
def VReg.wait (r : VReg) : VReg := { r with full := false, pend := true, tag := none }

/-- As `Reg.fail`. -/
def VReg.fail (r : VReg) (g : Tag) : VReg := { r with full := true, pend := false, tag := some g }

/-- An interlocked write that lands later (R193): no empty bit shows it. -/
def VReg.book (r : VReg) : VReg := { r with full := true, pend := true, tag := none }

/-- A g or k register by number. -/
def Strand.reg (t : Strand) (n : Nat) : Reg := if h : n < 56 then t.gk[n]'h else { }

/-- A v register by number. -/
def Strand.vreg (t : Strand) (n : Nat) : VReg := if h : n < 32 then t.v[n]'h else { }

/-- The value a 6-bit specifier reads (R23): g0 to g47 and k0 to k7, the last results y0 to y3, and z,
which reads 0. 61 to 63 name nothing; an instruction that uses them traps before it reads. -/
def Strand.val (t : Strand) (spec : BitVec 6) : Word :=
  if spec.toNat < 56 then (t.reg spec.toNat).val
  else if h : spec.toNat - 56 < 4 then t.y[spec.toNat - 56]'h
  else 0

/-- A write to the register a specifier names (R23); z discards the value. -/
def Strand.setG (t : Strand) (spec : BitVec 6) (x : Word) : Strand :=
  t.onReg spec.toNat (fun r => r.put x)

/-- The result becomes y0, and the older results move down; y3 is lost (R25). -/
def Strand.enterY (t : Strand) (x : Word) : Strand :=
  { t with y := #v[x, t.y[0], t.y[1], t.y[2]] }

/-- A result of the scalar pipe: written, and entered into the last-result file (R25). -/
def Strand.result (t : Strand) (spec : BitVec 6) (x : Word) : Strand :=
  (t.enterY x).setG spec x

/-- A write of a v register. -/
def Strand.setV (t : Strand) (n : Nat) (x : Row) : Strand := t.onV n (fun r => r.put x)

/-- A mask register (R24). -/
def Strand.mask (t : Strand) (n : BitVec 3) : BitVec 128 := t.m[n.toNat]'(by omega)

/-- A write of a mask register. -/
def Strand.setM (t : Strand) (n : BitVec 3) (x : BitVec 128) : Strand :=
  { t with m := t.m.set n.toNat x (by omega) }

/-- An operand-extension register (R29). -/
def Strand.ext (t : Strand) (n : BitVec 3) : Word := t.e[n.toNat]'(by omega)

/-- A write of an operand-extension register. -/
def Strand.setE (t : Strand) (n : BitVec 3) (x : Word) : Strand :=
  { t with e := t.e.set n.toNat x (by omega) }

/-- The program counter moves past an instruction of `len` bytes; addresses are modulo 2^48 (R45). -/
def Strand.advance (t : Strand) (len : Nat) : Strand :=
  { t with pc := t.pc + BitVec.ofNat 48 len }

/-- A change of the strand that issues. -/
def State.onCur (s : State) (f : Strand → Strand) : State := { s with cur := f s.cur }

/-- `f` applied to the strands of a list that `p` picks. -/
def mapIf (p : Strand → Bool) (f : Strand → Strand) : List Strand → List Strand
  | [] => []
  | t :: ts => (if p t then f t else t) :: mapIf p f ts

/-- `f` applied to the saved strands that `p` picks. -/
def mapSaved (p : Strand → Bool) (f : Strand → Strand) : List Saved → List Saved
  | [] => []
  | v :: vs => (if p v.t then { v with t := f v.t } else v) :: mapSaved p f vs

/-- A change of every strand that `p` picks, the issuing one and those saved out of their slots included. -/
def State.onStrands (s : State) (p : Strand → Bool) (f : Strand → Strand) : State :=
  { s with
    cur := if p s.cur then f s.cur else s.cur
    strands := mapIf p f s.strands
    saved := mapSaved p f s.saved }

/-- A change of the strand with a uid. -/
def State.onUid (s : State) (u : Nat) (f : Strand → Strand) : State :=
  s.onStrands (fun t => t.live && t.uid == u) f

/-- Every strand in a slot. -/
def State.all (s : State) : List Strand := (s.cur :: s.strands).filter (·.live)

/-- The strand with a uid. -/
def State.byUid (s : State) (u : Nat) : Option Strand := s.all.find? (fun t => t.uid == u)

/-- The strand in a slot. -/
def State.bySlot (s : State) (core slot : Nat) : Option Strand :=
  s.all.find? (fun t => t.core == core && t.slot == slot)

/-- Argument `i` of a step of the machine's own, as the schedule gives it. -/
def State.arg (s : State) (i : Nat) : Nat := s.pick.getD i 0

/-- The strand that issues now waits inside the instruction of `len` bytes (R395). -/
def State.await (s : State) (kind : WaitKind) (n len : Nat) : State :=
  s.onCur (fun t => { t with wait := { kind := kind, n := n, since := s.cycles, len := len } })

/-- An instruction has issued whose result comes with a reply: an empty destination has a write pending (R28). -/
def Strand.book (t : Strand) (d : BitVec 6) : Strand :=
  t.onReg d.toNat (fun r => if r.full then r else { r with pend := true })

/-- An instruction that waited for a reply is given up: an empty k register that no producer in flight names awaits its
forward again (R28, R237). -/
def State.unbook (s : State) (t : Strand) : Strand :=
  ((List.range 8).map (· + 48)).foldl (fun (t : Strand) c =>
    if s.pends.any (fun p => p.strand == t.uid && p.dst == c) then t
    else t.onReg c (fun r => if r.full then r else { r with pend := false })) t

/-- A marked register as it was before an instruction that is withdrawn, or that traps, emptied it (R242, R394). DESIGN CHOICE
(log entry 65): where another forward has landed in it meanwhile, that one's value stays and the first is lost; the manual
does not say which value the instruction then reads. -/
def Strand.refill (t : Strand) (c : Nat) : Strand :=
  if c < 56 then t.onReg c (fun r => { r with full := true }) else t.onV (c - 64) (fun r => { r with full := true })

/-- The marked k registers that an instruction has emptied; `t0` is the strand at its issue. -/
def Strand.emptiedCells (t t0 : Strand) : List Nat :=
  ((List.range 8).map (· + 48)).filter (fun c => (t0.reg c).full && (t0.reg c).mark && !(t.reg c).full)

/-- The wait of an instruction that has issued keeps which k registers of `t0`, the strand at issue, it has emptied. -/
def Strand.emptied (t t0 : Strand) : Strand := { t with wait := { t.wait with cells := t.emptiedCells t0 } }

/-- A stall has ended: a PARKED strand is in RUN again, and one that was PARKED when it halted returns to RUN (R185, R430). -/
def Strand.unpark (t : Strand) : Strand :=
  { t with
    run := if t.run = .parked then .run else t.run
    before := if t.before = .parked then .run else t.before }

/-- A strand is inside no instruction that has issued, and no stall of it counts. -/
def Strand.unstall (t : Strand) : Strand :=
  { t.unpark with wait := { }, stallSince := none, starved := [], stallIn := [] }

/-- A strand's wait ends, and its instruction is complete. -/
def Strand.wake (t : Strand) : Strand := { (t.advance t.wait.len).unpark with wait := { } }

/-- A fresh number for a strand or a piece of work in flight. -/
def State.fresh (s : State) : State := { s with nextUid := s.nextUid + 1 }

/-- A free value of the machine, and the counter that makes the next one another. -/
def State.freeWord (s : State) : Word := Config.freeWord s.tick

/-- The word TRAP_INFO reports for an instruction: its own bits, zero-extended (R39). -/
def wordOf (i : Instr) : Word := BitVec.ofNat 64 (joinHalves (encode i))

/-- IN_TRAP is bit 8 of STATUS and SV_STATUS (R64). -/
def inTrap (st : Word) : Bool := st.getLsbD 8

/-- IN_TRAP set or cleared. -/
def setInTrap (st : Word) (b : Bool) : Word :=
  if b then st ||| 0x100 else st &&& ~~~0x100

/-- The status register of the strand's mode (R64). -/
def Strand.modeStatus (t : Strand) : Word :=
  match t.mode with
  | .launch => t.status
  | .supervisor => t.svStatus

/-- Flags ORed into the status register of the strand's mode (R64, R77). -/
def Strand.orFlags (t : Strand) (fl : Word) : Strand :=
  match t.mode with
  | .launch => { t with status := t.status ||| fl }
  | .supervisor => { t with svStatus := t.svStatus ||| fl }

/-- The bits an address register keeps, [47:1] (R63). -/
def pcBits (x : Word) : Word := x &&& 0x0000FFFFFFFFFFFE

/-! ### The geometry of the package -/

/-- The die a core lies on (R12). Cores are numbered 64 * Y + X in package coordinates. -/
def dieOf (core : Nat) : Nat := if core < 4096 then (core % 64) / 32 + 2 * (core / 64 / 32) else core - 8192

/-- The number that stands for the drover core of a die (R14): it is none of the mesh's cores, and has no logical index. -/
def droverCore (d : Nat) : Nat := 8192 + d

/-- The package cluster number of a core (R13). -/
def clusterOf (core : Nat) : Nat :=
  16 * dieOf core + 4 * (core / 64 % 32 / 8) + core % 32 / 8

/-- Whether a core of the mesh is in a cluster; a drover core is in none (R14). -/
def inCluster (c core : Nat) : Bool := decide (core < 4096) && clusterOf core == c

/-- The octet of a core (R13). -/
def octetOf (core : Nat) : Nat := 8 * clusterOf core + core / 64 % 8

/-- The die whose memory holds an address (R15, R268). -/
def ownerOf (a : Nat) : Nat := a / 2 ^ 50 % 4

/-- The die of a cluster. -/
def dieOfCluster (c : Nat) : Nat := c / 16

/-! ### Dies, launches and their registers -/

/-- A die. -/
def State.die (s : State) (d : Nat) : Die := if h : d < 4 then s.dies[d]'h else { }

/-- A change of a die. -/
def State.onDie (s : State) (d : Nat) (f : Die → Die) : State :=
  if h : d < 4 then { s with dies := s.dies.set d (f (s.dies[d]'h)) h } else s

/-- A cluster. -/
def State.cluster (s : State) (c : Nat) : Cluster := if h : c < 64 then s.clusters[c]'h else { }

/-- A change of a cluster. -/
def State.onCluster (s : State) (c : Nat) (f : Cluster → Cluster) : State :=
  if h : c < 64 then { s with clusters := s.clusters.set c (f (s.clusters[c]'h)) h } else s

/-- Whether the cluster of a core is halted (R428). -/
def State.coreFrozen (s : State) (core : Nat) : Bool := decide (core < 4096) && (s.cluster (clusterOf core)).frozen

/-- A core's own registers; a core no launch has touched has their reset values (R63). -/
def State.core (s : State) (id : Nat) : Core :=
  (s.cores.find? (fun c => c.id == id)).getD { id := id }

/-- A change of a core's own registers. -/
def State.onCore (s : State) (id : Nat) (f : Core → Core) : State :=
  { s with cores := f (s.core id) :: s.cores.filter (fun c => c.id != id) }

/-- A launch by its identifier. -/
def State.launch? (s : State) (id : Nat) : Option Launch := s.launches.find? (fun l => l.id == id)

/-- The REGION registers of a launch on a core (R63, R270). -/
def State.regionsOf (s : State) (core launch : Nat) : List Word :=
  match s.regions.find? (fun r => r.core == core && r.launch == launch) with
  | some r => r.regs
  | none => []

/-- Whether a REGION register contains an address (R271). -/
def regionHas (r : Word) (a : Nat) : Bool :=
  r.getLsbD 63 && (a % 2 ^ 52) / 2 ^ (r.toNat / 2 ^ 52 % 64) == (r.toNat % 2 ^ 52) / 2 ^ (r.toNat / 2 ^ 52 % 64)

/-- The size class REGION registers give an address: SUB of the region that contains it, else 0 (R271). -/
def classIn (regs : List Word) (a : Nat) : Nat :=
  match regs.find? (fun r => regionHas r a) with
  | some r => if r.getLsbD 62 then 1 else 0
  | none => 0

/-! ### Translation at the owner die -/

/-- A leaf pair (R273). -/
structure Leaf where
  r : Bool := true
  w : Bool := true
  x : Bool := true
  gran : Nat := 0
  tier : Nat := 0
  pin : Bool := false
  mig : Bool := false
  frame : Nat := 0
  mask : Word := 0
  deriving DecidableEq, Repr

/-- The key of a byte of device memory. -/
def hbmKey (d tier a : Nat) : Nat := d * 2 ^ 42 + tier * 2 ^ 41 + a

/-- The bytes a tier of a die holds (R1, R273). -/
def tierBytes (tier : Nat) : Nat := if tier = 0 then 128000000000 else 1024000000000

/-- A doubleword of a die's HBM. -/
def State.hbmD (s : State) (d a : Nat) : Nat := Mem.read s.hbm (hbmKey d 0 a) 8

/-- The table a pointer doubleword names, if V is set (R272). -/
def ptrOf (p : Nat) : Option Nat := if p / 2 ^ 63 % 2 = 1 then some (p / 4096 % 2 ^ 40 * 4096) else none

/-- A leaf entry and its companion word (R273); none where V = 0 or the frame lies beyond its tier. -/
def leafOf (e mask : Nat) : Option Leaf :=
  let f := e / 2 ^ 10 % 2 ^ 31 * 1024
  let tier := e / 2 ^ 57 % 2
  if e / 2 ^ 63 % 2 = 1 ∧ f < tierBytes tier then
    some { r := e / 2 ^ 62 % 2 == 1, w := e / 2 ^ 61 % 2 == 1, x := e / 2 ^ 60 % 2 == 1,
           gran := e / 2 ^ 58 % 4, tier := tier, pin := e / 2 ^ 56 % 2 == 1, mig := e / 2 ^ 55 % 2 == 1,
           frame := f, mask := BitVec.ofNat 64 mask }
  else none

/-- The address of the leaf pair of an offset in the table tree of a class (R272). -/
def State.pairAddr (s : State) (d cls off : Nat) : Option Nat :=
  if cls = 0 then
    match ptrOf (s.hbmD d ((s.die d).root0 + 8 * (off / 2 ^ 35 % 2 ^ 15))) with
    | some t => some (t + 16 * (off / 2 ^ 21 % 2 ^ 14))
    | none => none
  else
    match ptrOf (s.hbmD d ((s.die d).root1 + 8 * (off / 2 ^ 35 % 2 ^ 15))) with
    | some t =>
      match ptrOf (s.hbmD d (t + 8 * (off / 2 ^ 21 % 2 ^ 14))) with
      | some u => some (u + 16 * (off / 2 ^ 10 % 2 ^ 11))
      | none => none
    | none => none

/-- Bytes of a page of a class (R270). -/
def pageBytes (cls : Nat) : Nat := if cls = 0 then 2 ^ 21 else 2 ^ 10

/-- The pair that a die's TLB holds for an offset in a class (R269). -/
def Die.cached (d : Die) (cls off : Nat) : Option TlbPair :=
  d.tlb.find? (fun p => p.cls == cls && p.vpn == off / pageBytes cls)

/-- The leaf entry and companion word of an offset in a class (R269): from the TLB, else by a walk of the tables (R272);
none where a pointer on the way has V = 0. -/
def State.pairOf (s : State) (d cls off : Nat) : Option TlbPair :=
  match (s.die d).cached cls off with
  | some p => some p
  | none =>
    (s.pairAddr d cls off).map (fun p =>
      { cls := cls, vpn := off / pageBytes cls, entry := s.hbmD d p, mask := s.hbmD d (p + 8) })

/-- The leaf of an address in a class (R272, R273); during a start, the start map (R262), which maps every
offset below the HBM's capacity to itself. -/
def State.leaf (s : State) (cls a : Nat) : Option Leaf :=
  let d := ownerOf a
  let off := a % 2 ^ 50
  if (s.die d).startMap then
    (if off < tierBytes 0 then some { frame := off, mask := BitVec.allOnes 64 } else none)
  else (s.pairOf d cls off).bind (fun p => leafOf p.entry p.mask)

/-- Pairs of a TLB (R269). -/
def tlbPairs : Nat := 16384

/-- What a translation of an address leaves (R269, R273): a pair that missed is held in the TLB; of a frame at or above the
tier's capacity the drover core receives a report, with cause 0 and the address. -/
def State.touch (s : State) (cls a : Nat) : State :=
  let d := ownerOf a
  let off := a % 2 ^ 50
  if (s.die d).startMap || ((s.die d).cached cls off).isSome then s
  else
    match s.pairOf d cls off with
    | none => s
    | some p =>
      if p.entry / 2 ^ 63 % 2 = 0 then s
      else if (leafOf p.entry p.mask).isSome then s.onDie d (fun x => { x with tlb := (p :: x.tlb).take tlbPairs })
      else { s with notes := s.notes ++ [{ die := d, info := BitVec.ofNat 64 a }] }

/-- A die's drover core invalidates a pair in its TLB (R269). -/
def State.untouch (s : State) (d cls vpn : Nat) : State :=
  s.onDie d (fun x => { x with tlb := x.tlb.filter (fun p => !(p.cls == cls && p.vpn == vpn)) })

/-- The byte a leaf maps an address to (R274 step 7). -/
def Leaf.key (l : Leaf) (startMap : Bool) (cls a : Nat) : Nat :=
  if startMap then hbmKey (ownerOf a) l.tier l.frame
  else hbmKey (ownerOf a) l.tier (l.frame + (if cls = 0 then a % 2 ^ 21 else a % 2 ^ 10))

/-- A requester, as the owner die sees it (R274): its launch, its package cluster, whether it is in
supervisor mode, whether it is a drover core, and the size class its request carries (R270). -/
structure Req where
  launch : Nat := 0
  cluster : Nat := 0
  sup : Bool := false
  drover : Bool := false
  cls : Nat := 0
  deriving DecidableEq, Repr

/-- What an access needs of its page (R274 step 4). -/
inductive Need where
  | r
  | w
  | rw
  | x
  deriving DecidableEq, Repr

/-- Cause codes (R393). -/
def Cause.illegal : Nat := 0x01
def Cause.illegalReg : Nat := 0x02
def Cause.emptySource : Nat := 0x03
def Cause.misaligned : Nat := 0x04
def Cause.leaseBreach : Nat := 0x05
def Cause.protection : Nat := 0x06
def Cause.storeFault : Nat := 0x07
def Cause.peerLost : Nat := 0x08
def Cause.scaleWindow : Nat := 0x09
def Cause.actorBound : Nat := 0x0A
def Cause.capsuleLimit : Nat := 0x0B
def Cause.breakpoint : Nat := 0x0C
def Cause.noNeighbour : Nat := 0x0E
def Cause.uncorrectable : Nat := 0x10
def Cause.twinMismatch : Nat := 0x11
def Cause.forcedSaveResume : Nat := 0x12

/-- Whether an address lies in a debug-module window (R426) or a parameter window (R112). -/
def inWindow (a : Nat) : Bool :=
  let off := a % 2 ^ 50
  decide (a < 2 ^ 52)
    && ((0x3FFFFFFF00000 ≤ off && off < 0x3FFFFFFF00000 + 0x20000)
      || (0x3FFFFFFC00000 ≤ off && off < 0x3FFFFFFC00000 + 0x200000))

/-- Where the firmware's own tables begin in a die's HBM; below it, a page has the frame of its own offset. -/
def tableBase : Nat := 2 ^ 36

/-- Where the context records of a die begin (R202), behind the first tables, the bytes from one to the next, and how many the
drover core keeps room for. -/
def ctxBase : Nat := tableBase + 2 ^ 19
def ctxStride : Nat := 6144
def ctxCount : Nat := 2 ^ 17

/-- Whether an address lies among the context records and their annexes (R202, R203). -/
def inContext (a : Nat) : Bool := ctxBase ≤ a % 2 ^ 50 && a % 2 ^ 50 < ctxBase + ctxStride * ctxCount

/-- Whether an address lies in a lease of a launch (R274 step 1). -/
def State.leased (s : State) (launch a : Nat) : Bool :=
  match s.launch? launch with
  | some l => l.m.leases.any (fun e => e.base ≤ a && a < e.base + e.len)
  | none => false

/-- Whether the leaf's bits allow what the access needs. -/
def Leaf.allows (l : Leaf) (n : Need) : Bool :=
  match n with
  | .r => l.r
  | .w => l.w
  | .rw => l.r && l.w
  | .x => l.x

/-- Whether an access writes. -/
def Need.writes (n : Need) : Bool :=
  match n with
  | .r => false
  | .w => true
  | .rw => true
  | .x => false

/-- The checks of R274 on one address, in order: the key of the byte, or the cause. An address with a
bit above 51 set fails translation (R257). -/
def State.translate (s : State) (q : Req) (n : Need) (a : Nat) : Except Nat Nat :=
  if 2 ^ 52 ≤ a then .error Cause.protection
  else if inWindow a then .error Cause.protection
  else if inContext a && !q.sup then .error Cause.protection
  else if !q.sup && !s.leased q.launch a then .error Cause.leaseBreach
  else
    match s.leaf q.cls a with
    | none => .error Cause.protection
    | some l =>
      if !l.allows n then .error Cause.protection
      else if !q.sup && !l.mask.getLsbD q.cluster then .error Cause.protection
      else if n.writes && s.heldRecs.contains (a / 128 * 128) then .error Cause.protection
      else .ok (l.key (s.die (ownerOf a)).startMap q.cls a)

/-- The keys of `n` bytes from one address within a page. -/
def keysFrom (k : Nat) : Nat → List Nat
  | 0 => []
  | n + 1 => k :: keysFrom (k + 1) n

/-- The keys of the bytes of an access, each checked; consecutive where one page holds them all. -/
def State.keysEach (s : State) (q : Req) (n : Need) (a : Nat) : Nat → Except Nat (List Nat)
  | 0 => .ok []
  | k + 1 =>
    match s.translate q n a with
    | .error e => .error e
    | .ok x =>
      match s.keysEach q n (a + 1) k with
      | .error e => .error e
      | .ok t => .ok (x :: t)

/-- The keys of the `size` bytes of an access, or the cause of its fault (R274). -/
def State.keys (s : State) (q : Req) (n : Need) (a size : Nat) : Except Nat (List Nat) :=
  if a / 128 = (a + size - 1) / 128 ∨ (a / 1024 = (a + size - 1) / 1024 ∧ n.writes = false) then
    match s.translate q n a with
    | .error e => .error e
    | .ok k => .ok (keysFrom k size)
  else s.keysEach q n a size

/-- The requester a strand is (R270): its launch, its cluster, its mode, the class its core's REGION
registers of its launch give the address. -/
def State.reqOf (s : State) (core launch : Nat) (sup drover : Bool) (a : Nat) : Req :=
  { launch := launch, cluster := clusterOf core, sup := sup, drover := drover,
    cls := classIn (s.regionsOf core launch) a }

/-- The requester of a strand's own access. -/
def State.reqCur (s : State) (t : Strand) (a : Nat) : Req :=
  s.reqOf t.core t.launch (t.mode == .supervisor) (t.kind == .drover) a

/-- Whether the pages of a launch's leases are mapped, and not yet released (R124, R446). -/
def Launch.mapped (l : Launch) : Bool :=
  match l.stage with
  | .live => true
  | .ending => true
  | _ => false

/-- The class in which the page of a lease is mapped (R275), for requests no core issues (R270). -/
def State.ownerClass (s : State) (a : Nat) : Nat :=
  match s.launches.find? (fun l => l.mapped && l.m.leases.any (fun e => e.base ≤ a && a < e.base + e.len)) with
  | some l => classIn l.m.regions a
  | none => 0

/-- The requester of an access that the owner die itself classes (R270): it skips steps 1 and 5. -/
def State.reqOwner (s : State) (a : Nat) : Req := { sup := true, cls := s.ownerClass a }

/-! ### Die views -/

/-- The value of a byte in a die's view (R318): the remote shadow where one stands, else the owner's
memory. -/
def State.viewByte (s : State) (d a key : Nat) : Byte :=
  match s.shadows.find? (fun x => x.die == d && x.addr == a) with
  | some x => x.val
  | none => Mem.get s.hbm key

/-- The bytes of an access in a die's view. -/
def State.viewRead (s : State) (d a : Nat) : List Nat → Nat
  | [] => 0
  | k :: ks => (s.viewByte d a k).toNat + 256 * s.viewRead d (a + 1) ks

/-- A byte as a cluster's slice shows it (R317): a write of the cluster still in the slice, else the
die's view. -/
def State.sliceByte (s : State) (c a key : Nat) : Byte :=
  match s.slices.find? (fun x => x.cluster == c && x.addr == a) with
  | some x => BitVec.ofNat 8 (blend (s.viewByte (dieOfCluster c) a key).toNat x.val.toNat x.mask.toNat)
  | none => s.viewByte (dieOfCluster c) a key

/-- The bytes of a team- or convoy-scope access. -/
def State.sliceRead (s : State) (c a : Nat) : List Nat → Nat
  | [] => 0
  | k :: ks => (s.sliceByte c a k).toNat + 256 * s.sliceRead c (a + 1) ks

/-- The bytes of the owner's memory. -/
def State.ownRead (s : State) : List Nat → Nat
  | [] => 0
  | k :: ks => (Mem.get s.hbm k).toNat + 256 * s.ownRead ks

/-- A shadow byte set. -/
def setShadow (l : List Shadow) (d a : Nat) (x : Byte) (pos : Nat) (own : Bool) : List Shadow :=
  { die := d, addr := a, val := x, pos := pos, own := own } ::
    l.filter (fun y => !(y.die == d && y.addr == a))

/-- The position in the coherence order of the value a die's view shows for a byte. -/
def State.viewPos (s : State) (d a : Nat) : Nat :=
  match s.shadows.find? (fun x => x.die == d && x.addr == a) with
  | some x => x.pos
  | none => s.nextPos - 1

/-- A byte of a write performed in the view of a die that does not own it (R319): until it is
acknowledged it stands as the die's own. -/
def State.shadowWrite (s : State) (d a : Nat) (v mask : Nat) : List Nat → State
  | [] => s
  | k :: ks =>
    State.shadowWrite
      { s with
        shadows := setShadow s.shadows d a
          (BitVec.ofNat 8 (blend (s.viewByte d a k).toNat (v % 256) (mask % 256))) (s.viewPos d a) true }
      d (a + 1) (v / 256) (mask / 256) ks

/-- The dies that keep their old view of a byte until the write reaches them (R318): the old value is
held in a shadow. -/
def holdOld (s : State) (a key : Nat) : List Nat → List Shadow → List Shadow
  | [], l => l
  | d :: ds, l =>
    if l.any (fun x => x.die == d && x.addr == a) then holdOld s a key ds l
    else holdOld s a key ds ({ die := d, addr := a, val := Mem.get s.hbm key, pos := s.nextPos - 1 } :: l)

/-- A write applied to the owner's memory, byte by byte; the other dies keep the old value in view. -/
def State.ownerBytes (s : State) (others : List Nat) (a : Nat) (v mask : Nat) : List Nat → State
  | [] => s
  | k :: ks =>
    State.ownerBytes
      { s with
        shadows := holdOld s a k others s.shadows
        hbm := Mem.set s.hbm k (BitVec.ofNat 8 (blend (Mem.get s.hbm k).toNat (v % 256) (mask % 256))) }
      others (a + 1) (v / 256) (mask / 256) ks

/-- The clock a write of die `d` carries: the die has applied the write itself (R320). -/
def tickClock (c : List Nat) (d : Nat) : List Nat := c.modify d (· + 1)

/-- Whether every entry of a clock is at most that of another (R320). -/
def clockLe (a b : List Nat) : Bool := [0, 1, 2, 3].all (fun e => decide (a.getD e 0 ≤ b.getD e 0))

/-- The least clock at or above two (R320). -/
def joinClock (a b : List Nat) : List Nat := [0, 1, 2, 3].map (fun e => max (a.getD e 0) (b.getD e 0))

/-- Whether a die has applied every write of a clock (R320). -/
def State.covers (s : State) (d : Nat) (c : List Nat) : Bool := clockLe c (s.die d).clock

/-- Whether every die has. -/
def State.everywhere (s : State) (c : List Nat) : Bool := [0, 1, 2, 3].all (fun d => s.covers d c)

/-- The clock of the writes that last wrote some bytes (R320): all that a read of them at the owner acquires (R325). -/
def lastClock (l : List (Nat × List Nat)) (keys : List Nat) : List Nat :=
  (l.filter (fun x => keys.contains x.1)).foldl (fun (c : List Nat) x => joinClock c x.2) []

/-- The clock of a write, kept for the bytes it wrote, with those of the writes before it: a later value carries what an
earlier one released (R325). -/
def setLast (l : List (Nat × List Nat)) (keys : List Nat) (c : List Nat) : List (Nat × List Nat) :=
  keys.map (fun k => (k, joinClock c (lastClock l [k]))) ++ l.filter (fun x => !keys.contains x.1)

/-- What no die has yet to apply need not be kept. -/
def State.pruneClocks (s : State) : State :=
  { s with
    lastW := s.lastW.filter (fun x => !s.everywhere x.2)
    hostW := s.hostW.filter (fun x => !s.everywhere x.2)
    behind := s.behind.filter (fun b => !s.covers b.die b.clock) }

/-- A die counts a write of die `d` as applied. -/
def State.tickFor (s : State) (at' d : Nat) : State :=
  (s.onDie at' (fun x => { x with clock := tickClock x.clock d })).pruneClocks

/-- Whether a strand's die has applied all that the strand has acquired (R324, R325). -/
def State.caughtUp (s : State) (t : Strand) : Bool := s.covers (dieOf t.core) t.need

/-- A strand acquires what a clock stands for (R324). -/
def Strand.acquire (t : Strand) (c : List Nat) : Strand := { t with need := joinClock t.need c }

/-- The writer's next clock value, counted in its die. -/
def State.tickDie (s : State) (d : Nat) : State := s.tickFor d d

/-- Whether a die has applied every write causally before one of die `w` that carries clock `c`, and
every earlier write of `w` (R320). -/
def State.clockReady (s : State) (at' w : Nat) (c : List Nat) : Bool :=
  [0, 1, 2, 3].all (fun e =>
    if e = w then (s.die at').clock.getD e 0 + 1 == c.getD e 0 else decide (c.getD e 0 ≤ (s.die at').clock.getD e 0))

/-- Units that a write covers whole: it encodes them afresh (R417). -/
def State.repair (s : State) (keys : List Nat) : State :=
  { s with badUnits := s.badUnits.filter (fun b => !((keysFrom b.1 b.2).all (fun k => keys.contains k))) }

/-- Of some keys, those whose bytes a write changes whole. -/
def coveredKeys : Nat → List Nat → List Nat
  | _, [] => []
  | m, k :: ks => if m % 256 = 255 then k :: coveredKeys (m / 256) ks else coveredKeys (m / 256) ks

/-- The condition of a wait on a value of its variable (R340). -/
def WaitRec.holds (w : WaitRec) (x : Nat) : Bool :=
  match w.cond with
  | 0 => x != w.c
  | 1 => x == w.c
  | _ => decide ((x + 2 ^ 32 - w.c) % 2 ^ 32 < 2 ^ 31)

/-- A waiter tested after a write applied at the owner to its variable's 8-byte unit (R341). -/
def WaitRec.retest (s : State) (keys : List Nat) (w : WaitRec) : WaitRec :=
  if w.arrived && w.found == none && keys.any (fun k => w.keys.any (fun j => j / 8 == k / 8))
      && w.holds (s.ownRead w.keys) then
    { w with found := some (s.ownRead w.keys), clock := lastClock s.lastW w.keys }
  else w

/-- A write to a page on the move marks the 64-byte units it touches (R282). -/
def PageMove.mark (keys : List Nat) (m : PageMove) : PageMove :=
  let size := if m.cls = 0 then 2 ^ 21 else 2 ^ 10
  let us := ((keys.filter (fun k => m.src ≤ k && k < m.src + size)).map (fun k => (k - m.src) / 64)).eraseDups
  { m with marked := m.marked ++ us.filter (fun u => !m.marked.contains u) }

/-- Whether a write to these bytes stalls, because their page is in FINAL (R282). -/
def State.frozenKeys (s : State) (keys : List Nat) : Bool :=
  s.moves.any (fun m => m.phase == .final
    && keys.any (fun k => m.src ≤ k && k < m.src + (if m.cls = 0 then 2 ^ 21 else 2 ^ 10)))

/-- A write applied at its owner (R319): it takes the next position in the coherence order, the owner's
memory changes at one instant, the other dies are sent it, waiters are tested (R341), and a move marks
what it touches (R282). -/
def State.applyOwner (s : State) (writer a v mask : Nat) (keys : List Nat) (clock : List Nat) : State :=
  let o := ownerOf a
  let others := [0, 1, 2, 3].filter (fun d => d != o && d != writer)
  let s0 := { s with lastW := setLast s.lastW keys clock }
  let s1 := (s0.ownerBytes others a v mask keys).repair (coveredKeys mask keys)
  let us := others.map (fun d =>
    { kind := .update, die := d, writer := writer, addr := a, size := keys.length, val := v, mask := mask,
      clock := clock, pos := s.nextPos : Update })
  { s1 with nextPos := s.nextPos + 1, updates := s1.updates ++ us, waits := s1.waits.map (WaitRec.retest s1 keys),
            moves := s1.moves.map (PageMove.mark keys) }

/-- The bytes of one of several pieces that are one write. -/
def State.ownerPiece (others : List Nat) (s : State) (q : Nat × Nat × List Nat) : State :=
  let s3 := (s.ownerBytes others q.1 q.2.1 (fullMask q.2.2.length) q.2.2).repair q.2.2
  { s3 with waits := s3.waits.map (WaitRec.retest s3 q.2.2), moves := s3.moves.map (PageMove.mark q.2.2) }

/-- A write of several pieces applied at its owner at one instant, one write in the coherence order and in every die view
(R377, R437): address, value and keys of each. -/
def State.applyPieces (s : State) (writer : Nat) (clock : List Nat) (l : List (Nat × Nat × List Nat)) : State :=
  match l with
  | [] => s
  | p :: ps =>
    let others := [0, 1, 2, 3].filter (fun d => d != ownerOf p.1 && d != writer)
    let s1 := { s with lastW := setLast s.lastW (l.flatMap (·.2.2)) clock }
    let s2 := l.foldl (State.ownerPiece others) s1
    let us := others.map (fun d =>
      { die := d, writer := writer, addr := p.1, size := p.2.2.length, val := p.2.1, mask := fullMask p.2.2.length,
        clock := clock, pos := s1.nextPos, more := ps.map (fun q => (q.1, q.2.2.length, q.2.1)) : Update })
    { s2 with nextPos := s1.nextPos + 1, updates := s2.updates ++ us }

/-- A write performed at one instant by an agent of die `d`, and applied at the owner in the same
instant where `d` owns the location (R319). The acknowledgement of a remote write comes later. -/
def State.performLocal (s : State) (d a v mask : Nat) (keys : List Nat) : State :=
  let s1 := s.tickDie d
  s1.applyOwner d a v mask keys (s1.die d).clock

/-- The GRAN of the frame that holds a byte (R277). -/
def State.granAt (s : State) (k : Nat) : Nat :=
  match s.grans.find? (fun g => decide (g.1 ≤ k) && decide (k < g.1 + g.2.1)) with
  | some g => g.2.2
  | none => 0

/-- The unit that holds a byte (R277): the key of its first byte, and its bytes. -/
def State.unitAt (s : State) (k : Nat) : Nat × Nat :=
  let n := 32 * 2 ^ s.granAt k
  (k / n * n, n)

/-- The pseudo-channels of a tier of a die (R277). -/
def channelCount (tier : Nat) : Nat := 4 + 2 * Config.moreChannels tier

/-- The pseudo-channels that a unit lies on (R277). DESIGN CHOICE (log entry 68): the manual gives neither their number nor the
rotation; consecutive units take consecutive ones. -/
def unitChannels (gran k : Nat) : List Nat :=
  let each := [1, 1, 2, 4].getD gran 1
  let u := k % 2 ^ 41 / (32 * 2 ^ gran)
  (List.range each).map (fun i => (each * u + i) % channelCount (k / 2 ^ 41 % 2))

/-- Whether a byte lies in a unit that the loss of pseudo-channels makes uncorrectable (R418): of one, or, of a G256 unit, of more
than one. -/
def State.onLost (s : State) (k : Nat) : Bool :=
  if s.lost.isEmpty then false
  else
    let gone := ((unitChannels (s.granAt k) k).filter (fun c => s.lost.contains (k / 2 ^ 42, k / 2 ^ 41 % 2, c))).length
    if s.granAt k < 3 then gone != 0 else decide (2 ≤ gone)

/-- The uncorrectable unit that holds a byte, if one does (R417, R418). -/
def State.badUnit (s : State) (k : Nat) : Option (Nat × Nat) :=
  match s.badUnits.find? (fun b => decide (b.1 ≤ k) && decide (k < b.1 + b.2)) with
  | some b => some b
  | none => if s.onLost k then some (s.unitAt k) else none

/-- Whether a byte lies in an uncorrectable unit. -/
def State.badKey (s : State) (k : Nat) : Bool := (s.badUnit k).isSome

/-- Whether a byte of a list of keys lies in an uncorrectable unit (R417). -/
def State.uncorrectable (s : State) (keys : List Nat) : Bool := keys.any s.badKey

/-- The address of the first uncorrectable unit that the bytes from `a` on meet (R393), by their keys. -/
def State.badAddr (s : State) (a : Nat) : List Nat → Nat
  | [] => a
  | k :: ks =>
    match s.badUnit k with
    | some b => a - (k - b.1)
    | none => s.badAddr (a + 1) ks

/-- Whether a byte lies in an uncorrectable unit of which a write covers only a part, the bytes `whole` (R278). -/
def State.spoils (s : State) (whole : List Nat) (k : Nat) : Bool :=
  (s.badUnit k).any (fun b => !((keysFrom b.1 b.2).all (fun j => whole.contains j)))

/-- Whether a write of some keys meets an uncorrectable unit that its access does not cover whole (R278, R417). -/
def State.partialBad (s : State) (ks whole : List Nat) : Bool := ks.any (s.spoils whole)

/-- The bits of a write without those of the bytes that `bad` picks. -/
def maskWithout (bad : Nat → Bool) : Nat → List Nat → Nat
  | _, [] => 0
  | m, k :: ks => (if bad k then 0 else m % 256) + 256 * maskWithout bad (m / 256) ks

/-- Whether two ranges of bytes meet. -/
def overlap (a n b m : Nat) : Bool := a < b + m && b < a + n

/-- Set bits of a mask at the places congruent to `j` modulo 4. -/
def groupOnes (mask j : Nat) : Nat := ((List.range 16).map (fun i => mask / 2 ^ (4 * i + j) % 2)).sum

/-- Whether the flips of a 68-bit mask, its parity bits in [67:64], leave every parity group even (R412, R414):
no read detects them. -/
def undetected (mask : Nat) : Bool :=
  [0, 1, 2, 3].all (fun j => (groupOnes (mask % 2 ^ 64) j + mask / 2 ^ (64 + j) % 2) % 2 == 0)

/-- The column group of a scratchpad word: 64 rows of a bank of 16 KiB (R412). -/
def columnGroup (a : Nat) : Nat := a / 512

/-- Whether a soft error is one that a read of some bytes of a scratchpad finds (R413). -/
def SoftErr.shows (w : SoftErr) (core a n : Nat) : Bool :=
  w.core == core && !w.row && !undetected w.mask && overlap w.addr 8 a n

/-- Whether a read of scratchpad bytes meets a word that shows an error: it finds it, and waits until the word is rebuilt (R413). -/
def State.spadSoft (s : State) (core a n : Nat) : Bool := s.softErrs.any (fun w => w.shows core a n)

/-- Whether bytes of a scratchpad lie in a column group under rebuild: every access to them waits (R413). -/
def State.rebuilding (s : State) (core a n : Nat) : Bool :=
  s.softErrs.any (fun w => w.found && w.core == core && overlap (w.addr / 512 * 512) 512 a n)

/-- A read finds the errors of the words that it meets (R413). -/
def State.findSoft (s : State) (core a n : Nat) : State :=
  { s with softErrs := s.softErrs.map (fun w => if w.shows core a n then { w with found := true } else w) }

/-- Whether a write covers the word of a record whole. -/
def SoftErr.covered (w : SoftErr) (core a n mask : Nat) : Bool :=
  !w.row && w.core == core && decide (a ≤ w.addr) && decide (w.addr + 8 ≤ a + n)
    && mask / 256 ^ (w.addr - a) % 2 ^ 64 == 2 ^ 64 - 1

/-- Whether a write leaves a word's record in place (R412, R414): a whole-word write replaces the word, and after any write the
vertical row holds what the word then holds, so that flips which no read detects are its value. -/
def SoftErr.stays (core a n mask : Nat) (w : SoftErr) : Bool :=
  !w.covered core a n mask && !(!w.row && undetected w.mask && w.core == core && overlap w.addr 8 a n)

/-- A write performed in the view of die `d` (R319): applied at once where `d` owns the location, else
in the shadow and sent to the owner. -/
def State.performStore (s : State) (d : Nat) (st : Store) (keys : List Nat) : State :=
  if ownerOf st.addr = d then s.performLocal d st.addr st.val st.mask keys
  else
    let s1 := (s.shadowWrite d st.addr st.val st.mask keys).tickDie d
    { s1 with stores := s1.stores ++ [{ st with stage := .sent, clock := (s1.die d).clock }] }

/-- Whether an update writes a byte. -/
def Update.covers (u : Update) (a : Nat) : Bool :=
  overlap u.addr u.size a 1 || u.more.any (fun p => overlap p.1 p.2.1 a 1)

/-- A shadow that no write on its way concerns any longer: the owner's memory serves the die again. -/
def State.cleanShadows (s : State) : State :=
  { s with
    shadows := s.shadows.filter (fun x =>
      s.updates.any (fun u => u.die == x.die && u.covers x.addr)
        || s.stores.any (fun st => st.stage != .issued && st.atomic.isNone && dieOf st.core == x.die
            && overlap st.addr st.size x.addr 1)) }

/-- The core at the corner of a die, which stands for the die's own units. -/
def cornerOf (d : Nat) : Nat := 64 * (32 * (d / 2)) + 32 * (d % 2)

/-- The router a core is at: a drover core is at the one at die-local (0,0) (R14, R136). -/
def meshPlace (core : Nat) : Nat := if core < 4096 then core else cornerOf (dieOf core)

/-! ### The cluster slices -/

/-- The dirty bytes of a line of a cluster's slice, as one value and mask (R317). -/
def lineBits (l : List SliceByte) (f : SliceByte → Nat) : Nat :=
  l.foldl (fun (n : Nat) (x : SliceByte) => n + f x * 256 ^ (x.addr % 128)) 0

/-- The number of an origin (R400). -/
def Origin.num (o : Origin) : Nat :=
  match o with
  | .stg => 0
  | .sth => 1
  | .stn => 2
  | .atomic => 3
  | .pushs => 4
  | .mxdr => 5
  | .engine => 6

/-- The META word of a record (R400). -/
def metaWord (seq cause origin code : Nat) : Word :=
  BitVec.ofNat 64 (seq % 65536 * 2 ^ 48 + cause * 2 ^ 40 + origin * 2 ^ 37 + code * 2 ^ 32)

/-- The record of a posted operation that fails (R400). -/
def Post.record (cause : Nat) (p : Post) : FaultMsg :=
  { strand := p.strand, r := { addr := p.raw, data := p.data, info := metaWord p.seq cause p.origin.num p.code } }

/-- The posted operations that a failing store is reported of: its own, of a slice's write-back those that wrote its bytes,
and none where the access has failed before (R259, R400). -/
def Store.reports (x : Store) : List Post :=
  if x.lost then []
  else if x.origin = Origin.engine then x.posts
  else [{ strand := x.strand, seq := x.seq, origin := x.origin, code := x.code, raw := x.raw, data := x.data
          addr := x.addr, size := x.size }]

/-- Records on their way to their strands (R400). -/
def State.sendRecord (s : State) (x : Store) (cause : Nat) : State :=
  { s with faultMsgs := s.faultMsgs ++ x.reports.map (Post.record cause) }

/-- A write of no strand's without its bytes in uncorrectable units that it covers in part (R278, R417): they are not applied,
and the posted operations that wrote them are reported. -/
def State.dropBad (s : State) (st : Store) (ks : List Nat) : State × Store :=
  let whole := coveredKeys st.mask ks
  if !s.partialBad ks whole then (s, st)
  else
    let at' := fun (a : Nat) => (ks[a - st.addr]?).any (s.spoils whole)
    let hit := fun (p : Post) => (List.range p.size).any (fun i =>
      decide (st.addr ≤ p.addr + i) && decide (p.addr + i < st.addr + st.size) && at' (p.addr + i))
    (s.sendRecord { st with posts := st.posts.filter hit } Cause.uncorrectable,
      { st with mask := maskWithout (s.spoils whole) st.mask ks })

/-- A slice writes back the dirty bytes of a 128-byte line, in one write performed in the die's view
(R317). A refused one is reported of the posted operations that wrote its bytes (R366, R400). -/
def State.writeBack (s : State) (c line : Nat) : State :=
  let here := fun (x : SliceByte) => x.cluster == c && x.addr / 128 == line
  let l := s.slices.filter here
  if l.isEmpty then s
  else
    let cls := s.ownerClass (128 * line)
    let s1 := { s with slices := s.slices.filter (fun x => !here x) }.touch cls (128 * line)
    let st : Store :=
      { uid := s1.nextUid, origin := .engine, core := cornerOf (dieOfCluster c), addr := 128 * line,
        size := 128, val := lineBits l (fun x => x.val.toNat), mask := lineBits l (fun x => x.mask.toNat)
        base := 128 * line, span := 128, cls := cls, scope := 3, launches := (l.flatMap (·.launches)).eraseDups
        agents := (l.flatMap (·.agents)).eraseDups, readers := (l.flatMap (·.readers)).eraseDups, posts := (l.flatMap (·.posts)).eraseDups }
    match s1.keys (s1.reqOwner (128 * line)) .w (128 * line) 128 with
    | .error e => s1.sendRecord st e
    | .ok ks =>
      let r := s1.dropBad st ks
      (r.1.performStore (dieOfCluster c) r.2 ks).fresh

/-- The lines of an access. -/
def linesOf (a n : Nat) : List Nat := (List.range ((a + n - 1) / 128 - a / 128 + 1)).map (fun i => a / 128 + i)

/-- A cluster's slice writes back its dirty bytes of the lines of an access (R317). -/
def State.writeBackLines (s : State) (c a n : Nat) : State :=
  (linesOf a n).foldl (fun (s : State) line => s.writeBack c line) s

/-- Every slice of a die writes back its dirty bytes of the lines of an access (R317): a write that is then performed in the
die's view is later than they are. -/
def State.flushLines (s : State) (d a n : Nat) : State :=
  if s.slices.isEmpty then s
  else ((List.range 16).map (fun i => 16 * d + i)).foldl (fun (s : State) c => s.writeBackLines c a n) s

/-- The dirty bytes of a cluster's slice that a strand's acquire observes become its own too (R325): its later releases of die
scope or wider wait until they are written back (R323). -/
def State.sliceAcquire (s : State) (core u : Nat) : State :=
  if s.slices.isEmpty then s
  else
    { s with
      slices := s.slices.map (fun x =>
        if inCluster x.cluster core && !x.agents.contains u then { x with agents := u :: x.agents } else x) }

/-- The bytes an access in flight reads or writes in G space. -/
def PendOp.range (p : PendOp) : Option (Nat × Nat) :=
  match p with
  | .ldg a _ n _ _ => some (a, n)
  | .ldgCap a n _ => some (a, n)
  | .atomic _ a n _ _ _ => some (a, n)
  | _ => none

/-! ### Writes that stall (R282) -/

/-- The writes that stand stalled at an owner's controller: their place in the order of arrival, address and bytes. -/
def State.stalledWrites (s : State) : List (Nat × Nat × Nat) :=
  (s.stores.filter (fun x => x.arr != 0)).map (fun (x : Store) => (x.arr, x.addr, x.size))
    ++ (s.pends.filter (fun p => p.arr != 0)).filterMap (fun (p : Pend) =>
      p.op.range.map (fun r => (p.arr, r.1, r.2)))

/-- Whether a write that arrives at its owner stalls there (R282): its page is in FINAL, or one that stalled there before it
has not been released. `arr` is its place in the order of arrival, 0 where it has just come. -/
def State.mustStall (s : State) (arr cls a : Nat) (ks : List Nat) : Bool :=
  s.frozenKeys ks
    || s.stalledWrites.any (fun y => (arr == 0 || decide (y.1 < arr)) && y.2.1 / pageBytes cls == a / pageBytes cls)

/-- Whether a read waits behind a stalled write to one of its 64-byte units (R282). -/
def State.readStalls (s : State) (a n : Nat) : Bool :=
  s.stalledWrites.any (fun y => overlap y.2.1 y.2.2 (a / 64 * 64) ((a % 64 + n + 63) / 64 * 64))

/-- A producer in flight changed. -/
def State.onPend (s : State) (u : Nat) (f : Pend → Pend) : State :=
  { s with pends := s.pends.map (fun q => if q.uid == u then f q else q) }

/-- A posted operation in flight changed. -/
def State.onStore (s : State) (u : Nat) (f : Store → Store) : State :=
  { s with stores := s.stores.map (fun y => if y.uid == u then f y else y) }

/-- A store stalls at its owner's controller (R282). -/
def State.stallStore (s : State) (x : Store) : State :=
  if x.arr != 0 then s
  else (s.onStore x.uid (fun y => { y with arr := s.nextUid })).fresh

/-- A write by a unit of the owner die: the synchronisation engine, the drover core (R317, R329). -/
def State.ownerWrite (s : State) (a v : Nat) (keys : List Nat) : State :=
  (s.flushLines (ownerOf a) a keys.length).performLocal (ownerOf a) a v (fullMask keys.length) keys

/-- The synchronisation engine's own update of a capsule record (R366), `cls` the class it is reached in: it stalls as any
write to a page in FINAL does (R282). -/
def State.recWrite (s : State) (cls a v : Nat) (keys : List Nat) : State :=
  if s.mustStall 0 cls a keys then
    let st : Store :=
      { uid := s.nextUid, origin := .engine, own := true, core := cornerOf (ownerOf a), addr := a, size := keys.length
        val := v % 256 ^ keys.length, mask := fullMask keys.length, base := a, span := keys.length, cls := cls, scope := 4
        arr := s.nextUid }
    { s with stores := s.stores ++ [st] }.fresh
  else s.ownerWrite a v keys

/-- A write of `n` bytes by a unit of die `d` that is classed by the owner (R270); a failed one has no effect, and one to a page
in FINAL stalls at its owner (R282). -/
def State.devWrite (s : State) (d a n v : Nat) : State :=
  let cls := s.ownerClass a
  let s := s.touch cls a
  match s.keys (s.reqOwner a) .w a n with
  | .error _ => s
  | .ok ks =>
    let st : Store :=
      { uid := s.nextUid, origin := .engine, core := cornerOf d, addr := a, size := n, val := v % 256 ^ n
        mask := fullMask n, base := a, span := n, cls := cls, scope := 4 }
    if ownerOf a == d && s.mustStall 0 cls a ks then { s with stores := s.stores ++ [{ st with arr := s.nextUid }] }.fresh
    else
      let r := s.dropBad st ks
      ((r.1.flushLines d a n).performStore d r.2 ks).fresh

/-- As `State.devWrite`, of two pieces that are one write (R437): address, bytes, value of each. Where a page of theirs is in
FINAL each stalls on its own. -/
def State.devWrite2 (s : State) (d : Nat) (p q : Nat × Nat × Nat) : State :=
  match s.keys (s.reqOwner p.1) .w p.1 p.2.1, s.keys (s.reqOwner q.1) .w q.1 q.2.1 with
  | .ok ks, .ok js =>
    if s.mustStall 0 (s.ownerClass p.1) p.1 ks || s.mustStall 0 (s.ownerClass q.1) q.1 js || s.uncorrectable (ks ++ js) then
      (s.devWrite d p.1 p.2.1 p.2.2).devWrite d q.1 q.2.1 q.2.2
    else
      let s1 := ((s.touch (s.ownerClass p.1) p.1).touch (s.ownerClass q.1) q.1).flushLines d p.1 p.2.1
      let s2 := s1.flushLines d q.1 q.2.1
      if ownerOf p.1 = d then
        let s3 := s2.tickDie d
        s3.applyPieces d (s3.die d).clock [(p.1, p.2.2, ks), (q.1, q.2.2, js)]
      else
        let s3 := ((s2.shadowWrite d p.1 p.2.2 (fullMask p.2.1) ks).shadowWrite d q.1 q.2.2 (fullMask q.2.1) js).tickDie d
        let st : Store :=
          { uid := s3.nextUid, origin := .engine, core := cornerOf d, addr := p.1, size := p.2.1, val := p.2.2 % 256 ^ p.2.1
            mask := fullMask p.2.1, base := p.1, span := p.2.1, cls := s.ownerClass p.1, scope := 4, stage := .sent
            clock := (s3.die d).clock, more := [q] }
        { s3 with stores := s3.stores ++ [st] }.fresh
  | _, _ => (s.devWrite d p.1 p.2.1 p.2.2).devWrite d q.1 q.2.1 q.2.2

/-- The bytes of a stalled write over those read from `a` on (R282). -/
def Store.over (x : Store) (a n v : Nat) : Nat :=
  let lo := max a x.addr
  let k := min (a + n) (x.addr + x.size) - lo
  blend v (x.val / 256 ^ (lo - x.addr) % 256 ^ k * 256 ^ (lo - a)) (x.mask / 256 ^ (lo - x.addr) % 256 ^ k * 256 ^ (lo - a))

/-- A read of `n` bytes by a unit of die `d`, in the die's view; 0 where it fails. The unit's own writes that stall are seen. -/
def State.devRead (s : State) (d a n : Nat) : Nat :=
  match s.keys (s.reqOwner a) .r a n with
  | .error _ => 0
  | .ok ks =>
    (s.stores.filter (fun x => x.arr != 0 && x.origin == .engine && x.job == 0 && dieOf x.core == d && overlap x.addr x.size a n)).foldl
      (fun (v : Nat) x => x.over a n v) (s.viewRead d a ks)

/-! ### The capsule record at its engine -/

/-- The class in which the engine reaches a capsule record (R270): that of the last capsule operation on it. -/
def State.recClass (s : State) (l : Nat) : Nat :=
  match s.recCls.find? (fun x => x.1 == l) with
  | some x => x.2
  | none => s.ownerClass l

/-- The units of the 128 bytes at an address written with inconsistent check symbols: they are uncorrectable (R415). -/
def State.spoilUnits (s : State) (cls a : Nat) : State :=
  match s.leaf cls a with
  | none => s
  | some l =>
    let k := l.key (s.die (ownerOf a)).startMap cls a
    { s with badUnits := (s.badUnits ++ (keysFrom k 128).map s.unitAt).eraseDups }

/-- The keys of the 128 bytes of a capsule record, as the engine reaches them. -/
def State.recKeys (s : State) (l : Nat) : List Nat :=
  match s.leaf (s.recClass l) l with
  | some f => keysFrom (f.key (s.die (ownerOf l)).startMap (s.recClass l) l) 128
  | none => []

/-- A doubleword of a capsule record. -/
def State.recWord (s : State) (l off : Nat) : Nat := s.ownRead (((s.recKeys l).drop off).take 8)

/-- The engine's write of a doubleword of a capsule record (R366). -/
def State.setRecWord (s : State) (l off v : Nat) : State :=
  s.recWrite (s.recClass l) (l + off) v (((s.recKeys l).drop off).take 8)

/-- LOGICAL_ID[11:0] of a core lies in the core's state; HOLDER names it with the slot (R368). -/
def holderWord (logical slot : Nat) (viaCapa : Bool) (hstate : Nat) : Nat :=
  logical * 2 ^ 48 + slot * 2 ^ 46 + viaCapa.toNat * 2 ^ 45 + hstate * 2 ^ 32

/-- The holder of a capsule leaves it open (R378): the engine sets PARKED and HSTATE, and every CAPB that
waits on the record is answered with the parked value. -/
def State.parkRecord (s : State) (l hstate : Nat) : State :=
  let lock := s.recWord l 0 ||| 2 ^ 61
  let h := blend (s.recWord l 0x10) (hstate * 2 ^ 32) (255 * 2 ^ 32)
  let s1 := s.recWrite (s.recClass l) l (lock + s.recWord l 8 * 2 ^ 64 + h * 2 ^ 128) ((s.recKeys l).take 24)
  { s1 with
    syncs := s1.syncs.map (fun q =>
      if q.op == .capb && q.arrived && q.l == l then
        { q with answer := some (BitVec.ofNat 64 (2 ^ 63 + lock % 2 ^ 32)) }
      else q) }

/-- The capsule a strand holds is parked by a trap: HSTATE FAULTED, FAULT the cause and the address; the
buffered stores are discarded and the state is NONE (R378). -/
def State.parkByTrap (s : State) (cause : Nat) (pc : Addr) : State :=
  match s.cur.cap.mode with
  | .none => s
  | .displaced => s.onCur (fun t => { t with cap := { } })
  | .opened =>
    ((s.parkRecord s.cur.cap.l 4).setRecWord s.cur.cap.l 0x70
      (cause * 2 ^ 56 + pc.toNat / 2 * 2)).onCur (fun t => { t with cap := { } })

/-! ### Trace records -/

/-- The words of a record after its header, with bit 63 clear (R435). -/
def traceBytes (ws : List Word) : Nat → Nat
  | 0 => 0
  | n + 1 => (ws.headD 0).toNat + 2 ^ 64 * traceBytes (ws.drop 1) n

/-- The header word of a record (R435). -/
def traceHeader (len kind core slot time : Nat) : Word :=
  BitVec.ofNat 64 (2 ^ 63 + (len - 1) * 2 ^ 60 + kind * 2 ^ 56
    + (core / 64 % 8 * 8 + core % 8) * 2 ^ 50 + slot * 2 ^ 48 + time % 2 ^ 48)

/-- The words of a record written at ring word `n`, whole, in one write (R437), of two pieces where the ring wraps. -/
def State.ringWords (s : State) (d base size n : Nat) (ws : List Word) : State :=
  let at' := n % size
  let first := ws.take (size - at')
  let rest := ws.drop (size - at')
  if rest.isEmpty then s.devWrite d (base + 64 + 8 * at') (8 * first.length) (traceBytes first first.length)
  else
    s.devWrite2 d (base + 64 + 8 * at', 8 * first.length, traceBytes first first.length)
      (base + 64, 8 * rest.length, traceBytes rest rest.length)

/-- A trace record of a core's cluster (R434 to R437): written whole, and then WR; dropped in stop mode
where it does not fit. -/
def State.traceRecord (s : State) (kind core slot : Nat) (payload : List Word) : State :=
  let c := s.cluster (clusterOf core)
  let d := dieOf core
  if 4096 ≤ core || !c.traceCtl.getLsbD 0 || !c.traceCtl.getLsbD kind && kind != 6 || c.traceSize == 0 then s
  else
    let base := c.traceBase.toNat
    let size := c.traceSize.toNat
    let ws := traceHeader (payload.length + 1) kind core slot s.timeNs
      :: payload.map (fun w => w &&& 0x7FFFFFFFFFFFFFFF)
    let s := s.touch (s.ownerClass base) base
    let wr := s.devRead d base 8
    let rd := s.devRead d (base + 16) 8
    if !c.traceCtl.getLsbD 1 && size < (wr + 2 ^ 64 - rd) % 2 ^ 64 + ws.length then
      s.devWrite d (base + 8) 8 (s.devRead d (base + 8) 8 + 1)
    else (s.ringWords d base size wr ws).devWrite d base 8 (wr + ws.length)

/-- The payload of a TRAP record (R436). -/
def trapPayload (cause : Nat) (pc : Addr) (info : Word) : List Word :=
  [BitVec.ofNat 64 (cause % 256 * 2 ^ 47 + pc.toNat / 2), info &&& 0x7FFFFFFFFFFFFFFF, info >>> 63]

/-- The payload of a HALT record (R436). -/
def haltPayload (cause : Nat) (pc : Addr) : List Word :=
  [BitVec.ofNat 64 (cause % 256 * 2 ^ 47 + pc.toNat / 2)]

/-! ### Taking a trap, and returning from one -/

/-- LOGICAL_ID[11:0] of a core (R63). DESIGN CHOICE (log entry 49): a drover core, to which R14 gives no logical index, reads as
index 0 of its die until a CWR gives it another. -/
def State.logicalOf (s : State) (core : Nat) : Nat :=
  match s.logical.find? (fun p => p.1 == core) with
  | some p => dieOf core * 1024 + p.2
  | none => dieOf core * 1024

/-- Whether a trap that ends the work ends only this run (R405): a handler or creator. -/
def Strand.isHandler (t : Strand) : Bool := t.kind == .handler || t.kind == .creator

/-- The strands that end with a strand (R397, R405): its team's, or the handler alone. -/
def endsWith (t u : Strand) : Bool :=
  u.live && (u.uid == t.uid ||
    (!t.isHandler && !u.isHandler && t.mode == .launch && u.mode == .launch
      && u.launch == t.launch && u.core == t.core))

/-- Whether a team's work ends with a strand's: it is the team of a strand that is no handler (R397, R405). -/
def Hold.endsWith (t : Strand) (h : Hold) : Bool :=
  !t.isHandler && t.mode == .launch && h.core == t.core && h.launch == t.launch

/-- The work of a strand is ending with a code (R397, R276): every strand of it stops at its next
instruction boundary, and none of its team starts any more. -/
def State.endWorkOf (s : State) (t : Strand) (code : Nat) : State :=
  { s.onStrands (endsWith t) (fun u => { u with ending := some (u.ending.getD code) }) with
    holds := s.holds.map (fun h => if h.endsWith t then { h with ending := some (h.ending.getD code) } else h) }

/-- The work of the strand that issues is ending. -/
def State.endWork (s : State) (code : Nat) : State := s.endWorkOf s.cur code

/-- The trap registers of launch mode (R396). -/
def Strand.trapRegs (t : Strand) (cause : Nat) (pc : Addr) (info : Word) : Strand :=
  { t with trapCause := BitVec.ofNat 64 cause, trapPc := pcBits (pc.setWidth 64), trapInfo := info }

/-- The trap registers of supervisor mode (R392). -/
def Strand.svTrapRegs (t : Strand) (cause : Nat) (pc : Addr) (info : Word) : Strand :=
  { t with svTrapCause := BitVec.ofNat 64 cause, svTrapPc := pcBits (pc.setWidth 64), svTrapInfo := info }

/-- The payload of the report of R398: TEAM_ID, or ACTOR_KEY of a handler; TRAP_CAUSE; TRAP_PC;
TRAP_INFO; class, slot and core. -/
def trapReport (s : State) (t : Strand) : List Word :=
  [if t.isHandler then t.actorKey else BitVec.ofNat 64 t.team, t.trapCause, t.trapPc, t.trapInfo,
   BitVec.ofNat 64 ((if t.isHandler then t.actorClass else 0) * 2 ^ 48 + t.slot * 2 ^ 16 + s.logicalOf t.core)]

/-- The work of the strand that issues ends on a trap (R397): the strand keeps the report of R398. -/
def State.endOnTrap (s : State) : State :=
  (s.onCur (fun t => { t with endReport := trapReport s t })).endWork 1

/-- Taking a trap of the strand that issues, at its program counter (R392, R396, R397). A capsule it
holds open is parked first (R378). In launch mode the trap registers are set, a TRAP record is traced
(R436), IN_TRAP becomes 1 and the pc TRAP_VECTOR, or, with no vector or inside a handler, the work ends.
In supervisor mode the SV registers serve, and with SV_TRAP_VECTOR 0 the strand halts and the die's drover
core receives the cause; a boot strand's trap is noted with any vector (R262). A strand that
was to issue one instruction halts after the trap (R430). DESIGN CHOICE (log entry 51): a supervisor strand with IN_TRAP = 1
enters the vector again, and one halted with vector 0 keeps its SV registers. -/
def takeTrap (s : State) (cause : Nat) (info : Word) : State :=
  let s := (s.parkByTrap cause s.cur.pc).onCur (fun t =>
    { t.unstall with haltReq := t.haltReq || t.stepReq, stepReq := false })
  match s.cur.mode with
  | .launch =>
    let s := s.traceRecord 3 s.cur.core s.cur.slot (trapPayload cause s.cur.pc info)
    if s.cur.trapVector = 0 ∨ inTrap s.cur.status = true then
      (s.onCur (fun t => t.trapRegs cause t.pc info)).endOnTrap
    else
      s.onCur (fun t =>
        { t.trapRegs cause t.pc info with
          status := setInTrap t.status true, pc := t.trapVector.setWidth 48 })
  | .supervisor =>
    if s.cur.svTrapVector = 0 then
      { s.onCur (fun t => { t with run := .halted }) with
        notes := s.notes ++ [{ die := dieOf s.cur.core, cause := cause, core := s.cur.core, info := info }] }
    else
      { s.onCur (fun t =>
          { t.svTrapRegs cause t.pc info with
            svStatus := setInTrap t.svStatus true, pc := t.svTrapVector.setWidth 48 }) with
        notes := if s.cur.kind = .boot then
          s.notes ++ [{ die := dieOf s.cur.core, cause := cause, core := s.cur.core, info := info }] else s.notes }

/-- The outcome of an instruction that traps. -/
def trap (s : State) (cause : Nat) (info : Word) : Host.Outcome State Fault Refusal :=
  .next (takeTrap s cause info)

/-- A message that a die's drover core sends to the owner of a launch (R97, R115); it leaves as any other (R175). -/
def State.report (s : State) (die launch selector : Nat) (payload : List Word) : State :=
  match s.launch? launch with
  | none => s
  | some l =>
    let w0 : Word := BitVec.ofNat 64 (2 ^ 52 + 0xFFFF * 2 ^ 32 + l.m.ownerClass * 2 ^ 16 + selector)
    let w1 : Word := BitVec.ofNat 64 ((s.die die).reportSeq % 65536 * 2 ^ 48 + s.timeNs % 2 ^ 48)
    let m : Msg :=
      { uid := s.nextUid, w := w0 :: w1 :: l.m.ownerKey :: (payload ++ List.replicate (5 - payload.length) 0),
        launch := launch, die := die, core := droverCore die, stage := .queued }
    (({ s with msgs := s.msgs ++ [m] }).fresh).onDie die (fun d => { d with reportSeq := d.reportSeq + 1 })

/-- A LEASE_BREACH of a strand takes effect (R276), once for work that does not end yet (R397): its work ends with code 2,
and the drover core of its die reports it, with the strand's TEAM_ID, the address, as TRAP_PC the address where the trap
would be taken, and LOGICAL_ID. -/
def State.leaseBreachOf (s : State) (t : Strand) (a : Nat) : State :=
  if t.ending.isSome then s
  else (s.endWorkOf t 2).report (dieOf t.core) t.launch 5
    [BitVec.ofNat 64 t.team, BitVec.ofNat 64 a, pcBits (t.pc.setWidth 64), BitVec.ofNat 64 (s.logicalOf t.core)]

/-- A LEASE_BREACH of the strand that issues; a capsule it holds is parked (R378). -/
def State.leaseBreach (s : State) (a : Nat) : State :=
  (s.parkByTrap Cause.leaseBreach s.cur.pc).leaseBreachOf s.cur a

/-- A report to the drover core of a core's die (R408). -/
def State.note (s : State) (core cause : Nat) (info : Word) : State :=
  { s with notes := s.notes ++ [{ die := dieOf core, cause := cause, core := core, info := info }] }

/-- An UNCORRECTABLE error stops the strand that meets it and reaches its die's drover core (R408). -/
def State.uncorrectableStop (s : State) (info : Word) : State :=
  (s.onCur (fun t => { t with run := .halted, stopped := true })).note s.cur.core Cause.uncorrectable info

/-- Whether a register target is a legal instruction address (R45): even, and below 2^48. -/
def targetOk (x : Word) : Bool := x.toNat % 2 == 0 && decide (x.toNat < 2 ^ 48)

/-- Return from a trap (R58): the pc becomes TRAP_PC, or SV_TRAP_PC, and IN_TRAP 0. -/
def returnFromTrap (s : State) : State :=
  match s.cur.mode with
  | .launch =>
    s.onCur (fun t => { t with status := setInTrap t.status false, pc := t.trapPc.setWidth 48 })
  | .supervisor =>
    s.onCur (fun t => { t with svStatus := setInTrap t.svStatus false, pc := t.svTrapPc.setWidth 48 })

/-- The strand stalls: no visible state changes until the condition clears (R8); another strand, or a
step of the machine's own, comes next. -/
def stall (s : State) : Host.Outcome State Fault Refusal := .next { s with stalled := true }

end Sys2Proof.Machine
end

