-- ==== Sys2Proof/Machine/Operands.lean ====
section
/-! DEFINITION. Operand fields and the checks an instruction passes at issue, in the order of R39: the
specifiers (R23), the readiness of the sources (R27, R28), fault tags (R399), the consumption of
forwarded registers (R237) and the limits of an open capsule (R370). -/

namespace Sys2Proof.Machine

/-- One operand field that an instruction uses: its value, the place of its least significant bit, its
policy bit, whether it is a 6-bit specifier of R23, whether it is written, whether it is read, and the
registers it names: 0 to 55 for g and k, 64 to 95 for v. -/
structure Field where
  spec : Nat
  lsb : Nat := 0
  pol : Bool := false
  scalar : Bool := false
  dst : Bool := false
  src : Bool := true
  cells : List Nat := []
  deriving DecidableEq, Repr

/-- The g or k register a specifier names, if it names one. -/
def gkCell (n : Nat) : List Nat := if n < 56 then [n] else []

/-- A scalar source field (R23). -/
def Field.s (spec : BitVec 6) (pol : Bool) (lsb : Nat) : Field :=
  { spec := spec.toNat, lsb := lsb, pol := pol, scalar := true, cells := gkCell spec.toNat }

/-- A scalar destination field. -/
def Field.d (spec : BitVec 6) (lsb : Nat) : Field :=
  { spec := spec.toNat, lsb := lsb, scalar := true, dst := true, src := false, cells := gkCell spec.toNat }

/-- A field that is source and destination (BLOOP's a, INS's d). -/
def Field.sd (spec : BitVec 6) (pol : Bool) (lsb : Nat) : Field :=
  { spec := spec.toNat, lsb := lsb, pol := pol, scalar := true, dst := true, cells := gkCell spec.toNat }

/-- The register a vector operand field names (R31): v0 to v31 or g0 to g31. -/
def vecCell (f : Nat) : Nat := if f < 32 then 64 + f else f - 32

/-- A vector operand field (R31). -/
def Field.v (f : BitVec 6) (pol : Bool) : Field :=
  { spec := f.toNat, pol := pol, cells := [vecCell f.toNat] }

/-- `n` registers from v register `b`. -/
def vRange (b n : Nat) : List Nat := (List.range n).map (fun i => 64 + (b + i) % 32)

/-- A vector register that is written, and read if an old bit of it is kept (R206). -/
def Field.vd (n : BitVec 5) (reads : Bool) : Field :=
  { spec := n.toNat, dst := true, src := reads, cells := [64 + n.toNat] }

/-- A g register that vd names (VEXT, MPOP). -/
def Field.gd (n : BitVec 5) : Field :=
  { spec := n.toNat, dst := true, src := false, cells := [n.toNat] }

/-- Registers that an instruction reads through a range that no operand field names (R27): policy 0. -/
def Field.implied (cells : List Nat) : Field := { spec := 0, cells := cells }

/-- The live values of a continuation that SPAWN builds (R54): g0 to g5. -/
def spawnField : Field := .implied [0, 1, 2, 3, 4, 5]

/-- What SUSP keeps (R51): g47 and k0 to k5. -/
def suspField : Field := .implied [47, 48, 49, 50, 51, 52, 53]

/-- g40 to g47 as CAPB and CAPS checkpoint them (R373, R374): the destination holds its new value there. -/
def cregField (d : BitVec 6) : Field := .implied ([40, 41, 42, 43, 44, 45, 46, 47].filter (· ≠ d.toNat))

/-- g40 to g47 as CAPA replaces them (R375). -/
def cregDest : Field := { spec := 0, dst := true, src := false, cells := [40, 41, 42, 43, 44, 45, 46, 47] }

/-- Whether a register is full (R26). -/
def Strand.cellFull (t : Strand) (c : Nat) : Bool :=
  if c < 56 then (t.reg c).full else (t.vreg (c - 64)).full

/-- Whether a long-latency producer is pending on a register. -/
def Strand.cellPend (t : Strand) (c : Nat) : Bool :=
  if c < 56 then (t.reg c).pend else (t.vreg (c - 64)).pend

/-- The tag a register holds. -/
def Strand.cellTag (t : Strand) (c : Nat) : Option Tag :=
  if c < 56 then (t.reg c).tag else (t.vreg (c - 64)).tag

/-- A read of a forwarded register empties it (R237). -/
def Reg.take (r : Reg) : Reg := if r.mark then { r with full := false } else r

/-- As `Reg.take`. -/
def VReg.take (r : VReg) : VReg := if r.mark then { r with full := false } else r

/-- A read of a register. -/
def Strand.takeCell (t : Strand) (c : Nat) : Strand :=
  if c < 56 then t.onReg c Reg.take else t.onV (c - 64) VReg.take

/-- A specifier that its field may not hold (R23): 61 to 63, or y0 to y3 as a destination. -/
def Field.bad (f : Field) : Bool :=
  f.scalar && (61 ≤ f.spec || (f.dst && 56 ≤ f.spec && f.spec < 60))

/-- Whether a source field names an empty register. -/
def Field.empty (t : Strand) (f : Field) : Bool := f.src && f.cells.any (fun c => !t.cellFull c)

/-- Whether a destination field names a register with a pending producer (R28). -/
def Field.busy (t : Strand) (f : Field) : Bool := f.dst && f.cells.any (fun c => t.cellPend c)

/-- Whether a source field names a register whose interlocked result is still to come (R193). -/
def Field.late (t : Strand) (f : Field) : Bool := f.src && f.cells.any (fun c => t.cellPend c)

/-- The tag a source field reads (R399). -/
def Field.tag (t : Strand) (f : Field) : Option Tag :=
  if f.src then f.cells.findSome? (fun c => t.cellTag c) else none

/-- What the checks of R39 steps 3 and 4, and the tags after them, decide. -/
inductive Verdict where
  | ready
  | trap (cause : Nat) (info : Word)
  | wait
  | tag (g : Tag)
  deriving DecidableEq, Repr

/-- The checks of R39 steps 3 and 4 on the fields in the order a, b, c, d, then the tags (R395, R399). -/
def verdict (t : Strand) (fs : List Field) : Verdict :=
  match fs.find? Field.bad with
  | some f => .trap Cause.illegalReg (BitVec.ofNat 64 (f.spec + 256 * f.lsb))
  | none =>
    match fs.find? (fun f => f.pol && f.empty t) with
    | some f => .trap Cause.emptySource (BitVec.ofNat 64 f.spec)
    | none =>
      if fs.any (fun f => f.empty t) || fs.any (fun f => f.late t) || fs.any (fun f => f.busy t) then .wait
      else
        match fs.findSome? (fun f => f.tag t) with
        | some g => .tag g
        | none => .ready

/-- The registers an instruction reads are read once each (R237). -/
def Strand.consume (t : Strand) (fs : List Field) : Strand :=
  (fs.filter (·.src)).foldl (fun t f => f.cells.foldl Strand.takeCell t) t

/-- What an instruction is inside an open capsule (R370): allowed, outside the list (code 2), or a
capsule instruction that opens or queries (code 7); or one for which another check of its own comes first. -/
inductive CapUse where
  | unchecked
  | allowed
  | outside
  | opens
  deriving DecidableEq, Repr

/-- A g or k specifier other than g40 to g47 (R370 code 1). -/
def Field.capBad (f : Field) : Bool := f.scalar && f.spec < 56 && !(40 ≤ f.spec && f.spec < 48)

/-- The limit of R370 that an instruction breaks first, in the order 7, 2, 1, 3, and then the one its
own description adds. -/
def capCheck (t : Strand) (u : CapUse) (fs : List Field) (own : Option Nat) : Option Nat :=
  if t.cap.mode = .none then none
  else
    match u with
    | .unchecked => none
    | .opens => some 7
    | .outside => some 2
    | .allowed =>
      if fs.any Field.capBad then some 1
      else if Config.capsuleSteps ≤ t.cap.count then some 3
      else own

/-- An instruction executed inside a capsule counts in its step (R370 code 3). -/
def Strand.countStep (t : Strand) : Strand :=
  if t.cap.mode = .none then t else { t with cap := { t.cap with count := t.cap.count + 1 } }

/-- How an instruction meets the checks at issue: the fields it uses in the order a, b, c, d; whether it
is of majors 8 to 18; what it is in a capsule; and the limit of R370 its own description adds. -/
structure Issue where
  fields : List Field := []
  mem : Bool := false
  cap : CapUse := .outside
  own : Option Nat := none
  deriving DecidableEq, Repr

/-- A tagged source is read (R399): LEASE_BREACH ends the work, UNCORRECTABLE stops the strand, any other
cause is a trap of the consuming instruction. -/
def tagTrap (s : State) (g : Tag) : Host.Outcome State Fault Refusal :=
  if g.cause = Cause.leaseBreach then .next (s.leaseBreach g.addr.toNat)
  else if g.cause = Cause.uncorrectable then .next (s.uncorrectableStop g.addr)
  else trap s g.cause g.addr

/-- The checks at issue, and then the instruction's own effect on the state in which its sources have
been read. -/
def issue (s : State) (i : Issue) (k : State → Host.Outcome State Fault Refusal) :
    Host.Outcome State Fault Refusal :=
  match verdict s.cur i.fields with
  | .trap c info => trap s c info
  | .wait => stall s
  | .tag g => tagTrap s g
  | .ready =>
    if i.mem && (s.cur.hold != 0 || !s.caughtUp s.cur) then stall s
    else
      match capCheck s.cur i.cap i.fields i.own with
      | some code => trap s Cause.capsuleLimit (BitVec.ofNat 64 code)
      | none => k (s.onCur (fun t => (t.consume i.fields).countStep))

/-- Completion of an instruction of `len` bytes: `f` on the strand, and the pc past it. -/
def finish (s : State) (len : Nat) (f : Strand → Strand) : Host.Outcome State Fault Refusal :=
  .next (s.onCur (fun t => (f t).advance len))

end Sys2Proof.Machine
end

