-- ==== Sys2Proof/Machine/Flags.lean ====
section
/-! DEFINITION. The flags of STATUS (R64) and when an operation raises each (R77). -/

namespace Sys2Proof.Machine

/-- NV, STATUS bit 0. -/
def fNV : Nat := 1
/-- DZ, STATUS bit 1. -/
def fDZ : Nat := 2
/-- OF, STATUS bit 2. -/
def fOF : Nat := 4
/-- UF, STATUS bit 3. -/
def fUF : Nat := 8
/-- NX, STATUS bit 4. -/
def fNX : Nat := 16

/-- NV where a condition holds. -/
def nvIf (b : Bool) : Nat := if b then fNV else 0

/-- The flags of a rounding that does not overflow (R77): NX where the result differs from the exact
value, and UF where it does and the value, rounded with an unbounded exponent range, lies below the
smallest normal value. -/
def roundFlags (inexact tiny : Bool) : Nat :=
  (if inexact then fNX else 0) ||| (if inexact && tiny then fUF else 0)

/-- The flags of every overflow (R75). -/
def overflowFlags : Nat := fOF ||| fNX

/-- The flags of several lanes: each raised once (R77). -/
def orAll : List Nat → Nat
  | [] => 0
  | f :: t => f ||| orAll t

end Sys2Proof.Machine
end

