-- ==== Sys2Proof/Machine/Float.lean ====
section
/-! DEFINITION. Number formats and rounding (R70 to R82): the exact values of encodings, RoundTo, exact
sums and products, conversions, and the correctly rounded special functions (R223, R224). -/

namespace Sys2Proof.Machine

/-! ### Formats -/

/-- A floating-point format (R70): its width, fraction bits and bias, whether it has infinities and
NaNs, and its largest finite value as a significand and the exponent of its last bit (R71). -/
structure Fmt where
  w : Nat
  f : Nat
  bias : Nat
  inf : Bool
  nan : Bool
  maxM : Nat
  maxE : Int
  canon : Nat
  deriving DecidableEq, Repr

def Fmt.fp32 : Fmt := ⟨32, 23, 127, true, true, 2 ^ 24 - 1, 104, 0x7FC00000⟩
def Fmt.bf16 : Fmt := ⟨16, 7, 127, true, true, 255, 120, 0x7FC0⟩
def Fmt.fp16 : Fmt := ⟨16, 10, 15, true, true, 2047, 5, 0x7E00⟩
def Fmt.e4m3 : Fmt := ⟨8, 3, 7, false, true, 14, 5, 0x7F⟩
def Fmt.e5m2 : Fmt := ⟨8, 2, 15, true, true, 7, 13, 0x7E⟩
def Fmt.e3m2 : Fmt := ⟨6, 2, 3, false, false, 7, 2, 0⟩
def Fmt.e2m1 : Fmt := ⟨4, 1, 1, false, false, 3, 1, 0⟩

/-- An exact value: a NaN, quiet or signalling, an infinity, or (-1)^neg * m * 2^e, a signed zero when
m = 0. -/
inductive Num where
  | nan (sig : Bool)
  | inf (neg : Bool)
  | fin (neg : Bool) (m : Nat) (e : Int)
  deriving DecidableEq, Repr

/-- Whether a value is a NaN. -/
def Num.isNan : Num → Bool
  | .nan _ => true
  | .inf _ => false
  | .fin _ _ _ => false

/-- Whether a value is a signalling NaN. -/
def Num.isSig : Num → Bool
  | .nan s => s
  | .inf _ => false
  | .fin _ _ _ => false

/-- Whether a value is a zero. -/
def Num.isZero : Num → Bool
  | .nan _ => false
  | .inf _ => false
  | .fin _ m _ => m == 0

/-- The sign of a value. -/
def Num.neg : Num → Bool
  | .nan _ => false
  | .inf s => s
  | .fin s _ _ => s

/-- A value with its sign inverted. -/
def Num.negate : Num → Num
  | .nan s => .nan s
  | .inf s => .inf (!s)
  | .fin s m e => .fin (!s) m e

/-- The value of an encoding (R71, R72). -/
def Fmt.decode (x : Fmt) (b : Nat) : Num :=
  let s := b / 2 ^ (x.w - 1) % 2 == 1
  let eb := x.w - 1 - x.f
  let e := b / 2 ^ x.f % 2 ^ eb
  let f := b % 2 ^ x.f
  if x.inf && e == 2 ^ eb - 1 then
    (if f = 0 then .inf s else .nan (f / 2 ^ (x.f - 1) == 0))
  else if x.nan && !x.inf && b % 2 ^ (x.w - 1) == x.canon then .nan false
  else if e = 0 then .fin s f (1 - x.bias - x.f)
  else .fin s (2 ^ x.f + f) (Int.ofNat e - x.bias - x.f)

/-- A rounded result: its encoding and the flags it raises. -/
structure FOut where
  bits : Nat
  fl : Nat
  deriving DecidableEq, Repr

/-- A sign bit and a magnitude. -/
def Fmt.signed (x : Fmt) (neg : Bool) (mag : Nat) : Nat := neg.toNat * 2 ^ (x.w - 1) + mag

/-- The encoding of k * 2^q, with q the exponent of the last bit of the result (R74). -/
def Fmt.pack (x : Fmt) (neg : Bool) (k : Nat) (q : Int) : Nat :=
  if k < 2 ^ x.f then x.signed neg k
  else if k = 2 ^ (x.f + 1) then x.signed neg ((q + 1 + x.bias + x.f).toNat * 2 ^ x.f)
  else x.signed neg ((q + x.bias + x.f).toNat * 2 ^ x.f + (k - 2 ^ x.f))

/-- The largest finite value. -/
def Fmt.maxBits (x : Fmt) (neg : Bool) : Nat := x.pack neg x.maxM x.maxE

/-- An infinity, or what stands for it in a format without infinities (R75). -/
def Fmt.infBits (x : Fmt) (neg : Bool) : Nat :=
  if x.inf then x.signed neg ((2 ^ (x.w - 1 - x.f) - 1) * 2 ^ x.f)
  else if x.nan then x.canon
  else x.maxBits neg

/-- Rounding modes (R74). -/
inductive RMode where
  | rne
  | rtz
  | rdn
  | rup
  | rna
  deriving DecidableEq, Repr

/-- The mode of a rounding code 0 to 4; code 5 reads ROUND_MODE (R32, R63). -/
def RMode.ofCode (c : Nat) : RMode :=
  match c with
  | 1 => .rtz
  | 2 => .rdn
  | 3 => .rup
  | 4 => .rna
  | _ => .rne

/-- The overflow rule (R75). -/
def Fmt.overflow (x : Fmt) (mode : RMode) (neg sat : Bool) : Nat :=
  if sat then x.maxBits neg
  else
    match mode, neg with
    | .rtz, _ => x.maxBits neg
    | .rdn, false => x.maxBits neg
    | .rup, true => x.maxBits neg
    | _, _ => x.infBits neg

/-- Whether the magnitude k + rest is rounded up to k + 1 (R74): `half` compares the rest with a half. -/
def roundUp (mode : RMode) (neg : Bool) (k : Nat) (inexact : Bool) (half : Ordering) : Bool :=
  inexact &&
    (match mode with
     | .rtz => false
     | .rdn => neg
     | .rup => !neg
     | .rna => half != .lt
     | .rne => half == .gt || (half == .eq && k % 2 == 1))

/-- The number of bits of a number, below 2^n. -/
def bitLen (m : Nat) : Nat := if m = 0 then 0 else m.log2 + 1

/-- A magnitude m * 2^e, and a little more if `sticky`, cut to the last bit 2^q: the whole part, whether
anything is left, and how the rest compares with a half. -/
def cutAt (m : Nat) (e q : Int) (sticky : Bool) : Nat × Bool × Ordering :=
  if q ≤ e then (m * 2 ^ (e - q).toNat, sticky, .lt)
  else
    let d := (q - e).toNat
    let r := m % 2 ^ d
    let h := 2 ^ (d - 1)
    (m / 2 ^ d, sticky || r != 0,
      if r < h then .lt else if r = h then (if sticky then .gt else .eq) else .gt)

/-- The rounded magnitude at the last bit 2^q. -/
def roundAt (mode : RMode) (neg : Bool) (m : Nat) (e q : Int) (sticky : Bool) : Nat × Bool :=
  let c := cutAt m e q sticky
  (if roundUp mode neg c.1 c.2.1 c.2.2 then c.1 + 1 else c.1, c.2.1)

/-- RoundTo of a non-zero magnitude m * 2^e, plus a little less than 2^e if `sticky` (R74, R75, R77). -/
def Fmt.round (x : Fmt) (mode : RMode) (sat neg : Bool) (m : Nat) (e : Int) (sticky : Bool) : FOut :=
  let u : Int := e + bitLen m - 1 - x.f
  let q0 : Int := 1 - x.bias - x.f
  let q := if u < q0 then q0 else u
  let r := roundAt mode neg m e q sticky
  let beyond := if x.maxE ≤ q then x.maxM < r.1 * 2 ^ (q - x.maxE).toNat
    else x.maxM * 2 ^ (x.maxE - q).toNat < r.1
  if beyond then ⟨x.overflow mode neg sat, overflowFlags⟩
  else
    let ru := roundAt mode neg m e u sticky
    let tiny := decide (u < q0) && decide (ru.1 < 2 ^ (x.f + (q0 - u).toNat))
    ⟨x.pack neg r.1 q, roundFlags r.2 tiny⟩

/-- RoundTo of an exact value (R74 to R76). -/
def Fmt.roundTo (x : Fmt) (mode : RMode) (sat : Bool) (v : Num) : FOut :=
  match v with
  | .nan s => if x.nan then ⟨x.canon, nvIf s⟩ else ⟨0, fNV⟩
  | .inf s =>
    if x.inf then ⟨if sat then x.maxBits s else x.infBits s, 0⟩
    else if sat then ⟨x.maxBits s, fNV⟩ else ⟨x.infBits s, fNV⟩
  | .fin s m e => if m = 0 then ⟨x.signed s 0, 0⟩ else x.round mode sat s m e false

/-! ### Exact sums and products -/

/-- An exact result and the flags raised before rounding. -/
structure Exact where
  v : Num
  fl : Nat
  deriving DecidableEq, Repr

/-- NV for a signalling NaN among the operands (R72). -/
def sigFlags (l : List Num) : Nat := nvIf (l.any Num.isSig)

/-- An exact product (R78, R208): 0 times an infinity is invalid. -/
def Num.mul (a b : Num) : Exact :=
  match a, b with
  | .nan _, _ => ⟨.nan false, 0⟩
  | _, .nan _ => ⟨.nan false, 0⟩
  | .inf s, .inf t => ⟨.inf (s != t), 0⟩
  | .inf s, .fin t m _ => if m = 0 then ⟨.nan false, fNV⟩ else ⟨.inf (s != t), 0⟩
  | .fin s m _, .inf t => if m = 0 then ⟨.nan false, fNV⟩ else ⟨.inf (s != t), 0⟩
  | .fin s m e, .fin t n f => ⟨.fin (s != t) (m * n) (e + f), 0⟩

/-- A finite value as an integer multiple of 2^q, for q at most its exponent. -/
def Num.at (v : Num) (q : Int) : Int :=
  match v with
  | .fin s m e => (if s then -1 else 1) * Int.ofNat (m * 2 ^ (e - q).toNat)
  | _ => 0

/-- The exponent of a finite value. -/
def Num.exp : Num → Int
  | .fin _ _ e => e
  | _ => 0

/-- The least exponent of a list of values. -/
def minExp : List Num → Int
  | [] => 0
  | [v] => v.exp
  | v :: t => min v.exp (minExp t)

/-- The exact sum of finite values, with the sign `zneg` if it is zero. -/
def sumFinite (zneg : Bool) (l : List Num) : Num :=
  let q := minExp l
  let s : Int := (l.map (fun v => v.at q)).sum
  if s = 0 then .fin zneg 0 0 else .fin (decide (s < 0)) s.natAbs q

/-- Whether every term is a zero with sign 1. -/
def allNegZero (l : List Num) : Bool := l.all (fun v => v.isZero && v.neg)

/-- A sum of exact terms (R78, R90): a NaN or opposite infinities give a NaN, and the sign of an exact zero is `zneg`.
DEDUCED (log entry 48): opposite infinities are invalid beside a NaN too, as R90 names them apart. -/
def sumWith (zneg : Bool) (l : List Num) : Exact :=
  let pos := l.contains (.inf false)
  let neg := l.contains (.inf true)
  if pos && neg then ⟨.nan false, fNV⟩
  else if l.any Num.isNan then ⟨.nan false, 0⟩
  else if pos then ⟨.inf false, 0⟩
  else if neg then ⟨.inf true, 0⟩
  else ⟨sumFinite zneg l, 0⟩

/-- A sum under the rule of R78 for multi-term sums: an exact zero is -0 if every term is -0, and otherwise +0, or -0 in RDN.
DEDUCED (log entry 48): so is an FMA whose terms are all +0, which the rule for such sums names, and not +0, as IEEE 754 alone
would give. -/
def sumTerms (mode : RMode) (l : List Num) : Exact :=
  sumWith (allNegZero l || mode == .rdn) l

/-- Addition of two values under IEEE 754 (R78): two zeros of one sign keep it. -/
def Num.add (mode : RMode) (a b : Num) : Exact :=
  let zneg := if a.isZero && b.isZero && a.neg == b.neg then a.neg else mode == .rdn
  sumWith zneg [a, b]

/-- Whether a value is an infinity. -/
def Num.isInf : Num → Bool
  | .inf _ => true
  | _ => false

/-- RoundTo after an exact computation, with the flags of both; a result that is infinite for exact reasons stays
infinite under saturation (R204). -/
def Exact.round (r : Exact) (x : Fmt) (mode : RMode) (sat : Bool) : FOut :=
  let o := x.roundTo mode (sat && !r.v.isInf) r.v
  ⟨o.bits, o.fl ||| r.fl⟩

/-- a + b, rounded once (R208). -/
def fAdd (x : Fmt) (mode : RMode) (sat : Bool) (a b : Num) : FOut :=
  let o := (Num.add mode a b).round x mode sat
  ⟨o.bits, o.fl ||| sigFlags [a, b]⟩

/-- a * b, rounded once (R208). -/
def fMul (x : Fmt) (mode : RMode) (sat : Bool) (a b : Num) : FOut :=
  let o := (Num.mul a b).round x mode sat
  ⟨o.bits, o.fl ||| sigFlags [a, b]⟩

/-- The sum of terms that are products or operands, rounded once: their invalid flags, and the NV of
signalling operands. -/
def fSum (x : Fmt) (mode : RMode) (sat : Bool) (ops : List Num) (terms : List Exact) : FOut :=
  let o := (sumTerms mode (terms.map (·.v))).round x mode sat
  ⟨o.bits, o.fl ||| orAll (terms.map (·.fl)) ||| sigFlags ops⟩

/-- A product with its sign inverted. -/
def Exact.negate (r : Exact) : Exact := ⟨r.v.negate, r.fl⟩

/-- a * b + c, rounded once (R208). -/
def fFma (x : Fmt) (mode : RMode) (sat : Bool) (a b c : Num) : FOut :=
  fSum x mode sat [a, b, c] [Num.mul a b, ⟨c, 0⟩]

/-! ### Comparison (R79, R80) -/

/-- The order of two values that are no NaNs; -0 and +0 are equal. -/
def Num.cmp (a b : Num) : Ordering :=
  match a, b with
  | .inf s, .inf t => if s = t then .eq else if s then .lt else .gt
  | .inf s, _ => if s then .lt else .gt
  | _, .inf t => if t then .gt else .lt
  | a, b => compare (a.at (min a.exp b.exp)) (b.at (min a.exp b.exp))

/-- a < b in the order of VMIN and VMAX, in which -0 is less than +0 (R79). -/
def Num.less (a b : Num) : Bool :=
  match a.cmp b with
  | .lt => true
  | .gt => false
  | .eq => a.neg && !b.neg

/-- The smaller, or the larger if `big`, of two lanes given with their encodings (R79): numbers
preferred, or NaN propagating if `prop`. -/
def fMinMax (x : Fmt) (big prop : Bool) (ab bb : Nat) : FOut :=
  let a := x.decode ab
  let b := x.decode bb
  let fl := sigFlags [a, b]
  match a.isNan, b.isNan with
  | true, true => ⟨x.canon, fl⟩
  | true, false => ⟨if prop then x.canon else bb, fl⟩
  | false, true => ⟨if prop then x.canon else ab, fl⟩
  | false, false =>
    if big then ⟨if b.less a then ab else bb, fl⟩ else ⟨if a.less b then ab else bb, fl⟩

/-! ### Conversions (R76, R82) -/

/-- A magnitude rounded to an integer by a mode: the integer, and whether it is inexact. -/
def roundInt (mode : RMode) (neg : Bool) (m : Nat) (e : Int) : Int × Bool :=
  let r := roundAt mode neg m e 0 false
  (if neg then -Int.ofNat r.1 else Int.ofNat r.1, r.2)

/-- Clamp (R7). -/
def clampI (x lo hi : Int) : Int := if x < lo then lo else if hi < x then hi else x

/-- Float to integer in a range (R82): clamped, NV out of range, NX where inexact. -/
def toIntRange (mode : RMode) (v : Num) (lo hi : Int) : Int × Nat :=
  match v with
  | .nan _ => (0, fNV)
  | .inf s => (if s then lo else hi, fNV)
  | .fin s m e =>
    let r := roundInt mode s m e
    if r.1 < lo ∨ hi < r.1 then (clampI r.1 lo hi, fNV)
    else (r.1, if r.2 then fNX else 0)

/-- An integer as an exact value. -/
def Num.ofInt (i : Int) : Num := .fin (decide (i < 0)) i.natAbs 0

/-! ### Square roots and quotients -/

/-- Integer square root, bit by bit: the root so far, and the next bit to try. -/
def isqrtFrom (n root : Nat) : Nat → Nat
  | 0 => root
  | k + 1 =>
    let c := root + 2 ^ k
    isqrtFrom n (if c * c ≤ n then c else root) k

/-- The integer square root of a number below 4^512. -/
def isqrt (n : Nat) : Nat := isqrtFrom n 0 (bitLen n / 2 + 1)

/-- A quotient of magnitudes, rounded (R223): m * 2^e over n * 2^f. -/
def quotRound (x : Fmt) (mode : RMode) (sat neg : Bool) (m : Nat) (e : Int) (n : Nat) (f : Int) : FOut :=
  let k := 64 + bitLen n
  x.round mode sat neg (m * 2 ^ k / n) (e - f - k) (m * 2 ^ k % n != 0)

/-- a / b (R223, R224). -/
def fDiv (x : Fmt) (mode : RMode) (sat : Bool) (a b : Num) : FOut :=
  let fl := sigFlags [a, b]
  match a, b with
  | .nan _, _ => ⟨x.canon, fl⟩
  | _, .nan _ => ⟨x.canon, fl⟩
  | .inf _, .inf _ => ⟨x.canon, fNV⟩
  | .inf s, .fin t _ _ => x.roundTo mode false (.inf (s != t))
  | .fin s _ _, .inf t => ⟨x.signed (s != t) 0, 0⟩
  | .fin s m e, .fin t n f =>
    if n = 0 then
      (if m = 0 then ⟨x.canon, fNV⟩
       else let o := x.roundTo mode false (.inf (s != t)); ⟨o.bits, o.fl ||| fDZ⟩)
    else if m = 0 then ⟨x.signed (s != t) 0, 0⟩
    else quotRound x mode sat (s != t) m e n f

/-- The value 1. -/
def Num.one : Num := .fin false 1 0

/-- 1 / a (R223, R224). -/
def fRcp (x : Fmt) (mode : RMode) (sat : Bool) (a : Num) : FOut := fDiv x mode sat Num.one a

/-- A magnitude with an even exponent. -/
def evenExp (m : Nat) (e : Int) : Nat × Int := if e % 2 = 0 then (m, e) else (2 * m, e - 1)

/-- √a (R223, R224). -/
def fSqrt (x : Fmt) (mode : RMode) (sat : Bool) (a : Num) : FOut :=
  match a with
  | .nan s => ⟨x.canon, nvIf s⟩
  | .inf s => if s then ⟨x.canon, fNV⟩ else x.roundTo mode false (.inf false)
  | .fin s m e =>
    if m = 0 then ⟨x.signed s 0, 0⟩
    else if s then ⟨x.canon, fNV⟩
    else
      let p := evenExp m e
      let n := p.1 * 2 ^ 128
      let r := isqrt n
      x.round mode sat false r (p.2 / 2 - 64) (r * r != n)

/-- 1 / √a (R223, R224). -/
def fRsq (x : Fmt) (mode : RMode) (sat : Bool) (a : Num) : FOut :=
  match a with
  | .nan s => ⟨x.canon, nvIf s⟩
  | .inf s => if s then ⟨x.canon, fNV⟩ else ⟨x.signed false 0, 0⟩
  | .fin s m e =>
    if m = 0 then let o := x.roundTo mode false (.inf s); ⟨o.bits, o.fl ||| fDZ⟩
    else if s then ⟨x.canon, fNV⟩
    else
      let p := evenExp m e
      let k := 128 + bitLen p.1
      let r := isqrt (2 ^ (2 * k) / p.1)
      x.round mode sat false r (-(p.2 / 2) - k) (r * r * p.1 != 2 ^ (2 * k))

/-! ### Fixed-point series for the transcendental functions

A number with `p` fraction bits is a Nat. Each function's error is below 2^32 units of the last place,
which `decideRound` takes into account. -/

/-- Σ t^(2k+1) / (2k+1), from the term `t` of index `k`: atanh, with t2 = t * t. -/
def atanhSum (p t2 : Nat) (term k : Nat) : Nat → Nat
  | 0 => 0
  | n + 1 => term / (2 * k + 1) + atanhSum p t2 (term * t2 / 2 ^ p) (k + 1) n

/-- atanh of a fixed-point number at most 1/3. -/
def atanhFix (p t : Nat) : Nat := atanhSum p (t * t / 2 ^ p) t 0 p

/-- ln 2 = 2 atanh (1/3). -/
def ln2Fix (p : Nat) : Nat := 2 * atanhFix p (2 ^ p / 3)

/-- Σ z^k / k!, from the term of index `k`. -/
def expSum (p z : Nat) (term k : Nat) : Nat → Nat
  | 0 => 0
  | n + 1 => term + expSum p z (term * z / 2 ^ p / (k + 1)) (k + 1) n

/-- e^z of a fixed-point z below 1. -/
def expFix (p z : Nat) : Nat := expSum p z (2 ^ p) 0 p

/-- 2^x for a fixed-point x: 2^n * a / 2^p with a in [2^p, 2^(p+1)); the result is (n, a). -/
def exp2Fix (p : Nat) (x : Int) : Int × Nat :=
  (x / 2 ^ p, expFix p ((x % 2 ^ p).toNat * ln2Fix p / 2 ^ p))

/-- m * 2^e as fixed point, rounded down. -/
def fixOf (p : Nat) (m : Nat) (e : Int) : Nat :=
  if 0 ≤ e + p then m * 2 ^ (e + p).toNat else m / 2 ^ (-(e + p)).toNat

/-- z / ln 2 for a fixed-point z. -/
def overLn2 (p : Nat) (z : Nat) : Nat := z * 2 ^ p / ln2Fix p

/-- Rounds a value that lies within 2^32 units of `a` * 2^e, at growing precision until both ends of the
interval round alike. The value is no format value. -/
def decideRound (x : Fmt) (mode : RMode) (sat neg : Bool) (f : Nat → Nat × Int) (p : Nat) : Nat → FOut
  | 0 => x.round mode sat neg (f p).1 (f p).2 true
  | n + 1 =>
    let r := f p
    let lo := x.round mode sat neg (r.1 - 2 ^ 32) r.2 true
    let hi := x.round mode sat neg (r.1 + 2 ^ 32) r.2 true
    if lo = hi then lo else decideRound x mode sat neg f (2 * p) n

/-- A value a little below a power of two: 2^e less a part below 2^(e-64) of it. -/
def justBelow (x : Fmt) (mode : RMode) (sat neg : Bool) (m : Nat) (e : Int) : FOut :=
  x.round mode sat neg (m * 2 ^ 64 - 1) (e - 64) true

/-- The magnitude of a finite value at least 2^k. -/
def magAtLeast (m : Nat) (e : Int) (k : Int) : Bool := k < e + bitLen m

/-- 2^a (R223, R224): exact for an integer. -/
def fExp2 (x : Fmt) (mode : RMode) (sat : Bool) (a : Num) : FOut :=
  match a with
  | .nan s => ⟨x.canon, nvIf s⟩
  | .inf s => if s then ⟨x.signed false 0, 0⟩ else x.roundTo mode false (.inf false)
  | .fin s m e =>
    if m = 0 then x.roundTo mode sat Num.one
    else if magAtLeast m e 11 then
      (if s then x.round mode sat false 1 (-4096) true else x.round mode sat false 1 4096 true)
    else
      let k := fixOf 160 m e
      if 0 ≤ e + 160 ∧ k % 2 ^ 160 = 0 then
        x.round mode sat false 1 (if s then -Int.ofNat (k / 2 ^ 160) else Int.ofNat (k / 2 ^ 160)) false
      else
        decideRound x mode sat false (fun p =>
          let v := Int.ofNat (fixOf p m e)
          let r := exp2Fix p (if s then -v else v)
          (r.2, r.1 - p)) 256 3

/-- log2 a (R223, R224): exact for a power of two. -/
def fLog2 (x : Fmt) (mode : RMode) (sat : Bool) (a : Num) : FOut :=
  match a with
  | .nan s => ⟨x.canon, nvIf s⟩
  | .inf s => if s then ⟨x.canon, fNV⟩ else x.roundTo mode false (.inf false)
  | .fin s m e =>
    if m = 0 then let o := x.roundTo mode false (.inf true); ⟨o.bits, o.fl ||| fDZ⟩
    else if s then ⟨x.canon, fNV⟩
    else
      let k : Int := e + bitLen m - 1
      if m = 2 ^ (bitLen m - 1) then x.roundTo mode sat (Num.ofInt k)
      else
        let num := fun (p : Nat) =>
          let y := m * 2 ^ p / 2 ^ (bitLen m - 1)
          let t := (y - 2 ^ p) * 2 ^ p / (y + 2 ^ p)
          k * 2 ^ p + Int.ofNat (2 * atanhFix p t * 2 ^ p / ln2Fix p)
        decideRound x mode sat (decide (k < 0)) (fun p => ((num p).natAbs, -p)) 256 3

/-- e^(-z) for a magnitude z = m * 2^e: (n, a) with the value 2^n * a / 2^p. -/
def expNeg (p m : Nat) (e : Int) : Int × Nat := exp2Fix p (-Int.ofNat (overLn2 p (fixOf p m e)))

/-- tanh a (R223, R224). -/
def fTanh (x : Fmt) (mode : RMode) (sat : Bool) (a : Num) : FOut :=
  match a with
  | .nan s => ⟨x.canon, nvIf s⟩
  | .inf s => x.roundTo mode sat (.fin s 1 0)
  | .fin s m e =>
    if m = 0 then ⟨x.signed s 0, 0⟩
    else if magAtLeast m e 6 then justBelow x mode sat s 1 0
    else if !magAtLeast m e (-60) then justBelow x mode sat s m e
    else
      decideRound x mode sat s (fun p =>
        let r := expNeg p m (e + 1)
        let u := r.2 / 2 ^ (-r.1).toNat
        ((2 ^ p - u) * 2 ^ p / (2 ^ p + u), -p)) 256 3

/-- 1 / (1 + e^(-a)) (R223, R224). -/
def fSigm (x : Fmt) (mode : RMode) (sat : Bool) (a : Num) : FOut :=
  match a with
  | .nan s => ⟨x.canon, nvIf s⟩
  | .inf s => if s then ⟨x.signed false 0, 0⟩ else x.roundTo mode sat Num.one
  | .fin s m e =>
    if m = 0 then x.roundTo mode sat (.fin false 1 (-1))
    else if s then
      (if magAtLeast m e 11 then x.round mode sat false 1 (-4096) true
       else
        decideRound x mode sat false (fun p =>
          let r := expNeg p m e
          (r.2 * 2 ^ p / (2 ^ p + r.2 / 2 ^ (-r.1).toNat), r.1 - p)) 256 3)
    else if magAtLeast m e 6 then justBelow x mode sat false 1 0
    else
      decideRound x mode sat false (fun p =>
        let r := expNeg p m e
        (2 ^ p * 2 ^ p / (2 ^ p + r.2 / 2 ^ (-r.1).toNat), -p)) 256 3

end Sys2Proof.Machine
end

