-- ==== Sys2Proof/Machine/Lanes.lean ====
section
/-! DEFINITION. Lanes of a vector register, element types, masks and the shared operations of the vector
pipe (R204 to R206, R223, R226). -/

namespace Sys2Proof.Machine

/-! ### Lanes -/

/-- An element type (R31, R215): a float format, or a signed or an unsigned integer of a width. -/
inductive Elem where
  | flt (x : Fmt)
  | int (w : Nat)
  | nat (w : Nat)
  deriving DecidableEq, Repr

/-- The element type of a 4-bit type code (R31); codes 0 to 7 are those of type3. -/
def elemOf (code : Nat) : Elem :=
  match code with
  | 0 => .flt Fmt.fp32
  | 1 => .flt Fmt.bf16
  | 2 => .flt Fmt.fp16
  | 3 => .int 32
  | 4 => .nat 32
  | 5 => .int 16
  | 6 => .int 8
  | 7 => .nat 8
  | 8 => .flt Fmt.e4m3
  | 9 => .flt Fmt.e5m2
  | 10 => .flt Fmt.e3m2
  | _ => .flt Fmt.e2m1

/-- The width of a lane of the type; every sub-byte type takes an 8-bit lane (R73). -/
def Elem.w : Elem → Nat
  | .flt x => if x.w < 8 then 8 else x.w
  | .int w => w
  | .nat w => w

/-- Lanes(T): 32, 64 or 128. -/
def Elem.lanes (e : Elem) : Nat := 1024 / e.w

/-- Lane `i` of a row, in lanes of `w` bits. -/
def laneOf (r : Row) (w i : Nat) : Nat := r.toNat / 2 ^ (w * i) % 2 ^ w

/-- Lanes of `w` bits side by side, lane 0 in the low bits. -/
def packLanes (w : Nat) : List Nat → Nat
  | [] => 0
  | l :: t => l % 2 ^ w + 2 ^ w * packLanes w t

/-- A row of lanes of `w` bits. -/
def rowOf (w : Nat) (l : List Nat) : Row := BitVec.ofNat 1024 (packLanes w l)

/-- Lane(f, i): lane `i` of v0 to v31, or the low bits of g0 to g31 in every lane (R204). -/
def Strand.lane (t : Strand) (f : BitVec 6) (w i : Nat) : Nat :=
  if f.toNat < 32 then laneOf (t.vreg f.toNat).val w i else (t.reg (f.toNat - 32)).val.toNat % 2 ^ w

/-- The 64-bit g register that a field of 32 to 63 names. -/
def Strand.gsrc (t : Strand) (f : BitVec 6) : Word := (t.reg (f.toNat - 32)).val

/-- A two's-complement value of `w` bits (R7). -/
def sext (x w : Nat) : Int := if x / 2 ^ (w - 1) % 2 = 1 then Int.ofNat (x % 2 ^ w) - 2 ^ w else Int.ofNat (x % 2 ^ w)

/-- A lane of an integer type read as its value. -/
def Elem.toInt (e : Elem) (x : Nat) : Int :=
  match e with
  | .int w => sext x w
  | .nat w => Int.ofNat (x % 2 ^ w)
  | .flt _ => 0

/-- A lane read as an exact number. -/
def Elem.num (e : Elem) (x : Nat) : Num :=
  match e with
  | .flt f => f.decode x
  | .int w => Num.ofInt (sext x w)
  | .nat w => Num.ofInt (Int.ofNat (x % 2 ^ w))

/-- minT (R204). -/
def Elem.minT : Elem → Int
  | .int w => -(2 ^ (w - 1))
  | .nat _ => 0
  | .flt _ => 0

/-- maxT (R204). -/
def Elem.maxT : Elem → Int
  | .int w => 2 ^ (w - 1) - 1
  | .nat w => 2 ^ w - 1
  | .flt _ => 0

/-- The low `w` bits of an integer. -/
def wrapI (i : Int) (w : Nat) : Nat := (i % 2 ^ w).toNat

/-- Res of an integer type (R204): wrapped, or clamped under sat. -/
def Elem.resI (e : Elem) (sat : Bool) (i : Int) : Nat :=
  wrapI (if sat then clampI i e.minT e.maxT else i) e.w

/-! ### The fields of a vector word -/

end Sys2Proof.Machine

namespace Sys2Proof

open Sys2Proof.Machine

/-- The element type of a vector word. -/
def VOp.elem (x : VOp) : Elem := elemOf x.ty.toNat

/-- The bytes of the instruction, with its prefix. -/
def VOp.len (x : VOp) : Nat := match x.pfx with | some _ => 8 | none => 4

/-- Whether an instruction keeps old bits of its destination (R206). -/
def Pfx.keeps (p : Pfx) : Bool := p.men && !p.zero

/-- The operand field a. -/
def VOp.fa (x : VOp) : Field := .v x.a x.pa

/-- The operand field b. -/
def VOp.fb (x : VOp) : Field := .v x.b x.pb

/-- The field c of the prefix. -/
def VOp.fc (x : VOp) : Field := .v x.p.c x.p.pc

/-- The destination, read where old bits of it are kept (R206). -/
def VOp.fd (x : VOp) : Field := .vd x.vd x.p.keeps

end Sys2Proof

namespace Sys2Proof.Machine

/-- Act(i) (R204). -/
def act (t : Strand) (p : Pfx) (i : Nat) : Bool := !p.men || (t.mask p.m).getLsbD i

/-- The rounding mode of a word at issue (R32, R206). -/
def Strand.rmode (t : Strand) (c : BitVec 3) : RMode :=
  RMode.ofCode (if c.toNat = 5 then t.roundMode.toNat else c.toNat)

/-- Put (R204) at lanes of `w` bits: what each of the lanes becomes. -/
def putLanes (t : Strand) (p : Pfx) (vd : BitVec 5) (w n : Nat) (r : Nat → FOut) : List FOut :=
  (List.range n).map (fun i =>
    if act t p i then r i
    else if p.zero then ⟨0, 0⟩ else ⟨laneOf (t.vreg vd.toNat).val w i, 0⟩)

/-- The row of a list of lane results. -/
def outRow (w : Nat) (l : List FOut) : Row := rowOf w (l.map (·.bits))

/-- The flags of a list of lane results. -/
def outFlags (l : List FOut) : Word := BitVec.ofNat 64 (orAll (l.map (·.fl)))

/-- Completion of a vector instruction: its row and its flags (R206). -/
def vfinish (s : State) (x : VOp) (w : Nat) (l : List FOut) : Host.Outcome State Fault Refusal :=
  finish s x.len (fun t => (t.setV x.vd.toNat (outRow w l)).orFlags (outFlags l))

/-- An instruction that does Put in every lane of its type, from the strand as it issues. -/
def vput (x : VOp) (fs : List Field) (s : State) (r : Strand → Nat → FOut) :
    Host.Outcome State Fault Refusal :=
  issue s { fields := fs } (fun s' =>
    vfinish s' x x.elem.w (putLanes s.cur x.p x.vd x.elem.w x.elem.lanes (r s.cur)))

/-- A result without flags. -/
def plain (x : Nat) : FOut := ⟨x, 0⟩

/-! ### Shared forms -/

/-- Two sources: a float function on values and an integer function on values, then Res (R208). -/
def vArith (x : VOp) (ff : Fmt → RMode → Bool → Num → Num → FOut) (fi : Int → Int → Int) (s : State) :
    Host.Outcome State Fault Refusal :=
  vput x [x.fa, x.fb, x.fd] s (fun t i =>
    let a := t.lane x.a x.elem.w i
    let b := t.lane x.b x.elem.w i
    match x.elem with
    | .flt f => ff f (t.rmode x.p.rnd) x.p.sat (f.decode a) (f.decode b)
    | e => plain (e.resI x.p.sat (fi (e.toInt a) (e.toInt b))))

/-- Three sources (R208). -/
def vFused (x : VOp) (ff : Fmt → RMode → Bool → Num → Num → Num → FOut) (fi : Int → Int → Int → Int)
    (s : State) : Host.Outcome State Fault Refusal :=
  vput x [x.fa, x.fb, x.fc, x.fd] s (fun t i =>
    let a := t.lane x.a x.elem.w i
    let b := t.lane x.b x.elem.w i
    let c := t.lane x.p.c x.elem.w i
    match x.elem with
    | .flt f => ff f (t.rmode x.p.rnd) x.p.sat (f.decode a) (f.decode b) (f.decode c)
    | e => plain (e.resI x.p.sat (fi (e.toInt a) (e.toInt b) (e.toInt c))))

/-- The smaller, or the larger, of two lanes of a type (R209). -/
def pick2 (e : Elem) (big prop : Bool) (a b : Nat) : FOut :=
  match e with
  | .flt f => fMinMax f big prop a b
  | e =>
    if big then plain (if e.toInt b < e.toInt a then a else b)
    else plain (if e.toInt a < e.toInt b then a else b)

/-- A minimum or a maximum (R209). -/
def vMinMax (x : VOp) (big prop : Bool) (s : State) : Host.Outcome State Fault Refusal :=
  vput x [x.fa, x.fb, x.fd] s (fun t i =>
    pick2 x.elem big prop (t.lane x.a x.elem.w i) (t.lane x.b x.elem.w i))

/-- A function of the bit patterns of two lanes (R211). -/
def vBits (x : VOp) (f : Nat → Nat → Nat) (s : State) : Host.Outcome State Fault Refusal :=
  vput x [x.fa, x.fb, x.fd] s (fun t i => plain (f (t.lane x.a x.elem.w i) (t.lane x.b x.elem.w i)))

/-- What a sign operation does to a float encoding (R210): a NaN becomes Canon. -/
def signOp (f : Fmt) (a : Nat) (r : Nat) : FOut :=
  match f.decode a with
  | .nan sg => ⟨f.canon, nvIf sg⟩
  | _ => plain r

/-- The condition of a comparison of a type, and its flags (R80, R212). `eq`, `lt` say which orders hold,
`un` what a NaN gives, and `ord` whether any NaN raises NV. -/
def cmpLane (e : Elem) (lt eq gt un ord : Bool) (a b : Nat) : FOut :=
  let of3 := fun (o : Ordering) => match o with | .lt => lt | .eq => eq | .gt => gt
  match e with
  | .flt f =>
    let x := f.decode a
    let y := f.decode b
    if x.isNan || y.isNan then ⟨un.toNat, nvIf (ord || x.isSig || y.isSig)⟩
    else plain (of3 (x.cmp y)).toNat
  | e => plain (of3 (compare (e.toInt a) (e.toInt b))).toNat

/-- A comparison into a mask register (R212). -/
def vCompare (x : VOp) (lt eq gt un ord : Bool) (s : State) : Host.Outcome State Fault Refusal :=
  issue s { fields := [x.fa, x.fb] } (fun s' =>
    let md : BitVec 3 := x.vd.setWidth 3
    let old := s.cur.mask md
    let outs := (List.range x.elem.lanes).map (fun i =>
      if act s.cur x.p i then
        cmpLane x.elem lt eq gt un ord (s.cur.lane x.a x.elem.w i) (s.cur.lane x.b x.elem.w i)
      else plain (if x.p.zero then 0 else (old.getLsbD i).toNat))
    finish s' x.len (fun t =>
      (t.setM md (BitVec.ofNat 128 (packLanes 1 (outs.map (·.bits))))).orFlags (outFlags outs)))

/-- A mask operation (R226): bits W and above are cleared. -/
def vMask (x : VOp) (f : Bool → Bool → Bool) (s : State) : Host.Outcome State Fault Refusal :=
  issue s { } (fun s' =>
    let a := s.cur.mask (x.a.setWidth 3)
    let b := s.cur.mask (x.b.setWidth 3)
    let bits := (List.range x.elem.lanes).map (fun i => (f (a.getLsbD i) (b.getLsbD i)).toNat)
    finish s' x.len (fun t => t.setM (x.vd.setWidth 3) (BitVec.ofNat 128 (packLanes 1 bits))))

/-- The entries of a core's special-function unit (R195). -/
def State.sfuCount (s : State) (core : Nat) : Nat := (s.sfu.filter (fun e => e.core == core)).length

/-- A special function (R195, R223): the destination is empty at issue, and the entry writes it and its
flags when it completes; with 8 entries queued the strand is not eligible. -/
def vSpecial (x : VOp) (fs : List Field) (r : Strand → Nat → FOut) (s : State) :
    Host.Outcome State Fault Refusal :=
  issue s { fields := fs } (fun s' =>
    if Config.sfuDepth ≤ s.sfuCount s.cur.core then stall s
    else
      let outs := putLanes s.cur x.p x.vd x.elem.w x.elem.lanes (r s.cur)
      let e : SfuEntry := { core := s.cur.core, strand := s.cur.uid, vd := x.vd.toNat,
                            row := outRow x.elem.w outs, flags := outFlags outs }
      finish { s' with sfu := s'.sfu ++ [e] } x.len (fun t => t.onV x.vd.toNat VReg.wait))

/-- A special function of one operand (R223). -/
def vSpecial1 (x : VOp) (f : Fmt → RMode → Bool → Num → FOut) (s : State) :
    Host.Outcome State Fault Refusal :=
  vSpecial x [x.fa, x.fd] (fun t i =>
    match x.elem with
    | .flt m => f m (t.rmode x.p.rnd) x.p.sat (m.decode (t.lane x.a x.elem.w i))
    | _ => plain 0) s

/-! ### Reductions and scans -/

/-- A lane that enters a float sum: a NaN becomes Canon, and a signalling one raises NV (R72). -/
def enterSum (f : Fmt) (b : Nat) : FOut :=
  match f.decode b with
  | .nan sg => ⟨f.canon, nvIf sg⟩
  | _ => plain b

/-- -0. -/
def negZero (f : Fmt) : Nat := f.signed true 0

/-- One rounded addition of encodings. -/
def addBits (f : Fmt) (mode : RMode) (sat : Bool) (a b : Nat) : FOut :=
  fAdd f mode sat (f.decode a) (f.decode b)

/-- The tree of R91: the lanes, and the flags so far. -/
def treeSum (f : Fmt) (mode : RMode) (sat : Bool) (l : List Nat) (fl : Nat) : Nat → FOut
  | 0 => ⟨l.headD 0, fl⟩
  | n + 1 =>
    let h := l.length / 2
    let r := List.zipWith (addBits f mode sat) (l.take h) (l.drop h)
    treeSum f mode sat (r.map (·.bits)) (fl ||| orAll (r.map (·.fl))) n

/-- One step of the order of R92 at distance `d`. -/
def scanStep (f : Fmt) (mode : RMode) (sat : Bool) (d : Nat) (l : List Nat) : List FOut :=
  (l.take d).map plain ++ List.zipWith (addBits f mode sat) l (l.drop d)

/-- The Kogge–Stone order of R92: the lanes, and the flags so far. -/
def scanSum (f : Fmt) (mode : RMode) (sat : Bool) (d : Nat) (l : List Nat) (fl : Nat) :
    Nat → List Nat × Nat
  | 0 => (l, fl)
  | n + 1 =>
    let r := scanStep f mode sat d l
    scanSum f mode sat (2 * d) (r.map (·.bits)) (fl ||| orAll (r.map (·.fl))) n

/-- Inclusive prefix sums of integers. -/
def prefixSums (acc : Int) : List Int → List Int
  | [] => []
  | x :: t => (acc + x) :: prefixSums (acc + x) t

/-- The number of halvings of the lanes of a type. -/
def Elem.steps (e : Elem) : Nat := bitLen e.lanes - 1

/-- A reduction's result in lane 0, and zeros above it (R220). -/
def vReduce (x : VOp) (r : Strand → FOut) (s : State) : Host.Outcome State Fault Refusal :=
  issue s { fields := [x.fa, x.fd] } (fun s' => vfinish s' x x.elem.w [r s.cur])

/-- The lanes of a that are active, and `e` in the others. -/
def activeOr (t : Strand) (x : VOp) (e : FOut) (enter : Nat → FOut) : List FOut :=
  (List.range x.elem.lanes).map (fun i => if act t x.p i then enter (t.lane x.a x.elem.w i) else e)

/-- VREDA (R220, R91). -/
def redSum (t : Strand) (x : VOp) : FOut :=
  match x.elem with
  | .flt f =>
    let l := activeOr t x (plain (negZero f)) (enterSum f)
    treeSum f (t.rmode x.p.rnd) x.p.sat (l.map (·.bits)) (orAll (l.map (·.fl))) x.elem.steps
  | e => plain (e.resI x.p.sat ((activeOr t x (plain 0) plain).map (fun o => e.toInt o.bits)).sum)

/-- The lane a maximum or minimum of a row selects, from the identity of R220. -/
def redPick (t : Strand) (x : VOp) (big : Bool) : FOut :=
  let ident := match x.elem with
    | .flt f => f.canon
    | e => wrapI (if big then e.minT else e.maxT) e.w
  (activeOr t x (plain ident) plain).foldl
    (fun acc o => let r := pick2 x.elem big false acc.bits o.bits; ⟨r.bits, acc.fl ||| r.fl⟩) (plain ident)

end Sys2Proof.Machine
end

