-- ==== Sys2Proof/Machine/Scalar.lean ====
section
/-! DEFINITION. The scalar integer instructions: majors 0 to 4 (R40 to R44), the bitfields of major 7
(R59), the operand-extension moves of major 19 (R60), and the compact words of quadrant 00 (R37). -/

namespace Sys2Proof.Machine

/-! ### Values -/

/-- 1 or 0. -/
def bit (b : Bool) : Word := if b then 1 else 0

/-- Leading zero bits among the low `n` bits. -/
def clzFrom (a : Word) : Nat → Nat
  | 0 => 0
  | n + 1 => if a.getLsbD n then 0 else 1 + clzFrom a n

/-- Trailing zero bits from bit `i`, of `n` bits. -/
def ctzFrom (a : Word) (i : Nat) : Nat → Nat
  | 0 => 0
  | n + 1 => if a.getLsbD i then 0 else 1 + ctzFrom a (i + 1) n

/-- One bits among the low `n` bits. -/
def popFrom (a : Word) : Nat → Nat
  | 0 => 0
  | n + 1 => (if a.getLsbD n then 1 else 0) + popFrom a n

/-- ADD: sa + sb (R40). -/
def aluAdd (a b : Word) : Word := BitVec.ofInt 64 (a.toInt + b.toInt)

/-- SUB: sa - sb (R40). -/
def aluSub (a b : Word) : Word := BitVec.ofInt 64 (a.toInt - b.toInt)

/-- MUL: sa * sb (R40). -/
def aluMul (a b : Word) : Word := BitVec.ofInt 64 (a.toInt * b.toInt)

/-- MULH: (sa * sb) >> 64 (R40). -/
def aluMulh (a b : Word) : Word := BitVec.ofInt 64 (a.toInt * b.toInt / 2 ^ 64)

/-- MULHN: (ua * ub) >> 64 (R40). -/
def aluMulhn (a b : Word) : Word := BitVec.ofNat 64 (a.toNat * b.toNat / 2 ^ 64)

/-- DIV: -1 if sb = 0, else the quotient rounded toward zero (R40). -/
def aluDiv (a b : Word) : Word := if b = 0 then BitVec.ofInt 64 (-1) else BitVec.ofInt 64 (a.toInt.tdiv b.toInt)

/-- DIVN: -1 if ub = 0, else the unsigned quotient (R40). -/
def aluDivn (a b : Word) : Word := if b = 0 then BitVec.ofInt 64 (-1) else BitVec.ofNat 64 (a.toNat / b.toNat)

/-- REM: sa if sb = 0, else the signed remainder (R40). -/
def aluRem (a b : Word) : Word := if b = 0 then a else BitVec.ofInt 64 (a.toInt - b.toInt * a.toInt.tdiv b.toInt)

/-- REMN: ua if ub = 0, else the unsigned remainder (R40). -/
def aluRemn (a b : Word) : Word := if b = 0 then a else BitVec.ofNat 64 (a.toNat % b.toNat)

/-- AND: ua & ub (R40). -/
def aluAnd (a b : Word) : Word := a &&& b

/-- OR: ua | ub (R40). -/
def aluOr (a b : Word) : Word := a ||| b

/-- XOR: ua ^ ub (R40). -/
def aluXor (a b : Word) : Word := a ^^^ b

/-- ANDN: ua & ~ub (R40). -/
def aluAndn (a b : Word) : Word := a &&& ~~~b

/-- ORN: ua | ~ub (R40). -/
def aluOrn (a b : Word) : Word := a ||| ~~~b

/-- SHL: ua << ub[5:0] (R40). -/
def aluShl (a b : Word) : Word := a <<< (b.toNat % 64)

/-- SHR: ua >> ub[5:0] (R40). -/
def aluShr (a b : Word) : Word := a >>> (b.toNat % 64)

/-- SRA: sa >> ub[5:0] (R40). -/
def aluSra (a b : Word) : Word := a.sshiftRight (b.toNat % 64)

/-- ROT: rotation right by ub[5:0] (R40). -/
def aluRot (a b : Word) : Word := (a >>> (b.toNat % 64)) ||| (a <<< (64 - b.toNat % 64))

/-- MIN: sa if sa < sb, else sb (R40). -/
def aluMin (a b : Word) : Word := if a.toInt < b.toInt then a else b

/-- MAX: sa if sa > sb, else sb (R40). -/
def aluMax (a b : Word) : Word := if b.toInt < a.toInt then a else b

/-- MINN: ua if ua < ub, else ub (R40). -/
def aluMinn (a b : Word) : Word := if a.toNat < b.toNat then a else b

/-- MAXN: ua if ua > ub, else ub (R40). -/
def aluMaxn (a b : Word) : Word := if b.toNat < a.toNat then a else b

/-- SEQ: 1 if ua = ub (R40). -/
def aluSeq (a b : Word) : Word := bit (decide (a = b))

/-- SNE: 1 if ua != ub (R40). -/
def aluSne (a b : Word) : Word := bit (decide (a ≠ b))

/-- SLT: 1 if sa < sb (R40). -/
def aluSlt (a b : Word) : Word := bit (decide (a.toInt < b.toInt))

/-- SLTN: 1 if ua < ub (R40). -/
def aluSltn (a b : Word) : Word := bit (decide (a.toNat < b.toNat))

/-- SLE: 1 if sa <= sb (R40). -/
def aluSle (a b : Word) : Word := bit (decide (a.toInt ≤ b.toInt))

/-- SLEN: 1 if ua <= ub (R40). -/
def aluSlen (a b : Word) : Word := bit (decide (a.toNat ≤ b.toNat))

/-- ADDW: Sext((sa + sb)[31:0], 32) (R40). -/
def aluAddw (a b : Word) : Word := ((a + b).setWidth 32).signExtend 64

/-- SUBW: Sext((sa - sb)[31:0], 32) (R40). -/
def aluSubw (a b : Word) : Word := ((a - b).setWidth 32).signExtend 64

/-- LEA: ua + (ub << 3) (R40). -/
def aluLea (a b : Word) : Word := a + (b <<< 3)

/-- LEAW: ua + (ub << 2) (R40). -/
def aluLeaw (a b : Word) : Word := a + (b <<< 2)

/-- CLZ: count of leading zero bits; 64 if ua = 0 (R42). -/
def aluClz (a : Word) : Word := BitVec.ofNat 64 (clzFrom a 64)

/-- CTZ: count of trailing zero bits; 64 if ua = 0 (R42). -/
def aluCtz (a : Word) : Word := BitVec.ofNat 64 (ctzFrom a 0 64)

/-- POPC: count of one bits (R42). -/
def aluPopc (a : Word) : Word := BitVec.ofNat 64 (popFrom a 64)

/-- BREV: bit i moved to bit 63 - i (R42). -/
def aluBrev (a : Word) : Word := a.reverse

/-- ABS: -sa if sa < 0, else sa (R42). -/
def aluAbs (a : Word) : Word := if a.toInt < 0 then -a else a

/-- NEG: -sa (R42). -/
def aluNeg (a : Word) : Word := -a

/-- SXTB: Sext(ua, 8) (R42). -/
def aluSxtb (a : Word) : Word := (a.setWidth 8).signExtend 64

/-- SXTH: Sext(ua, 16) (R42). -/
def aluSxth (a : Word) : Word := (a.setWidth 16).signExtend 64

/-- SXTW: Sext(ua, 32) (R42). -/
def aluSxtw (a : Word) : Word := (a.setWidth 32).signExtend 64

/-- ZXTB: Zext(ua, 8) (R42). -/
def aluZxtb (a : Word) : Word := (a.setWidth 8).setWidth 64

/-- ZXTH: Zext(ua, 16) (R42). -/
def aluZxth (a : Word) : Word := (a.setWidth 16).setWidth 64

/-- ZXTW: Zext(ua, 32) (R42). -/
def aluZxtw (a : Word) : Word := (a.setWidth 32).setWidth 64

/-- ADDI: sa + imm, imm sign-extended (R43). -/
def aluAddi (a i : Word) : Word := a + i

/-- ANDI: ua & imm, imm sign-extended (R43). -/
def aluAndi (a i : Word) : Word := a &&& i

/-- ORI: ua | imm, imm sign-extended (R43). -/
def aluOri (a i : Word) : Word := a ||| i

/-- XORI: ua ^ imm, imm sign-extended (R43). -/
def aluXori (a i : Word) : Word := a ^^^ i

/-- SLTI: 1 if sa < imm, imm sign-extended (R43). -/
def aluSlti (a i : Word) : Word := bit (decide (a.toInt < i.toInt))

/-! ### Shared operations -/

/-- A two-source operation of major 0: the fields, the checks, the result into d and y0 (R40, R25). -/
def alu3 (x : A3) (len : Nat) (f : Word → Word → Word) (s : State) : Host.Outcome State Fault Refusal :=
  issue s { fields := [.s x.a x.pa 14, .s x.b x.pb 21, .d x.d 7], cap := .allowed } (fun s' =>
    finish s' len (fun t => t.result x.d (f (s.cur.val x.a) (s.cur.val x.b))))

/-- A one-source operation (R42, R43). -/
def alu2 (x : A2) (len : Nat) (f : Word → Word) (s : State) : Host.Outcome State Fault Refusal :=
  issue s { fields := [.s x.a x.pa 14, .d x.d 7], cap := .allowed } (fun s' =>
    finish s' len (fun t => t.result x.d (f (s.cur.val x.a))))

/-- An operation without a source (R44). -/
def alu1 (d : BitVec 6) (len : Nat) (v : Word) (s : State) : Host.Outcome State Fault Refusal :=
  issue s { fields := [.d d 7], cap := .allowed } (fun s' => finish s' len (fun t => t.result d v))

/-- A 3-bit register field of a compact word, zero-extended (R37). -/
def c3 (r : BitVec 3) : BitVec 6 := r.setWidth 6

/-- Compact words that name g0 to g7 are outside the list of a capsule (R370 code 2). -/
def compact (s : State) (fs : List Field) (k : State → Host.Outcome State Fault Refusal) :
    Host.Outcome State Fault Refusal :=
  issue s { fields := fs, cap := .outside } k

/-- A compact two-source operation (R37). -/
def calu3 (d a b : BitVec 3) (f : Word → Word → Word) (s : State) : Host.Outcome State Fault Refusal :=
  compact s [.s (c3 a) false 9, .s (c3 b) false 12, .d (c3 d) 6] (fun s' =>
    finish s' 2 (fun t => t.result (c3 d) (f (s.cur.val (c3 a)) (s.cur.val (c3 b)))))

/-- A compact one-source operation (R37). -/
def calu2 (d a : BitVec 3) (f : Word → Word) (s : State) : Host.Outcome State Fault Refusal :=
  compact s [.s (c3 a) false 9, .d (c3 d) 6] (fun s' =>
    finish s' 2 (fun t => t.result (c3 d) (f (s.cur.val (c3 a)))))

/-! ### The instructions -/

/-- ADD (R40). -/
def execAdd (x : A3) (s : State) : Host.Outcome State Fault Refusal := alu3 x 4 aluAdd s

/-- SUB (R40). -/
def execSub (x : A3) (s : State) : Host.Outcome State Fault Refusal := alu3 x 4 aluSub s

/-- MUL (R40). -/
def execMul (x : A3) (s : State) : Host.Outcome State Fault Refusal := alu3 x 4 aluMul s

/-- MULH (R40). -/
def execMulh (x : A3) (s : State) : Host.Outcome State Fault Refusal := alu3 x 4 aluMulh s

/-- MULHN (R40). -/
def execMulhn (x : A3) (s : State) : Host.Outcome State Fault Refusal := alu3 x 4 aluMulhn s

/-- DIV (R40). -/
def execDiv (x : A3) (s : State) : Host.Outcome State Fault Refusal := alu3 x 4 aluDiv s

/-- DIVN (R40). -/
def execDivn (x : A3) (s : State) : Host.Outcome State Fault Refusal := alu3 x 4 aluDivn s

/-- REM (R40). -/
def execRem (x : A3) (s : State) : Host.Outcome State Fault Refusal := alu3 x 4 aluRem s

/-- REMN (R40). -/
def execRemn (x : A3) (s : State) : Host.Outcome State Fault Refusal := alu3 x 4 aluRemn s

/-- AND (R40). -/
def execAnd (x : A3) (s : State) : Host.Outcome State Fault Refusal := alu3 x 4 aluAnd s

/-- OR (R40). -/
def execOr (x : A3) (s : State) : Host.Outcome State Fault Refusal := alu3 x 4 aluOr s

/-- XOR (R40). -/
def execXor (x : A3) (s : State) : Host.Outcome State Fault Refusal := alu3 x 4 aluXor s

/-- ANDN (R40). -/
def execAndn (x : A3) (s : State) : Host.Outcome State Fault Refusal := alu3 x 4 aluAndn s

/-- ORN (R40). -/
def execOrn (x : A3) (s : State) : Host.Outcome State Fault Refusal := alu3 x 4 aluOrn s

/-- SHL (R40). -/
def execShl (x : A3) (s : State) : Host.Outcome State Fault Refusal := alu3 x 4 aluShl s

/-- SHR (R40). -/
def execShr (x : A3) (s : State) : Host.Outcome State Fault Refusal := alu3 x 4 aluShr s

/-- SRA (R40). -/
def execSra (x : A3) (s : State) : Host.Outcome State Fault Refusal := alu3 x 4 aluSra s

/-- ROT (R40). -/
def execRot (x : A3) (s : State) : Host.Outcome State Fault Refusal := alu3 x 4 aluRot s

/-- MIN (R40). -/
def execMin (x : A3) (s : State) : Host.Outcome State Fault Refusal := alu3 x 4 aluMin s

/-- MAX (R40). -/
def execMax (x : A3) (s : State) : Host.Outcome State Fault Refusal := alu3 x 4 aluMax s

/-- MINN (R40). -/
def execMinn (x : A3) (s : State) : Host.Outcome State Fault Refusal := alu3 x 4 aluMinn s

/-- MAXN (R40). -/
def execMaxn (x : A3) (s : State) : Host.Outcome State Fault Refusal := alu3 x 4 aluMaxn s

/-- SEQ (R40). -/
def execSeq (x : A3) (s : State) : Host.Outcome State Fault Refusal := alu3 x 4 aluSeq s

/-- SNE (R40). -/
def execSne (x : A3) (s : State) : Host.Outcome State Fault Refusal := alu3 x 4 aluSne s

/-- SLT (R40). -/
def execSlt (x : A3) (s : State) : Host.Outcome State Fault Refusal := alu3 x 4 aluSlt s

/-- SLTN (R40). -/
def execSltn (x : A3) (s : State) : Host.Outcome State Fault Refusal := alu3 x 4 aluSltn s

/-- SLE (R40). -/
def execSle (x : A3) (s : State) : Host.Outcome State Fault Refusal := alu3 x 4 aluSle s

/-- SLEN (R40). -/
def execSlen (x : A3) (s : State) : Host.Outcome State Fault Refusal := alu3 x 4 aluSlen s

/-- ADDW (R40). -/
def execAddw (x : A3) (s : State) : Host.Outcome State Fault Refusal := alu3 x 4 aluAddw s

/-- SUBW (R40). -/
def execSubw (x : A3) (s : State) : Host.Outcome State Fault Refusal := alu3 x 4 aluSubw s

/-- LEA (R40). -/
def execLea (x : A3) (s : State) : Host.Outcome State Fault Refusal := alu3 x 4 aluLea s

/-- LEAW (R40). -/
def execLeaw (x : A3) (s : State) : Host.Outcome State Fault Refusal := alu3 x 4 aluLeaw s

/-- CLZ (R42). -/
def execClz (x : A2) (s : State) : Host.Outcome State Fault Refusal := alu2 x 4 aluClz s

/-- CTZ (R42). -/
def execCtz (x : A2) (s : State) : Host.Outcome State Fault Refusal := alu2 x 4 aluCtz s

/-- POPC (R42). -/
def execPopc (x : A2) (s : State) : Host.Outcome State Fault Refusal := alu2 x 4 aluPopc s

/-- BREV (R42). -/
def execBrev (x : A2) (s : State) : Host.Outcome State Fault Refusal := alu2 x 4 aluBrev s

/-- ABS (R42). -/
def execAbs (x : A2) (s : State) : Host.Outcome State Fault Refusal := alu2 x 4 aluAbs s

/-- NEG (R42). -/
def execNeg (x : A2) (s : State) : Host.Outcome State Fault Refusal := alu2 x 4 aluNeg s

/-- SXTB (R42). -/
def execSxtb (x : A2) (s : State) : Host.Outcome State Fault Refusal := alu2 x 4 aluSxtb s

/-- SXTH (R42). -/
def execSxth (x : A2) (s : State) : Host.Outcome State Fault Refusal := alu2 x 4 aluSxth s

/-- SXTW (R42). -/
def execSxtw (x : A2) (s : State) : Host.Outcome State Fault Refusal := alu2 x 4 aluSxtw s

/-- ZXTB (R42). -/
def execZxtb (x : A2) (s : State) : Host.Outcome State Fault Refusal := alu2 x 4 aluZxtb s

/-- ZXTH (R42). -/
def execZxth (x : A2) (s : State) : Host.Outcome State Fault Refusal := alu2 x 4 aluZxth s

/-- ZXTW (R42). -/
def execZxtw (x : A2) (s : State) : Host.Outcome State Fault Refusal := alu2 x 4 aluZxtw s

/-- ADDI (R43). -/
def execAddi (x : A2) (imm : BitVec 9) (s : State) : Host.Outcome State Fault Refusal :=
  alu2 x 4 (fun a => aluAddi a (imm.signExtend 64)) s

/-- ANDI (R43). -/
def execAndi (x : A2) (imm : BitVec 9) (s : State) : Host.Outcome State Fault Refusal :=
  alu2 x 4 (fun a => aluAndi a (imm.signExtend 64)) s

/-- ORI (R43). -/
def execOri (x : A2) (imm : BitVec 9) (s : State) : Host.Outcome State Fault Refusal :=
  alu2 x 4 (fun a => aluOri a (imm.signExtend 64)) s

/-- XORI (R43). -/
def execXori (x : A2) (imm : BitVec 9) (s : State) : Host.Outcome State Fault Refusal :=
  alu2 x 4 (fun a => aluXori a (imm.signExtend 64)) s

/-- SLTI (R43). -/
def execSlti (x : A2) (imm : BitVec 9) (s : State) : Host.Outcome State Fault Refusal :=
  alu2 x 4 (fun a => aluSlti a (imm.signExtend 64)) s

/-- SHLI: the shift amount is imm9[5:0] (R43). -/
def execShli (x : A2) (n : BitVec 6) (s : State) : Host.Outcome State Fault Refusal :=
  alu2 x 4 (fun a => aluShl a (n.setWidth 64)) s

/-- SHRI: the shift amount is imm9[5:0] (R43). -/
def execShri (x : A2) (n : BitVec 6) (s : State) : Host.Outcome State Fault Refusal :=
  alu2 x 4 (fun a => aluShr a (n.setWidth 64)) s

/-- SRAI: the shift amount is imm9[5:0] (R43). -/
def execSrai (x : A2) (n : BitVec 6) (s : State) : Host.Outcome State Fault Refusal :=
  alu2 x 4 (fun a => aluSra a (n.setWidth 64)) s

/-- LI (R44). -/
def execLi (d : BitVec 6) (imm : BitVec 19) (s : State) : Host.Outcome State Fault Refusal :=
  alu1 d 4 (imm.signExtend 64) s

/-- LIU (R44): imm19 shifted left by 13. -/
def execLiu (d : BitVec 6) (imm : BitVec 19) (s : State) : Host.Outcome State Fault Refusal :=
  alu1 d 4 (imm.signExtend 64 <<< 13) s

/-- The position of the bitfield in e6 (R59). -/
def fieldPos (e6 : Word) : Nat := e6.toNat % 64

/-- The length of the bitfield, cut at bit 63 (R59). -/
def fieldLen (e6 : Word) : Nat := min (e6.toNat / 256 % 128) (64 - fieldPos e6)

/-- The value EXT writes (R59). -/
def extValue (e6 a : Word) : Word :=
  let n := fieldLen e6
  let f := a.toNat / 2 ^ fieldPos e6 % 2 ^ n
  if e6.getLsbD 15 && decide (0 < n) && f.testBit (n - 1) then BitVec.ofInt 64 (Int.ofNat f - 2 ^ n)
  else BitVec.ofNat 64 f

/-- The value INS writes (R59). -/
def insValue (e6 old a : Word) : Word :=
  let mask : Word := BitVec.ofNat 64 ((2 ^ fieldLen e6 - 1) * 2 ^ fieldPos e6)
  (old &&& ~~~mask) ||| ((a <<< fieldPos e6) &&& mask)

/-- EXT (R59). Outside the list of a capsule (R370). -/
def execExt (x : A2) (s : State) : Host.Outcome State Fault Refusal :=
  issue s { fields := [.s x.a x.pa 14, .d x.d 7] } (fun s' =>
    finish s' 4 (fun t => t.result x.d (extValue (s.cur.ext 6) (s.cur.val x.a))))

/-- INS (R59): d is read under policy 0. -/
def execIns (x : A2) (s : State) : Host.Outcome State Fault Refusal :=
  issue s { fields := [.s x.a x.pa 14, .sd x.d false 7] } (fun s' =>
    finish s' 4 (fun t => t.result x.d (insValue (s.cur.ext 6) (s.cur.val x.d) (s.cur.val x.a))))

/-- XMOV (R60). -/
def execXmov (i : BitVec 3) (x : A1) (s : State) : Host.Outcome State Fault Refusal :=
  issue s { fields := [.s x.a x.pa 14] } (fun s' =>
    finish s' 4 (fun t => (t.enterY (s.cur.val x.a)).setE i (s.cur.val x.a)))

/-- XGET (R60). -/
def execXget (i : BitVec 3) (d : BitVec 6) (s : State) : Host.Outcome State Fault Refusal :=
  issue s { fields := [.d d 7] } (fun s' => finish s' 4 (fun t => t.result d (s.cur.ext i)))

/-- XCLR (R60). -/
def execXclr (s : State) : Host.Outcome State Fault Refusal :=
  issue s { } (fun s' => finish s' 4 (fun t => { t with e := Vector.replicate 8 0 }))

/-- C.ADD (R37). -/
def execCAdd (d a b : BitVec 3) (s : State) : Host.Outcome State Fault Refusal := calu3 d a b aluAdd s

/-- C.SUB (R37). -/
def execCSub (d a b : BitVec 3) (s : State) : Host.Outcome State Fault Refusal := calu3 d a b aluSub s

/-- C.AND (R37). -/
def execCAnd (d a b : BitVec 3) (s : State) : Host.Outcome State Fault Refusal := calu3 d a b aluAnd s

/-- C.OR (R37). -/
def execCOr (d a b : BitVec 3) (s : State) : Host.Outcome State Fault Refusal := calu3 d a b aluOr s

/-- C.XOR (R37). -/
def execCXor (d a b : BitVec 3) (s : State) : Host.Outcome State Fault Refusal := calu3 d a b aluXor s

/-- C.SLT (R37). -/
def execCSlt (d a b : BitVec 3) (s : State) : Host.Outcome State Fault Refusal := calu3 d a b aluSlt s

/-- C.MOV: ADDI gd, ga, 0 (R37). -/
def execCMov (d a : BitVec 3) (s : State) : Host.Outcome State Fault Refusal :=
  calu2 d a (fun v => aluAddi v 0) s

/-- C.ADDI (R37). -/
def execCAddi (d a : BitVec 3) (imm : BitVec 4) (s : State) : Host.Outcome State Fault Refusal :=
  calu2 d a (fun v => aluAddi v (imm.signExtend 64)) s

/-- C.SHLI (R37). -/
def execCShli (d a : BitVec 3) (imm : BitVec 4) (s : State) : Host.Outcome State Fault Refusal :=
  calu2 d a (fun v => aluShl v (imm.setWidth 64)) s

/-- C.SHRI (R37). -/
def execCShri (d a : BitVec 3) (imm : BitVec 4) (s : State) : Host.Outcome State Fault Refusal :=
  calu2 d a (fun v => aluShr v (imm.setWidth 64)) s

/-- C.LI (R37). -/
def execCLi (d : BitVec 3) (imm : BitVec 7) (s : State) : Host.Outcome State Fault Refusal :=
  compact s [.d (c3 d) 6] (fun s' => finish s' 2 (fun t => t.result (c3 d) (imm.signExtend 64)))

end Sys2Proof.Machine
end

