-- ==== Sys2Proof/Machine/Control.lean ====
section
/-! DEFINITION. Branches and jumps (R45 to R48), NOP, YIELD and HALT (R52, R55), TRAP and ERET (R57,
R58), and the control registers (R61 to R65), with their compact words (R37). -/

namespace Sys2Proof.Machine

/-! ### Branches and jumps -/

/-- The pc of a branch: the instruction's own address plus twice a signed count of halfwords, modulo
2^48 (R30, R45). -/
def branchTo (pc : Addr) (off : Addr) : Addr := pc + off + off

/-- A branch of `len` bytes: to the target if it is taken, else past the branch (R46). -/
def Strand.branch (t : Strand) (len : Nat) (taken : Bool) (off : Addr) : Strand :=
  if taken then { t with pc := branchTo t.pc off } else t.advance len

/-- A conditional branch (R46): no result. -/
def brOp (fs : List Field) (c : CapUse) (spec : BitVec 6) (len : Nat) (off : Addr)
    (cond : Word → Bool) (s : State) : Host.Outcome State Fault Refusal :=
  issue s { fields := fs, cap := c } (fun s' =>
    .next (s'.onCur (fun t => t.branch len (cond (s.cur.val spec)) off)))

/-- The 32-bit form. -/
def br32 (x : A1) (off : BitVec 15) (cond : Word → Bool) (s : State) :
    Host.Outcome State Fault Refusal :=
  brOp [.s x.a x.pa 7] .allowed x.a 4 (off.signExtend 48) cond s

/-- BZ (R46). -/
def execBz (x : A1) (off : BitVec 15) (s : State) : Host.Outcome State Fault Refusal :=
  br32 x off (fun v => v == 0) s

/-- BNZ (R46). -/
def execBnz (x : A1) (off : BitVec 15) (s : State) : Host.Outcome State Fault Refusal :=
  br32 x off (fun v => v != 0) s

/-- BLTZ (R46). -/
def execBltz (x : A1) (off : BitVec 15) (s : State) : Host.Outcome State Fault Refusal :=
  br32 x off (fun v => decide (v.toInt < 0)) s

/-- BGEZ (R46). -/
def execBgez (x : A1) (off : BitVec 15) (s : State) : Host.Outcome State Fault Refusal :=
  br32 x off (fun v => decide (0 ≤ v.toInt)) s

/-- BLEZ (R46). -/
def execBlez (x : A1) (off : BitVec 15) (s : State) : Host.Outcome State Fault Refusal :=
  br32 x off (fun v => decide (v.toInt ≤ 0)) s

/-- BGTZ (R46). -/
def execBgtz (x : A1) (off : BitVec 15) (s : State) : Host.Outcome State Fault Refusal :=
  br32 x off (fun v => decide (0 < v.toInt)) s

/-- BODD (R46). -/
def execBodd (x : A1) (off : BitVec 15) (s : State) : Host.Outcome State Fault Refusal :=
  br32 x off (fun v => v.getLsbD 0) s

/-- BLOOP (R47): the count less one goes into a and y0, and a count that is not zero branches. -/
def execBloop (x : A1) (off : BitVec 15) (s : State) : Host.Outcome State Fault Refusal :=
  issue s { fields := [.sd x.a x.pa 7], cap := .allowed } (fun s' =>
    .next (s'.onCur (fun t =>
      (t.result x.a (s.cur.val x.a - 1)).branch 4 (s.cur.val x.a - 1 != 0) (off.signExtend 48))))

/-- The address after an instruction of 4 bytes, as a 64-bit value: the link (R48). -/
def linkOf (t : Strand) : Word := (t.pc + 4).setWidth 64

/-- JAL (R48). -/
def execJal (d : BitVec 6) (off : BitVec 19) (s : State) : Host.Outcome State Fault Refusal :=
  issue s { fields := [.d d 7] } (fun s' =>
    .next (s'.onCur (fun t =>
      { t.result d (linkOf s.cur) with pc := branchTo s.cur.pc (off.signExtend 48) })))

/-- A jump to a register target, checked by R45. -/
def jumpTo (fs : List Field) (spec : BitVec 6) (f : Strand → Strand) (s : State) :
    Host.Outcome State Fault Refusal :=
  issue s { fields := fs } (fun s' =>
    if targetOk (s.cur.val spec) then
      .next (s'.onCur (fun t => { f t with pc := (s.cur.val spec).setWidth 48 }))
    else trap s Cause.misaligned (s.cur.val spec))

/-- JR (R48). -/
def execJr (x : A1) (s : State) : Host.Outcome State Fault Refusal :=
  jumpTo [.s x.a x.pa 14] x.a (fun t => t) s

/-- JALR (R48): the target is read before the link is written. -/
def execJalr (x : A2) (s : State) : Host.Outcome State Fault Refusal :=
  jumpTo [.s x.a x.pa 14, .d x.d 7] x.a (fun t => t.result x.d (linkOf s.cur)) s

/-- C.BZ (R37). -/
def execCBz (a : BitVec 3) (off : BitVec 7) (s : State) : Host.Outcome State Fault Refusal :=
  brOp [.s (c3 a) false 5] .outside (c3 a) 2 (off.signExtend 48) (fun v => v == 0) s

/-- C.BNZ (R37). -/
def execCBnz (a : BitVec 3) (off : BitVec 7) (s : State) : Host.Outcome State Fault Refusal :=
  brOp [.s (c3 a) false 5] .outside (c3 a) 2 (off.signExtend 48) (fun v => v != 0) s

/-- C.RET: JR g46 (R37). -/
def execCRet (s : State) : Host.Outcome State Fault Refusal :=
  jumpTo [.s 46 false 0] 46 (fun t => t) s

/-- C.JR (R37). -/
def execCJr (a : BitVec 3) (s : State) : Host.Outcome State Fault Refusal :=
  jumpTo [.s (c3 a) false 6] (c3 a) (fun t => t) s

/-! ### NOP, YIELD, HALT -/

/-- NOP of `len` bytes (R55). -/
def nopOp (len : Nat) (s : State) : Host.Outcome State Fault Refusal :=
  issue s { cap := .allowed } (fun s' => finish s' len (fun t => t))

/-- NOP (R55). -/
def execNop (s : State) : Host.Outcome State Fault Refusal := nopOp 4 s

/-- C.NOP (R37). -/
def execCNop (s : State) : Host.Outcome State Fault Refusal := nopOp 2 s

/-- YIELD of `len` bytes (R52): the next issue goes to another strand of the core, if one is eligible. -/
def yieldOp (len : Nat) (s : State) : Host.Outcome State Fault Refusal :=
  issue s { cap := .allowed } (fun s' => finish s' len (fun t => { t with yielded := true }))

/-- YIELD (R52). -/
def execYield (s : State) : Host.Outcome State Fault Refusal := yieldOp 4 s

/-- C.YIELD (R37). -/
def execCYield (s : State) : Host.Outcome State Fault Refusal := yieldOp 2 s

/-- ILLEGAL_INSTRUCTION at the instruction, TRAP_INFO the word (R38, R39). -/
def illegal (s : State) (i : Instr) : Host.Outcome State Fault Refusal :=
  trap s Cause.illegal (wordOf i)

/-- HALT (R55): in supervisor mode it stops the strand until the debug module resumes it; the strand
continues after it. In launch mode it is illegal (R35). DESIGN CHOICE (log entry 51): the instruction writes no HALT trace
record, of which the manual says nothing here (R436). -/
def execHalt (s : State) : Host.Outcome State Fault Refusal :=
  match s.cur.mode with
  | .launch => illegal s .halt
  | .supervisor => issue s { } (fun s' => finish s' 4 (fun t => { t with run := .halted }))

/-! ### TRAP and ERET -/

/-- TRAP (R57): cause 0x80 + code, TRAP_INFO the address of the next instruction. -/
def execTrap (code : BitVec 6) (s : State) : Host.Outcome State Fault Refusal :=
  issue s { } (fun _ => trap s (0x80 + code.toNat) (linkOf s.cur))

/-- ERET (R58): illegal with IN_TRAP 0. DEDUCED (log entry 16): in an open capsule CAPSULE_LIMIT comes before that; the manual states
no order of the two. -/
def execEret (s : State) : Host.Outcome State Fault Refusal :=
  issue s { } (fun s' =>
    if inTrap s.cur.modeStatus then .next (returnFromTrap s') else illegal s .eret)

/-! ### Control registers -/

/-- Whether vector or special-function instructions of the strand have not completed (R62). -/
def State.flagsPending (s : State) : Bool :=
  s.sfu.any (fun e => e.strand == s.cur.uid) || s.recs.any (fun e => e.strand == s.cur.uid)

/-- The address of the strand's launch parameter block (R63, R112). -/
def paramBase (die slot : Nat) : Nat := die * 2 ^ 50 + 0x3FFFFFFC00000 + 0x10000 * slot

/-- The launch slot of the strand's launch (R188). -/
def State.slotOf (s : State) (launch : Nat) : Nat :=
  match s.launch? launch with
  | some l => l.slot
  | none => 0

/-- A REGION register of the strand's launch on its core (R63). -/
def State.regionReg (s : State) (i : Nat) : Word :=
  (s.regionsOf s.cur.core s.cur.launch).getD i 0

/-- The head record of the store-fault queue (R401). -/
def Strand.sfqHead (t : Strand) (f : SfRec → Word) : Word :=
  match t.sfq with
  | [] => 0
  | r :: _ => f r

/-- The value of a bank 0 register (R63); none for a number the table does not list. -/
def State.crd0 (s : State) (n : Nat) : Option Word :=
  let t := s.cur
  let num : Nat → Option Word := fun x => some (BitVec.ofNat 64 x)
  match n with
  | 0 => num t.slot
  | 1 => num t.team
  | 2 => num (clusterOf t.core)
  | 3 => num (dieOf t.core)
  | 4 => num (meshPlace t.core / 64 * 256 + meshPlace t.core % 64)
  | 5 => num (s.logicalOf t.core)
  | 6 => some Config.meshDim
  | 7 => num t.launch
  | 8 => num (s.timeNs % 2 ^ 48)
  | 9 => num s.cycles
  | 10 => num t.actorClass
  | 11 => some t.actorKey
  | 12 => num t.actorBase
  | 13 => num t.actorSize
  | 14 => num t.msgSender
  | 15 => num (paramBase (dieOf t.core) (s.slotOf t.launch))
  | 16 => num t.spillBase
  | 17 => num t.spillSize
  | 18 => some t.overflowPtr
  | 19 => some (s.regionReg 0)
  | 20 => some (s.regionReg 1)
  | 21 => some (s.regionReg 2)
  | 22 => some (s.regionReg 3)
  | 23 => some t.trapVector
  | 24 => some t.trapCause
  | 25 => some t.trapPc
  | 26 => some t.trapInfo
  | 27 => num t.sfq.length
  | 28 => some (t.sfqHead (·.addr))
  | 29 => some (t.sfqHead (·.data))
  | 30 => some (t.sfqHead (·.info))
  | 31 => some 0
  | 32 => num (s.core t.core).mxWeight
  | 33 => num (s.core t.core).auditRate
  | 34 => some t.roundMode
  | 35 => some t.status
  | _ => none

/-- The value of a bank 1 register (R65), by its number less 64. -/
def State.crd1 (s : State) (n : Nat) : Option Word :=
  let t := s.cur
  match n with
  | 0 => some t.svTrapVector
  | 1 => some t.svTrapCause
  | 2 => some t.svTrapPc
  | 3 => some t.svTrapInfo
  | 4 => some t.svStatus
  | 5 => some t.svScratch0
  | 6 => some t.svScratch1
  | 7 => some (s.die (dieOf t.core)).auditSeed
  | 8 => some (s.die (dieOf t.core)).mapBase
  | _ => none

/-- A REGION register without its reserved bits (R270). -/
def regionBits (x : Word) : Word := x &&& 0xC3FFFFFFFFE00000

/-- A write to REGION register `i` of the strand's launch on its core. -/
def State.setRegion (s : State) (i : Nat) (x : Word) : State :=
  let old := s.regionsOf s.cur.core s.cur.launch
  let full := (List.range 4).map (fun j => if j = i then regionBits x else old.getD j 0)
  { s with
    regions := { core := s.cur.core, launch := s.cur.launch, regs := full } ::
      s.regions.filter (fun r => !(r.core == s.cur.core && r.launch == s.cur.launch)) }

/-- The die-local logical index of a core, set (R63). -/
def State.setLogical (s : State) (core idx : Nat) : State :=
  { s with logical := (core, idx % 1024) :: s.logical.filter (fun p => p.1 != core) }

/-- Whether a bank 0 register may be written in supervisor mode alone (RO+SV, R4). -/
def roSv (n : Nat) : Bool := n == 5 || (19 ≤ n && n ≤ 22)

/-- A write to a bank 0 register through its access code (R61, R63): read-only fields keep their value. -/
def State.cwr0 (s : State) (n : Nat) (x : Word) : State :=
  match n with
  | 5 => s.setLogical s.cur.core (x.toNat % 1024)
  | 18 => s.onCur (fun t => { t with overflowPtr := x })
  | 19 => s.setRegion 0 x
  | 20 => s.setRegion 1 x
  | 21 => s.setRegion 2 x
  | 22 => s.setRegion 3 x
  | 23 => s.onCur (fun t => { t with trapVector := pcBits x })
  | 24 => s.onCur (fun t => { t with trapCause := x &&& 0xFF })
  | 25 => s.onCur (fun t => { t with trapPc := pcBits x })
  | 26 => s.onCur (fun t => { t with trapInfo := x })
  | 31 => s.onCur (fun t => { t with sfq := t.sfq.drop 1 })
  | 32 =>
    if x.toNat % 16 = 0 then s
    else s.onCore s.cur.core (fun c => { c with mxWeight := x.toNat % 16 })
  | 33 =>
    if 22 ≤ x.toNat % 32 then s
    else s.onCore s.cur.core (fun c => { c with auditRate := x.toNat % 32 })
  | 34 =>
    if 5 ≤ x.toNat % 8 then s
    else s.onCur (fun t => { t with roundMode := x &&& 7 })
  | 35 => s.onCur (fun t => { t with status := (t.status &&& 0x100) ||| (x &&& 0x1F) })
  | _ => s

/-- A write to a bank 1 register (R65), by its number less 64. DESIGN CHOICE (log entry 51): SV_TRAP_VECTOR, of which the
manual gives no layout, keeps bits [47:1], as TRAP_VECTOR does. -/
def State.cwr1 (s : State) (n : Nat) (x : Word) : State :=
  match n with
  | 0 => s.onCur (fun t => { t with svTrapVector := pcBits x })
  | 1 => s.onCur (fun t => { t with svTrapCause := x &&& 0xFF })
  | 2 => s.onCur (fun t => { t with svTrapPc := pcBits x })
  | 3 => s.onCur (fun t => { t with svTrapInfo := x })
  | 4 => s.onCur (fun t => { t with svStatus := (t.svStatus &&& 0x100) ||| (x &&& 0x1F) })
  | 5 => s.onCur (fun t => { t with svScratch0 := x })
  | 6 => s.onCur (fun t => { t with svScratch1 := x })
  | 7 => s.onDie (dieOf s.cur.core) (fun d => { d with auditSeed := x })
  | 8 => s.onDie (dieOf s.cur.core) (fun d => { d with mapBase := x })
  | _ => s

/-- CRD of bank 0 (R61): STATUS and ROUND_MODE wait for the strand's vector work (R62). -/
def execCrdBank0 (n d : BitVec 6) (s : State) : Host.Outcome State Fault Refusal :=
  match s.crd0 n.toNat with
  | none => illegal s (.crdBank0 n d)
  | some v =>
    issue s { fields := [.d d 7] } (fun s' =>
      if (n.toNat == 34 || n.toNat == 35) && s.flagsPending then stall s
      else finish s' 4 (fun t => t.result d v))

/-- CRD of bank 1: supervisor mode only (R61, R65). -/
def execCrdBank1 (n d : BitVec 6) (s : State) : Host.Outcome State Fault Refusal :=
  match s.cur.mode, s.crd1 n.toNat with
  | .supervisor, some v =>
    issue s { fields := [.d d 7] } (fun s' =>
      if n.toNat == 4 && s.flagsPending then stall s
      else finish s' 4 (fun t => t.result d v))
  | _, _ => illegal s (.crdBank1 n d)

/-- CWR of bank 0 (R61): a number the table does not list, or a RO+SV register in launch mode, is
illegal. -/
def execCwrBank0 (n : BitVec 6) (x : A1) (s : State) : Host.Outcome State Fault Refusal :=
  if 36 ≤ n.toNat ∨ (roSv n.toNat = true ∧ s.cur.mode = .launch) then illegal s (.cwrBank0 n x)
  else
    issue s { fields := [.s x.a x.pa 14] } (fun s' =>
      if (n.toNat == 34 || n.toNat == 35) && s.flagsPending then stall s
      else finish (s'.cwr0 n.toNat (s.cur.val x.a)) 4 (fun t => t))

/-- CWR of bank 1: supervisor mode only (R61, R65). -/
def execCwrBank1 (n : BitVec 6) (x : A1) (s : State) : Host.Outcome State Fault Refusal :=
  if 9 ≤ n.toNat ∨ s.cur.mode = .launch then illegal s (.cwrBank1 n x)
  else
    issue s { fields := [.s x.a x.pa 14] } (fun s' =>
      if n.toNat == 4 && s.flagsPending then stall s
      else finish (s'.cwr1 n.toNat (s.cur.val x.a)) 4 (fun t => t))

end Sys2Proof.Machine
end

