-- ==== Sys2Proof/Machine/Memory.lean ====
section
/-! DEFINITION. The six memory spaces (R244 to R261): the loads and stores of majors 8 to 13 and their
compact words. -/

namespace Sys2Proof.Machine

/-! ### Sizes and elements -/

/-- Bytes of a size code (R34, R247): B, H, W, D, V, and the group sizes of N4 and E6. -/
def sizeBytes (code : Nat) : Nat :=
  match code with
  | 0 => 1
  | 1 => 2
  | 2 => 4
  | 3 => 8
  | 4 => 128
  | 5 => 2
  | _ => 3

/-- Bits of an element: 4 for N4, 6 for E6 (R244). -/
def elBits (code : Nat) : Nat := if code = 5 then 4 else 6

/-- Whether a size code names a sub-byte element. -/
def isEl (code : Nat) : Bool := code == 5 || code == 6

/-- The value a load writes (R244): the bytes zero-extended, or element `el` of the group (R73). -/
def loadValue (code el v : Nat) : Nat :=
  if isEl code then v / 2 ^ (elBits code * el) % 2 ^ elBits code else v

/-- The bytes a store writes. -/
def storeBits (code el v : Nat) : Nat :=
  if isEl code then (v % 2 ^ elBits code) * 2 ^ (elBits code * el) else v % 256 ^ sizeBytes code

/-- The bits of those bytes that a store changes (R246, R248). -/
def storeMask (code el : Nat) : Nat :=
  if isEl code then (2 ^ elBits code - 1) * 2 ^ (elBits code * el) else fullMask (sizeBytes code)

/-- Whether an address meets the alignment of a size code (R245): an E6 group starts anywhere. -/
def alignOk (code a : Nat) : Bool := code == 6 || a % sizeBytes code == 0

/-! ### The data register of an access -/

/-- The data field of a load: a v register for size V (R34). -/
def dstField (code : Nat) (d : BitVec 6) : Field :=
  if code = 4 then { spec := d.toNat, lsb := 7, dst := true, src := false, cells := [64 + d.toNat % 32] }
  else .d d 7

/-- The data field of a store, read under policy 0 (R244). -/
def dataField (code : Nat) (d : BitVec 6) : Field :=
  if code = 4 then { spec := d.toNat, lsb := 7, cells := [64 + d.toNat % 32] } else .s d false 7

/-- The value of the data register of a store. -/
def Strand.data (t : Strand) (code : Nat) (d : BitVec 6) : Nat :=
  if code = 4 then (t.vreg (d.toNat % 32)).val.toNat else (t.val d).toNat

/-- The register a load writes, by number. -/
def dstCell (code : Nat) (d : BitVec 6) : Nat := if code = 4 then 64 + d.toNat % 32 else d.toNat

/-- A register written by number: 0 to 55, 64 to 95; 60 discards. -/
def Strand.setCell (t : Strand) (c v : Nat) : Strand :=
  if 64 ≤ c then t.onV (c - 64) (fun r => r.put (BitVec.ofNat 1024 v))
  else t.onReg c (fun r => r.put (BitVec.ofNat 64 v))

/-- A long-latency producer pends on a register (R26). -/
def Strand.pendCell (t : Strand) (c : Nat) : Strand :=
  if 64 ≤ c then t.onV (c - 64) VReg.wait else t.onReg c Reg.wait

/-- A fault tag into a register (R259). -/
def Strand.tagCell (t : Strand) (c : Nat) (g : Tag) : Strand :=
  if 64 ≤ c then t.onV (c - 64) (fun r => r.fail g) else t.onReg c (fun r => r.fail g)

/-- The pieces of an access, one for each naturally aligned 8-byte unit (R246): address and bytes. -/
def unitsOf (a n : Nat) : List (Nat × Nat) :=
  if a / 8 = (a + n - 1) / 8 then [(a, n)]
  else
    (List.range ((a + n - 1) / 8 - a / 8 + 1)).map (fun j =>
      (max a (8 * (a / 8 + j)), min (a + n) (8 * (a / 8 + j + 1)) - max a (8 * (a / 8 + j))))

/-! ### S: the own scratchpad -/

/-- The key of a scratchpad byte. -/
def spadKey (core a : Nat) : Nat := core * Config.spadBytes + a

/-- Bytes of a core's scratchpad. -/
def State.spadRead (s : State) (core a n : Nat) : Nat := Mem.read s.spad (spadKey core a) n

/-- A write of bytes of a core's scratchpad, under a mask of bits; the words that it covers are good again (R412, R414). -/
def State.spadWrite (s : State) (core a n v mask : Nat) : State :=
  { s with
    spad := Mem.write s.spad (spadKey core a) n (blend (s.spadRead core a n) v mask)
    softErrs := s.softErrs.filter (SoftErr.stays core a n mask)
    badWords := s.badWords.filter (fun w => !w.covered core a n mask) }

/-- Bits of a scratchpad word flip. -/
def State.flipSpad (s : State) (core a m : Nat) : State :=
  { s with spad := Mem.write s.spad (spadKey core a) 8 (s.spadRead core a 8 ^^^ (m % 2 ^ 64)) }

/-- The 8-byte units that an access touches. -/
def unitNos (a n : Nat) : List Nat := (unitsOf a n).map (fun p => p.1 / 8)

/-- A strand's store to its own scratchpad, under a mask of bits (R249): engine reads need not follow it until a FENCESP (R69),
so the value that each unit held before is kept. -/
def State.spadStore (s : State) (a n v mask : Nat) : State :=
  let s1 := s.spadWrite s.cur.core a n v mask
  let was := fun (u : Nat) =>
    let o := s.spadRead s.cur.core (8 * u) 8
    if o = s1.spadRead s.cur.core (8 * u) 8 then none
    else some ({ strand := s.cur.uid, core := s.cur.core, unit := u, old := o } : LateStore)
  { s1 with late := s.late ++ (unitNos a n).filterMap was }

/-- A write of a scratchpad by another unit than a strand of its core: engine reads see no older value of its units (R288). -/
def State.spadPut (s : State) (core a n v mask : Nat) : State :=
  { s.spadWrite core a n v mask with
    late := s.late.filter (fun e => !(e.core == core && (unitNos a n).contains e.unit)) }

/-- The values that a unit held before some stores, the latest first, back to the store that work numbered `uid` follows. -/
def LateStore.back (uid : Nat) : List LateStore → List Nat
  | [] => []
  | e :: es => if e.fenced.any (fun f => decide (f ≤ uid)) then [] else e.old :: LateStore.back uid es

/-- A unit of a scratchpad as an engine reads it for work numbered `uid` (R69, R249, R288): as it stands, or as it stood before
the last `k` stores, of those that no FENCESP orders before the work. -/
def State.spadUnit (s : State) (core unit uid k : Nat) : Nat :=
  let now := s.spadRead core (8 * unit) 8
  (now :: LateStore.back uid (s.late.filter (fun e => e.core == core && e.unit == unit)).reverse).getD k now

/-- An engine's read of a scratchpad, each unit as `State.spadUnit`. -/
def State.spadEngine (s : State) (core a n uid k : Nat) : Nat :=
  if k = 0 then s.spadRead core a n
  else
    (unitsOf a n).foldl (fun (v : Nat) p =>
      v + s.spadUnit core (p.1 / 8) uid k / 256 ^ (p.1 % 8) % 256 ^ p.2 * 256 ^ (p.1 - a)) 0

/-- The address of an S-space access (R247): the group of an element, or the scaled offset. -/
def spadAddr (base code off : Nat) : Nat :=
  if isEl code then base + off / 4 * sizeBytes code else base + off * sizeBytes code

/-- The element within its group. -/
def spadEl (off : Nat) : Nat := off % 4

/-- The instruction's use in a capsule (R370): LDS, STS, LDG and STG of sizes B to D. -/
def capSize (code : Nat) : CapUse := if code < 4 then .allowed else .outside

/-- LDS of `len` bytes (R247). -/
def ldsOp (fs : List Field) (use : CapUse) (a d : BitVec 6) (code off len : Nat) (s : State) :
    Host.Outcome State Fault Refusal :=
  issue s { fields := fs ++ [dstField code d], mem := true, cap := use } (fun s' =>
    let addr := spadAddr (s.cur.val a).toNat code off
    if Config.spadBytes < addr + sizeBytes code then trap s Cause.protection (BitVec.ofNat 64 addr)
    else if !alignOk code addr then trap s Cause.misaligned (BitVec.ofNat 64 addr)
    else
      let v := loadValue code (spadEl off) (s.spadRead s.cur.core addr (sizeBytes code))
      if code = 4 then finish s' len (fun t => t.setCell (64 + d.toNat % 32) v)
      else finish s' len (fun t => t.result d (BitVec.ofNat 64 v)))

/-- STS of `len` bytes (R247). -/
def stsOp (fs : List Field) (use : CapUse) (a d : BitVec 6) (code off len : Nat) (s : State) :
    Host.Outcome State Fault Refusal :=
  issue s { fields := fs ++ [dataField code d], mem := true, cap := use } (fun s' =>
    let addr := spadAddr (s.cur.val a).toNat code off
    if Config.spadBytes < addr + sizeBytes code then trap s Cause.protection (BitVec.ofNat 64 addr)
    else if !alignOk code addr then trap s Cause.misaligned (BitVec.ofNat 64 addr)
    else
      finish (s'.spadStore addr (sizeBytes code)
        (storeBits code (spadEl off) (s.cur.data code d)) (storeMask code (spadEl off))) len (fun t => t))

/-- LDS (R247). -/
def execLds (x : A2) (size : BitVec 3) (off : BitVec 8) (s : State) : Host.Outcome State Fault Refusal :=
  ldsOp [.s x.a x.pa 14] (capSize size.toNat) x.a x.d size.toNat off.toNat 4 s

/-- STS (R247). -/
def execSts (x : A2) (size : BitVec 3) (off : BitVec 8) (s : State) : Host.Outcome State Fault Refusal :=
  stsOp [.s x.a x.pa 14] (capSize size.toNat) x.a x.d size.toNat off.toNat 4 s

/-- C.LDS.D (R37). -/
def execCLdsD (d a : BitVec 3) (off : BitVec 4) (s : State) : Host.Outcome State Fault Refusal :=
  ldsOp [.s (c3 a) false 8] .outside (c3 a) (c3 d) 3 off.toNat 2 s

/-- C.STS.D (R37). -/
def execCStsD (d a : BitVec 3) (off : BitVec 4) (s : State) : Host.Outcome State Fault Refusal :=
  stsOp [.s (c3 a) false 8] .outside (c3 a) (c3 d) 3 off.toNat 2 s

/-- C.LDS.W (R37). -/
def execCLdsW (d a : BitVec 3) (off : BitVec 4) (s : State) : Host.Outcome State Fault Refusal :=
  ldsOp [.s (c3 a) false 8] .outside (c3 a) (c3 d) 2 off.toNat 2 s

/-- C.STS.W (R37). -/
def execCStsW (d a : BitVec 3) (off : BitVec 4) (s : State) : Host.Outcome State Fault Refusal :=
  stsOp [.s (c3 a) false 8] .outside (c3 a) (c3 d) 2 off.toNat 2 s

/-! ### Posted stores -/

/-- The byte or group address of a G access (R257). -/
def gAddr (code : Nat) (v : Word) : Nat := if isEl code then v.toNat % 2 ^ 62 else v.toNat

/-- The element of a G access: Val(a)[63:62] (R257). -/
def gEl (code : Nat) (v : Word) : Nat := if isEl code then v.toNat / 2 ^ 62 else 0

/-- ADDR of the record of a G store (R400): the 52-bit address, with the element's index. -/
def gRaw (code : Nat) (v : Word) : Word := BitVec.ofNat 64 (gAddr code v % 2 ^ 52 + gEl code v * 2 ^ 62)

/-- The bytes of a value that a piece of an access holds. -/
def cut (v a : Nat) (p : Nat × Nat) : Nat := v / 256 ^ (p.1 - a) % 256 ^ p.2

/-- A piece of a store (R246), with the number it takes. -/
def Store.piece (st : Store) (uid : Nat) (p : Nat × Nat) : Store :=
  { st with uid := uid, addr := p.1, size := p.2, val := cut st.val st.addr p, mask := cut st.mask st.addr p
            base := st.addr, span := st.size }

/-- The pieces of a store, numbered from `uid` on. -/
def Store.pieces (st : Store) (uid : Nat) : List Store :=
  (unitsOf st.addr st.size).zipIdx.map (fun x => st.piece (uid + x.2) x.1)

/-- A posted store of the strand that issues (R400), with the strand's next sequence number. -/
def State.posted (s : State) (st : Store) : Store :=
  { st with ord := s.nextUid, strand := s.cur.uid, seq := s.cur.posted, core := s.cur.core, launch := s.cur.launch
            sup := s.cur.mode == .supervisor, inj := if st.atomic.isSome && st.rel then 0 else s.nextUid
            cls := (s.reqCur s.cur st.addr).cls }

/-- A posted operation of the strand that issues takes the next sequence number (R400). -/
def State.post (s : State) (st : Store) : State :=
  let ps := (s.posted st).pieces s.nextUid
  ({ s with stores := s.stores ++ ps, nextUid := s.nextUid + ps.length }).onCur (fun t =>
    { t with posted := (t.posted + 1) % 65536 })

/-- The 8-byte units that a load reads one by one (R246). -/
def PendOp.unitCount (o : PendOp) : Nat :=
  match o with
  | .ldg a _ n _ _ => (unitsOf a n).length
  | .units n => n
  | _ => 1

/-- Whether an atomic waits for its release before it leaves (R329). -/
def PendOp.waits (o : PendOp) : Bool :=
  match o with
  | .atomic _ _ _ _ _ ar => ar
  | _ => false

/-- A long-latency producer of the strand that issues. -/
def State.pendOn (s : State) (c : Nat) (acq : Bool) (op : PendOp) : State :=
  let p : Pend :=
    { uid := s.nextUid, strand := s.cur.uid, core := s.cur.core, launch := s.cur.launch,
      sup := s.cur.mode == .supervisor, dst := c, acq := acq, op := op, inj := if op.waits then 0 else s.nextUid, left := 2 ^ op.unitCount - 1
      clock := if op.waits then none else some (s.die (dieOf s.cur.core)).clock }
  (({ s with pends := s.pends ++ [p] }).fresh).onCur (fun t =>
    { t.pendCell c with hold := t.hold + acq.toNat })

/-! ### The spill stack -/

/-- The spill header (R250): TOP and OVF. -/
def State.spillHead (s : State) : Nat := s.spadRead s.cur.core s.cur.spillBase 8

/-- Whether a header is legal (R251). -/
def spillOk (h size : Nat) : Bool := h % 2 ^ 32 % 8 == 0 && 8 ≤ h % 2 ^ 32 && h % 2 ^ 32 ≤ size

/-- The header written back (R251). -/
def State.setSpill (s : State) (ovf top : Nat) : State :=
  s.spadStore s.cur.spillBase 8 (ovf % 2 ^ 32 * 2 ^ 32 + top % 2 ^ 32) (fullMask 8)

/-- What a PUSHS or POPS is in a capsule (R252, R370): a step may use the carve-out part only. -/
def spillUse (overflow : Bool) : CapUse := if overflow then .outside else .allowed

/-- Whether a PUSHS would reach the overflow area (R251). -/
def State.pushOverflows (s : State) : Bool :=
  s.cur.spillSize != 0 && spillOk s.spillHead s.cur.spillSize
    && !(decide (s.spillHead % 2 ^ 32 < s.cur.spillSize) && s.spillHead / 2 ^ 32 == 0)

/-- Whether a POPS would read the overflow area (R251). -/
def State.popOverflows (s : State) : Bool :=
  s.cur.spillSize != 0 && spillOk s.spillHead s.cur.spillSize && s.spillHead / 2 ^ 32 != 0

/-- PUSHS (R251, R252): the carve-out while there is room and nothing lies in the overflow area, else a
posted store to the overflow area, which must be aligned (R245). -/
def execPushs (d : BitVec 6) (s : State) : Host.Outcome State Fault Refusal :=
  issue s { fields := [.s d false 7], mem := true, cap := spillUse s.pushOverflows } (fun s' =>
    if s.cur.spillSize = 0 then trap s Cause.protection 0
    else
      let h := s.spillHead
      let top := h % 2 ^ 32
      let ovf := h / 2 ^ 32
      if !spillOk h s.cur.spillSize then trap s Cause.protection (BitVec.ofNat 64 h)
      else if top < s.cur.spillSize ∧ ovf = 0 then
        finish ((s'.spadStore (s.cur.spillBase + top) 8 (s.cur.val d).toNat (fullMask 8)).setSpill
          ovf (top + 8)) 4 (fun t => t)
      else
        if s.cur.overflowStride ≤ ovf * 8 then trap s Cause.protection s.cur.overflowPtr
        else if !alignOk 3 s.cur.overflowPtr.toNat then trap s Cause.misaligned s.cur.overflowPtr
        else
          let st : Store :=
            { origin := .pushs, addr := s.cur.overflowPtr.toNat, raw := gRaw 3 s.cur.overflowPtr, code := 3,
              data := s.cur.val d, size := 8, val := (s.cur.val d).toNat, mask := fullMask 8, scope := 3 }
          finish ((s'.post st).setSpill (ovf + 1) top) 4
            (fun t => { t with overflowPtr := t.overflowPtr + 8 }))

/-- Whether an earlier posted store of the strand to these bytes is not yet in its die's view. -/
def State.storeBefore (s : State) (strand uid a n : Nat) : Bool :=
  s.stores.any (fun x => x.strand == strand && x.ord < uid && x.stage == .issued && x.origin != .sth
    && overlap x.addr x.size a n)

/-- Whether an earlier access of the strand to a byte of these is not yet performed where the strand sees
it (R258, R322): a posted store, a load or an atomic in flight, or an operation performed at the owner which the die has
yet to apply. -/
def State.accessBefore (s : State) (strand uid a n : Nat) : Bool :=
  s.storeBefore strand uid a n
    || s.pends.any (fun p => p.strand == strand && p.uid < uid
        && p.op.range.any (fun r => overlap r.1 r.2 a n))
    || s.behind.any (fun b => b.strand == strand && overlap b.addr b.size a n && !s.covers b.die b.clock)

/-- POPS (R251, R252): from the overflow area while anything lies there, else from the carve-out. The
read of the overflow area follows the strand's earlier accesses to its bytes (R258), those that its cluster's slice
still holds among them, and a write to them that stalls (R282); a fault in it tags the destination, and the value that enters y0 is then free. -/
def execPops (d : BitVec 6) (s : State) : Host.Outcome State Fault Refusal :=
  issue s { fields := [.d d 7], mem := true, cap := spillUse s.popOverflows } (fun s' =>
    if s.cur.spillSize = 0 then trap s Cause.protection 0
    else
      let h := s.spillHead
      let top := h % 2 ^ 32
      let ovf := h / 2 ^ 32
      if !spillOk h s.cur.spillSize then trap s Cause.protection (BitVec.ofNat 64 h)
      else if 0 < ovf then
        let p := s.cur.overflowPtr - 8
        if !alignOk 3 p.toNat then trap s Cause.misaligned p
        else if s.accessBefore s.cur.uid s.nextUid p.toNat 8 || s.readStalls p.toNat 8 then stall s
        else
          let s1 := (s'.setSpill (ovf - 1) top).touch (s.reqCur s.cur p.toNat).cls p.toNat
          match s.keys (s.reqCur s.cur p.toNat) .r p.toNat 8 with
          | .error c =>
            finish { s1 with tick := s1.tick + 1 } 4 (fun t =>
              { (t.enterY s.freeWord).tagCell d.toNat ⟨c, p⟩ with overflowPtr := p })
          | .ok ks =>
            if s.uncorrectable ks then
              finish { s1 with tick := s1.tick + 1 } 4 (fun t =>
                { (t.enterY s.freeWord).tagCell d.toNat ⟨Cause.uncorrectable, BitVec.ofNat 64 (s.badAddr p.toNat ks)⟩ with overflowPtr := p })
            else
              finish s1 4 (fun t =>
                { t.result d (BitVec.ofNat 64 (s.sliceRead (clusterOf s.cur.core) p.toNat ks)) with
                  overflowPtr := p })
      else if top = 8 then trap s Cause.protection (BitVec.ofNat 64 h)
      else
        finish (s'.setSpill ovf (top - 8)) 4 (fun t =>
          t.result d (BitVec.ofNat 64 (s.spadRead s.cur.core (s.cur.spillBase + (top - 8)) 8))))

/-! ### N: a sibling's scratchpad -/

/-- The team that holds a core for a launch (R253). -/
def State.holdOf (s : State) (core launch : Nat) : Option Hold :=
  s.holds.find? (fun h => h.core == core && h.launch == launch)

/-- A kernel of a launch. -/
def State.kernelOf (s : State) (launch k : Nat) : Option KernelD :=
  match s.launch? launch with
  | some l => l.m.kernels[k]?
  | none => none

/-- The team of a convoy that a team index names (R253); one that has ended keeps its core's name (R156). -/
def State.sibling (s : State) (h : Hold) (n : Nat) : Option Hold :=
  let named := fun (x : Hold) => x.launch == h.launch && x.kernel == h.kernel && x.convoy == h.convoy && x.idx == n
  match s.holds.find? named with
  | some x => some x
  | none =>
    match s.launch? h.launch with
    | some l => l.pastHolds.find? named
    | none => none

/-- Whether a core lies in a rectangle (R111). -/
def RectD.has (r : RectD) (core : Nat) : Bool :=
  r.x0 ≤ core % 64 && core % 64 < r.x0 + r.w && r.y0 ≤ core / 64 && core / 64 < r.y0 + r.h

/-- Whether a core lies in a fenced rectangle (R154). -/
def State.isFenced (s : State) (core : Nat) : Bool := s.fenced.any (fun r => r.has core)

/-- The checks of LDN and STN (R253), and the target team they give. -/
def nCheck (s : State) (a b : BitVec 6) (code : Nat) (k : Hold → Host.Outcome State Fault Refusal) :
    Host.Outcome State Fault Refusal :=
  let n := (s.cur.val a).toNat
  let addr := (s.cur.val b).toNat
  match s.holdOf s.cur.core s.cur.launch with
  | none => trap s Cause.protection (s.cur.val a)
  | some h =>
    match s.kernelOf h.launch h.kernel with
    | none => trap s Cause.protection (s.cur.val a)
    | some kd =>
      if kd.teams ≤ n then trap s Cause.protection (s.cur.val a)
      else if Config.spadBytes < addr + sizeBytes code then trap s Cause.protection (s.cur.val b)
      else if !alignOk code addr then trap s Cause.misaligned (s.cur.val b)
      else
        match s.sibling h n with
        | some t => if t.started then k t else stall s
        | none => stall s

/-- Whether 32 packets of a core's flow to another core on VC 0 are in the network: N-space accesses, forwards and pipe items (R139,
R141). -/
def State.nFlowFull (s : State) (core target : Nat) : Bool :=
  let ns := ((s.nops.filter (fun o => o.core == core && o.target == target)).map (·.uid)).eraseDups
  let fs := s.fwds.filter (fun f => f.src == core && f.core == target && f.arr == 0)
  let ps := s.pipeItems.filter (fun x => x.strand != 0 && x.core == core && x.dst == target)
  decide (32 ≤ ns.length + fs.length + ps.length)

/-- The units of an N-space access (R246). -/
def NOp.pieces (n : NOp) : List NOp :=
  (unitsOf n.addr n.size).map (fun p =>
    { n with addr := p.1, size := p.2, val := cut n.val n.addr p, base := n.addr, span := n.size })

/-- LDN (R253): a long-latency producer; the access travels to the target. -/
def execLdn (x : A3) (size : BitVec 3) (s : State) : Host.Outcome State Fault Refusal :=
  issue s { fields := [.s x.a x.pa 14, .s x.b x.pb 21, dstField size.toNat x.d], mem := true } (fun s' =>
    nCheck s x.a x.b size.toNat (fun h =>
      let op : NOp :=
        { uid := s.nextUid, strand := s.cur.uid, core := s.cur.core, launch := s.cur.launch, target := h.core, addr := (s.cur.val x.b).toNat,
          raw := s.cur.val x.b, code := size.toNat, size := sizeBytes size.toNat }
      let s1 := s'.pendOn (dstCell size.toNat x.d) false (.units op.pieces.length)
      if s.nFlowFull s.cur.core h.core then stall s
      else finish { s1 with nops := s1.nops ++ op.pieces } 4 (fun t => t)))

/-- The address word of an STN's record (R400). -/
def stnRaw (n addr : Nat) : Word := BitVec.ofNat 64 (n * 2 ^ 48 + addr)

/-- STN (R253): posted. -/
def execStn (x : A3) (size : BitVec 3) (s : State) : Host.Outcome State Fault Refusal :=
  issue s { fields := [.s x.a x.pa 14, .s x.b x.pb 21, dataField size.toNat x.d], mem := true } (fun s' =>
    nCheck s x.a x.b size.toNat (fun h =>
      let op : NOp :=
        { uid := s.nextUid, strand := s.cur.uid, core := s.cur.core, launch := s.cur.launch, seq := s.cur.posted, store := true, target := h.core,
          addr := (s.cur.val x.b).toNat, raw := stnRaw (s.cur.val x.a).toNat (s.cur.val x.b).toNat,
          code := size.toNat, size := sizeBytes size.toNat,
          data := BitVec.ofNat 64 (s.cur.data size.toNat x.d % 256 ^ sizeBytes size.toNat)
          val := s.cur.data size.toNat x.d % 256 ^ sizeBytes size.toNat }
      if s.nFlowFull s.cur.core h.core then stall s
      else finish ({ s' with nops := s'.nops ++ op.pieces }).fresh 4 (fun t =>
        { t with posted := (t.posted + 1) % 65536 })))

/-! ### A: the actor's state record -/

/-- The checks of LDA and STA (R255), and the address they give. -/
def aCheck (s : State) (code off : Nat) (k : Nat → Host.Outcome State Fault Refusal) :
    Host.Outcome State Fault Refusal :=
  let o := off * sizeBytes code
  if s.cur.actorSize = 0 ∨ s.cur.actorSize < o + sizeBytes code then
    trap s Cause.actorBound (BitVec.ofNat 64 o)
  else if !alignOk code (s.cur.actorBase + o) then
    trap s Cause.misaligned (BitVec.ofNat 64 (s.cur.actorBase + o))
  else k (s.cur.actorBase + o)

/-- LDA of `len` bytes (R255): the read is performed at issue, the result is long-latency. -/
def ldaOp (d : BitVec 6) (code off len : Nat) (s : State) : Host.Outcome State Fault Refusal :=
  issue s { fields := [dstField code d], mem := true } (fun s' =>
    aCheck s code off (fun addr =>
      finish (s'.pendOn (dstCell code d) false (.ready (s.spadRead s.cur.core addr (sizeBytes code)))) len
        (fun t => t)))

/-- STA of `len` bytes (R255). -/
def staOp (d : BitVec 6) (code off len : Nat) (s : State) : Host.Outcome State Fault Refusal :=
  issue s { fields := [dataField code d], mem := true } (fun s' =>
    aCheck s code off (fun addr =>
      finish (s'.spadStore addr (sizeBytes code) (storeBits code 0 (s.cur.data code d)) (storeMask code 0)) len
        (fun t => t)))

/-- LDA (R255). -/
def execLda (d : BitVec 6) (size : BitVec 3) (off : BitVec 15) (s : State) :
    Host.Outcome State Fault Refusal := ldaOp d size.toNat off.toNat 4 s

/-- STA (R255). -/
def execSta (d : BitVec 6) (size : BitVec 3) (off : BitVec 15) (s : State) :
    Host.Outcome State Fault Refusal := staOp d size.toNat off.toNat 4 s

/-- C.LDA.D (R37). -/
def execCLdaD (d : BitVec 3) (off : BitVec 8) (s : State) : Host.Outcome State Fault Refusal :=
  ldaOp (c3 d) 3 off.toNat 2 s

/-- C.STA.D (R37). -/
def execCStaD (d : BitVec 3) (off : BitVec 8) (s : State) : Host.Outcome State Fault Refusal :=
  staOp (c3 d) 3 off.toNat 2 s

/-! ### K: the launch parameter block -/

/-- A join-counter handle (R113). -/
def counterHandle (launch j : Nat) : Nat := launch % 65536 * 2 ^ 48 + j % 4 * 4096 + j

/-- Teams of a launch (R99). -/
def Manifest.teams (m : Manifest) : Nat := (m.kernels.map (fun k => k.convoys * k.teams)).sum

/-- A doubleword of the device header of a parameter block (R112). -/
def Launch.header (l : Launch) (i : Nat) : Nat :=
  match i with
  | 0 => l.id
  | 1 => if l.m.joinCount = 0 then 0 else counterHandle l.id 0
  | 2 => l.m.kernels.length + l.m.classes.length * 2 ^ 16 + l.m.tensors.length * 2 ^ 32
          + l.m.pipes.length * 2 ^ 48
  | 3 => l.m.teams
  | 4 => l.startTime
  | 5 => l.m.ownerClass
  | 6 => l.m.ownerKey.toNat
  | _ => 0

/-- A byte of a parameter block: the header, then the parameter image (R112). -/
def Launch.paramByte (l : Launch) (o : Nat) : Byte :=
  if o < 0x40 then byteOf (l.header (o / 8)) (o % 8) else Mem.get l.params (o - 0x40)

/-- Bytes of a parameter block. -/
def Launch.paramRead (l : Launch) (o : Nat) : Nat → Nat
  | 0 => 0
  | n + 1 => (l.paramByte o).toNat + 256 * l.paramRead (o + 1) n

/-- LDK (R256): the block does not change, so the value is fixed at issue. -/
def execLdk (d : BitVec 6) (size : BitVec 3) (off : BitVec 16) (s : State) :
    Host.Outcome State Fault Refusal :=
  issue s { fields := [dstField size.toNat d], mem := true, cap := .allowed } (fun s' =>
    match s.launch? s.cur.launch with
    | none => trap s Cause.protection (off.setWidth 64)
    | some l =>
      if 0x40 + l.m.paramSize < off.toNat + sizeBytes size.toNat then trap s Cause.protection (off.setWidth 64)
      else if !alignOk size.toNat off.toNat then trap s Cause.misaligned (off.setWidth 64)
      else
        finish (s'.pendOn (dstCell size.toNat d) false
          (.ready (l.paramRead off.toNat (sizeBytes size.toNat)))) 4 (fun t => t))

/-! ### G: global virtual memory -/

/-- What an LDG or STG is in a capsule (R370): ord plain and size B to D. -/
def capG (code ord : Nat) : CapUse := if code < 4 ∧ ord = 0 then .allowed else .outside

/-- LDG (R257): alignment at issue; the read is performed when its result comes (R259). A capsule step's
load is performed at the owner, under the step's buffered stores (R371). -/
def execLdg (x : A2) (size : BitVec 3) (ord : BitVec 2) (scope : BitVec 3) (_pol : BitVec 2) (s : State) :
    Host.Outcome State Fault Refusal :=
  let code := size.toNat
  issue s { fields := [.s x.a x.pa 14, dstField code x.d], mem := true, cap := capG code ord.toNat } (fun s' =>
    let v := s.cur.val x.a
    let addr := gAddr code v
    if !alignOk code addr then trap s Cause.misaligned (BitVec.ofNat 64 addr)
    else
      let op : PendOp :=
        if s.cur.cap.mode = .none then .ldg addr code (sizeBytes code) (gEl code v) scope.toNat
        else .ldgCap addr (sizeBytes code) s.cur.cap.stores
      finish (s'.pendOn (dstCell code x.d) (ord.toNat == 1) op) 4 (fun t => t))

/-- The limit of R370 that an STG adds: a fifth store of the step, or a store to another die. -/
def stgLimit (t : Strand) (v : Word) : Option Nat :=
  if 4 ≤ t.cap.stores.length then some 4
  else if ownerOf v.toNat ≠ ownerOf t.cap.l then some 6
  else none

/-- STG (R257): posted; in a capsule buffered until the step commits (R371). -/
def execStg (x : A2) (size : BitVec 3) (ord : BitVec 2) (scope : BitVec 3) (_pol : BitVec 2) (s : State) :
    Host.Outcome State Fault Refusal :=
  let code := size.toNat
  issue s { fields := [.s x.a x.pa 14, dataField code x.d], mem := true, cap := capG code ord.toNat,
            own := stgLimit s.cur (s.cur.val x.a) } (fun s' =>
    let v := s.cur.val x.a
    let addr := gAddr code v
    if !alignOk code addr then trap s Cause.misaligned (BitVec.ofNat 64 addr)
    else if s.cur.cap.mode = .none then
      let st : Store :=
        { origin := .stg, addr := addr, raw := gRaw code v, code := code, size := sizeBytes code,
          data := BitVec.ofNat 64 (storeBits code 0 (s.cur.data code x.d)),
          val := storeBits code (gEl code v) (s.cur.data code x.d), mask := storeMask code (gEl code v),
          scope := scope.toNat, rel := ord.toNat == 2 }
      finish (s'.post st) 4 (fun t => t)
    else
      let b : BufStore :=
        { addr := addr, size := sizeBytes code,
          val := BitVec.ofNat 64 (storeBits code 0 (s.cur.data code x.d)) }
      finish s' 4 (fun t => { t with cap := { t.cap with stores := t.cap.stores ++ [b] } }))

/-- PFG (R260): it writes nothing visible, orders nothing and never faults. -/
def execPfg (x : A1) (_scope : BitVec 3) (_pol : BitVec 2) (s : State) :
    Host.Outcome State Fault Refusal :=
  issue s { fields := [.s x.a x.pa 14], mem := true, cap := .allowed } (fun s' => finish s' 4 (fun t => t))

/-! ### H: host memory -/

/-- LDH (R261): a long-latency producer, performed at the host in issue order. -/
def execLdh (x : A2) (size : BitVec 3) (ord : BitVec 2) (s : State) : Host.Outcome State Fault Refusal :=
  let code := size.toNat
  issue s { fields := [.s x.a x.pa 14, .d x.d 7], mem := true } (fun s' =>
    let v := s.cur.val x.a
    if !alignOk code v.toNat then trap s Cause.misaligned v
    else
      finish (s'.pendOn x.d.toNat (ord.toNat == 1) (.ldh v.toNat (sizeBytes code))) 4 (fun t => t))

/-- STH (R261): posted, at system scope. -/
def execSth (x : A2) (size : BitVec 3) (ord : BitVec 2) (s : State) : Host.Outcome State Fault Refusal :=
  let code := size.toNat
  issue s { fields := [.s x.a x.pa 14, .s x.d false 7], mem := true } (fun s' =>
    let v := s.cur.val x.a
    if !alignOk code v.toNat then trap s Cause.misaligned v
    else
      let st : Store :=
        { origin := .sth, addr := v.toNat, raw := v, code := code, size := sizeBytes code,
          data := BitVec.ofNat 64 (storeBits code 0 (s.cur.val x.d).toNat), clock := s.cur.relClock, val := storeBits code 0 (s.cur.val x.d).toNat, mask := storeMask code 0, scope := 5,
          rel := ord.toNat == 2 }
      finish (s'.post st) 4 (fun t => t))

end Sys2Proof.Machine
end

