-- ==== Sys2Proof/Machine/Recurrence.lean ====
section
/-! DEFINITION. The recurrences TLRS, TEMA and VLRS, forwarding between neighbours, and the completions of
the special-function and recurrence units (R195, R228 to R243). -/

namespace Sys2Proof.Machine

/-! ### Operands of the recurrences -/

/-- The float format of the a and b operands (R228); 4 to 6 are the HOLD forms of 0 to 2. -/
def recFmt (ty : BitVec 3) : Fmt :=
  match ty.toNat % 4 with
  | 0 => Fmt.fp32
  | 1 => Fmt.bf16
  | _ => Fmt.fp16

/-- Whether the operand is HOLD (R228). -/
def recHold (ty : BitVec 3) : Bool := 4 ≤ ty.toNat

/-- The registers of a range of `n` rows of the type. -/
def rangeRegs (f : BitVec 6) (ty : BitVec 3) (n : Nat) : List Nat :=
  if 32 ≤ f.toNat then [vecCell f.toNat]
  else if recHold ty then [vecCell f.toNat]
  else if ty.toNat = 0 then vRange f.toNat n
  else vRange f.toNat ((n + 1) / 2)

/-- A source field that names a range (R228). -/
def rangeField (f : BitVec 6) (pol : Bool) (ty : BitVec 3) (n : Nat) : Field :=
  { spec := f.toNat, pol := pol, cells := rangeRegs f ty n }

/-- Row `r`, channel `ch` of an operand (R228). -/
def rowLane (t : Strand) (f : BitVec 6) (ty : BitVec 3) (hold : Bool) (r ch : Nat) : Num :=
  let m := recFmt ty
  if 32 ≤ f.toNat then m.decode (t.lane f m.w 0)
  else if hold then m.decode (laneOf (t.vreg f.toNat).val m.w ch)
  else if m.w = 32 then m.decode (laneOf (t.vreg ((f.toNat + r) % 32)).val 32 ch)
  else m.decode (laneOf (t.vreg ((f.toNat + r / 2) % 32)).val 16 (32 * (r % 2) + ch))

/-- A channel's states over `n` rows from its carry, strictly in order (R230). -/
def chanRun (step : Nat → Num → FOut) (h : Nat) (r : Nat) : Nat → List FOut
  | 0 => []
  | n + 1 =>
    let o := step r (Fmt.fp32.decode h)
    o :: chanRun step o.bits (r + 1) n

/-- The result rows and the carry of a TLRS or TEMA, from the state at issue (R230, R232). -/
def recRun (t : Strand) (x : VOp) (step : Nat → Nat → Num → FOut) : List (Nat × Row) × Word :=
  let n := 32 - x.vd.toNat
  let sreg := x.p.c.toNat
  let chans : List (List FOut) := (List.range 32).map (fun ch =>
    if act t x.p ch then chanRun (step ch) (laneOf (t.vreg sreg).val 32 ch) 0 n else [])
  let at' := fun (r reg ch : Nat) =>
    match (chans.getD ch [])[r]? with
    | some o => o.bits
    | none => if x.p.zero then 0 else laneOf (t.vreg reg).val 32 ch
  let row := fun (r reg : Nat) => rowOf 32 ((List.range 32).map (fun ch => at' r reg ch))
  ((List.range n).map (fun r => (x.vd.toNat + r, row r (x.vd.toNat + r))) ++ [(sreg, row (n - 1) sreg)],
    BitVec.ofNat 64 (orAll (chans.map (fun l => orAll (l.map (·.fl))))))

/-- The destinations of a recurrence: the result rows and the carry register, read where old lanes are
kept; the carry is always a source (R228). -/
def recFields (x : VOp) : List Field :=
  [{ spec := x.p.c.toNat, pol := x.p.pc, dst := true, cells := [64 + x.p.c.toNat % 32] },
   { spec := x.vd.toNat, dst := true, src := x.p.keeps, cells := vRange x.vd.toNat (32 - x.vd.toNat) }]

/-- TLRS and TEMA at issue: the unit of the core takes one at a time (R192), every source is read, and the
rows and the carry are written when it completes (R228). -/
def recIssue (x : VOp) (srcs : List Field) (step : Strand → Nat → Nat → Num → FOut) (s : State) :
    Host.Outcome State Fault Refusal :=
  issue s { fields := srcs ++ recFields x } (fun s' =>
    if s.recs.any (fun e => e.core == s.cur.core) then stall s
    else
      let r := recRun s.cur x (step s.cur)
      let e : RecEntry := { core := s.cur.core, strand := s.cur.uid, rows := r.1, flags := r.2 }
      finish { s' with recs := s'.recs ++ [e] } x.len (fun t =>
        r.1.foldl (fun t p => t.onV p.1 VReg.book) t))

/-- TLRS: h = A * h + B in every row (R230). -/
def execTlrs (x : VOp) (s : State) : Host.Outcome State Fault Refusal :=
  let n := 32 - x.vd.toNat
  recIssue x [rangeField x.a x.pa x.ty n, rangeField x.b x.pb x.ty n]
    (fun t ch r h => fFma Fmt.fp32 (t.rmode x.p.rnd) x.p.sat
      (rowLane t x.a x.ty (recHold x.ty) r ch) h (rowLane t x.b x.ty (recHold x.ty) r ch)) s

/-- 1 - a, exactly: a as a product term of TEMA (R232). -/
def oneMinus (a : Num) : Num :=
  match a with
  | .nan g => .nan g
  | .inf g => .inf (!g)
  | .fin g m e => sumFinite false [Num.one, .fin (!g) m e]

/-- TEMA: h = α * h + (1 - α) * X, exact and then one rounding (R232). -/
def execTema (x : VOp) (s : State) : Host.Outcome State Fault Refusal :=
  let n := 32 - x.vd.toNat
  recIssue x [x.fa, rangeField x.b x.pb x.ty n]
    (fun t ch r h =>
      let al := rowLane t x.a x.ty true r ch
      let v := rowLane t x.b x.ty false r ch
      fSum Fmt.fp32 (t.rmode x.p.rnd) x.p.sat [al, h, v] [Num.mul al h, Num.mul (oneMinus al) v]) s

/-! ### VLRS -/

/-- The pairs (A, B) of a VLRS, and the flags so far. -/
structure Pairs where
  a : List Num
  b : List Num
  fl : Nat

/-- One step of the combination of R234 at distance `d`. -/
def vlrsStep (mode : RMode) (sat : Bool) (d : Nat) (p : Pairs) : Pairs :=
  let x := Fmt.fp32
  let a' := List.zipWith (fMul x mode sat) p.a (p.a.drop d)
  let b' := List.zipWith (fun (q : Num × Num) c => fFma x mode sat q.1 q.2 c)
    (List.zip (p.a.drop d) p.b) (p.b.drop d)
  { a := p.a.take d ++ a'.map (fun o => x.decode o.bits)
    b := p.b.take d ++ b'.map (fun o => x.decode o.bits)
    fl := p.fl ||| orAll (a'.map (·.fl)) ||| orAll (b'.map (·.fl)) }

/-- The steps of R234 from distance `d`. -/
def vlrsSteps (mode : RMode) (sat : Bool) (d : Nat) (p : Pairs) : Nat → Pairs
  | 0 => p
  | n + 1 => vlrsSteps mode sat (2 * d) (vlrsStep mode sat d p) n

/-- The result lanes of a VLRS (R234). -/
def vlrsRun (t : Strand) (x : VOp) : List Nat × Nat :=
  let m := recFmt x.ty
  let mode := t.rmode x.p.rnd
  let as := (List.range 32).map (fun i => if act t x.p i then m.decode (t.lane x.a m.w i) else Num.one)
  let bs := (List.range 32).map (fun i =>
    if act t x.p i then m.decode (t.lane x.b m.w i) else Num.fin true 0 0)
  let carry := Fmt.fp32.decode
    (if x.p.c.toNat < 32 then laneOf (t.vreg x.p.c.toNat).val 32 31 else t.lane x.p.c 32 0)
  let b0 := fFma Fmt.fp32 mode x.p.sat (as.headD Num.one) carry (bs.headD Num.one)
  let r := vlrsSteps mode x.p.sat 1 ⟨as, Fmt.fp32.decode b0.bits :: bs.tail, b0.fl⟩ 5
  (r.b.map (fun v => (Fmt.fp32.roundTo .rne false v).bits), r.fl)

/-- VLRS (R233, R234). -/
def execVlrs (x : VOp) (s : State) : Host.Outcome State Fault Refusal :=
  issue s { fields := [x.fa, x.fb, x.fc, x.fd] } (fun s' =>
    let r := vlrsRun s.cur x
    let outs := putLanes s.cur x.p x.vd 32 32 (fun i => plain (r.1.getD i 0))
    finish s' x.len (fun t => (t.setV x.vd.toNat (outRow 32 outs)).orFlags (BitVec.ofNat 64 r.2)))

/-! ### Neighbours -/

/-- The route region of a live launch that contains a core (R111, R144). DESIGN CHOICE (log entry 55): where regions of two
live launches overlap, of which the manual says nothing, the shape of the earlier launch holds for every strand. -/
def State.routeOf (s : State) (core : Nat) : Option RectD :=
  (s.launches.filter Launch.mapped).findSome? (fun l => l.m.routes.find? (fun r => r.has core))

/-- The core at package coordinates. -/
def coreAt (x y : Nat) : Nat := 64 * y + x

/-- A neighbour in the mesh: none beyond the package edge or across a die seam (R241). -/
def meshNeighbour (core dir : Nat) : Option Nat :=
  let x := core % 64
  let y := core / 64
  match dir with
  | 0 => if y % 32 = 0 then none else some (coreAt x (y - 1))
  | 1 => if x % 32 = 31 then none else some (coreAt (x + 1) y)
  | 2 => if y % 32 = 31 then none else some (coreAt x (y + 1))
  | _ => if x % 32 = 0 then none else some (coreAt (x - 1) y)

/-- The position of a core in ring order (R145). -/
def ringPos (r : RectD) (core : Nat) : Nat :=
  let x := core % 64 - r.x0
  let y := core / 64 - r.y0
  if y = 0 then x
  else if x = 0 then r.w + (r.w - 1) * (r.h - 1) + (r.h - 1 - y)
  else r.w + (r.w - 1) * (y - 1) + (if y % 2 = 1 then r.w - 1 - x else x - 1)

/-- The core at a position in ring order (R145). -/
def ringAt (r : RectD) (p : Nat) : Nat :=
  if p < r.w then coreAt (r.x0 + p) r.y0
  else
    let q := p - r.w
    let y := q / (r.w - 1) + 1
    if y < r.h then
      coreAt (r.x0 + (if y % 2 = 1 then r.w - 1 - q % (r.w - 1) else q % (r.w - 1) + 1)) (r.y0 + y)
    else coreAt r.x0 (r.y0 + (r.h - 1 - (q - (r.w - 1) * (r.h - 1))))

/-- A neighbour in a torus: the wrap links at the edges of the region (R145). -/
def torusNeighbour (r : RectD) (core dir : Nat) : Option Nat :=
  let x := core % 64
  let y := core / 64
  match dir with
  | 0 => if y = r.y0 then some (coreAt x (r.y0 + r.h - 1)) else some (coreAt x (y - 1))
  | 1 => if x = r.x0 + r.w - 1 then some (coreAt r.x0 y) else some (coreAt (x + 1) y)
  | 2 => if y = r.y0 + r.h - 1 then some (coreAt x r.y0) else some (coreAt x (y + 1))
  | _ => if x = r.x0 then some (coreAt (r.x0 + r.w - 1) y) else some (coreAt (x - 1) y)

/-- The neighbour of a core in a direction, 0 north, 1 east, 2 south, 3 west (R145, R241); a drover core, which is none of the
mesh's cores (R14), has none. -/
def State.neighbour (s : State) (core dir : Nat) : Option Nat :=
  let n :=
    match s.routeOf core with
    | some r =>
      if r.kind = 1 then
        match dir with
        | 1 => some (ringAt r ((ringPos r core + 1) % (r.w * r.h)))
        | 3 => some (ringAt r ((ringPos r core + r.w * r.h - 1) % (r.w * r.h)))
        | _ => none
      else if r.kind = 3 then torusNeighbour r core dir
      else meshNeighbour core dir
    | none => meshNeighbour core dir
  match n with
  | some c => if 4096 ≤ core || s.dead.contains c then none else some c
  | none => none

/-- Whether a core holds a team of a launch (R125). -/
def State.hasTeam (s : State) (core launch : Nat) : Bool :=
  s.holds.any (fun h => h.core == core && h.launch == launch)

/-! ### FWD and VFWD -/

/-- The checks of R241 and the forward itself: the strand waits until the value lands (R239). -/
def forward (s : State) (dir slot : BitVec 2) (reg val len : Nat) (cell : Option Nat) (s' : State) :
    Host.Outcome State Fault Refusal :=
  let code : Word := BitVec.ofNat 64 (4 * dir.toNat + slot.toNat)
  match s.neighbour s.cur.core dir.toNat with
  | none => trap s Cause.noNeighbour code
  | some c =>
    if s.cur.mode = .launch ∧ s.hasTeam c s.cur.launch = false then trap s Cause.protection code
    else if s.isFenced c then trap s Cause.peerLost code
    else
      let f : Fwd := { sender := s.cur.uid, launch := s.cur.launch, src := s.cur.core, core := c,
                       slot := slot.toNat, reg := reg, val := val, cell := cell
                       from' := (dir.toNat + 2) % 4 * 4 + s.cur.slot }
      .next ({ s' with fwds := s'.fwds ++ [f] }.await .fwd s.cur.uid len)

/-- FWD (R239). -/
def execFwd (x : A2) (dir slot : BitVec 2) (s : State) : Host.Outcome State Fault Refusal :=
  issue s { fields := [.s x.a x.pa 14, { spec := x.d.toNat, lsb := 7, scalar := true, dst := true, src := false }],
            mem := true } (fun s' =>
    forward s dir slot x.d.toNat (s.cur.val x.a).toNat 4 (if (s.cur.reg x.a.toNat).mark then some x.a.toNat else none) s')

/-- A register that awaits a forward (R237). -/
def Reg.arm (r : Reg) : Reg := { r with full := false, mark := true, pend := false, tag := none }

/-- As `Reg.arm`. -/
def VReg.arm (r : VReg) : VReg := { r with full := false, mark := true, pend := false, tag := none }

/-- FWD.arm (R237, R239). DEDUCED (log entry 56): it makes none of the checks of a forward (R241), and inside a capsule it takes
R370's CAPSULE_LIMIT all the same. -/
def execFwdArm (d : BitVec 6) (s : State) : Host.Outcome State Fault Refusal :=
  issue s { fields := [.d d 7], mem := true } (fun s' => finish s' 4 (fun t => t.onReg d.toNat Reg.arm))

/-- The bytes of a vector-pipe word with its prefix. -/
def vlen (p : Option Pfx) : Nat := match p with | some _ => 8 | none => 4

/-- VFWD (R240): v[vd] is a source under policy 0. -/
def execVfwd (p : Option Pfx) (dir slot : BitVec 2) (vd : BitVec 5) (s : State) :
    Host.Outcome State Fault Refusal :=
  issue s { fields := [{ spec := vd.toNat, cells := [64 + vd.toNat] }] } (fun s' =>
    forward s dir slot (64 + vd.toNat) (s.cur.vreg vd.toNat).val.toNat (vlen p)
      (if (s.cur.vreg vd.toNat).mark then some (64 + vd.toNat) else none) s')

/-- VFWD.arm (R237, R240). DEDUCED (log entry 56): as FWD.arm. -/
def execVfwdArm (p : Option Pfx) (vd : BitVec 5) (s : State) : Host.Outcome State Fault Refusal :=
  issue s { fields := [.vd vd false] } (fun s' => finish s' (vlen p) (fun t => t.onV vd.toNat VReg.arm))

/-- Whether a register of a strand awaits a forward (R237). -/
def Strand.awaits (t : Strand) (c : Nat) : Bool :=
  if c < 56 then (t.reg c).mark && !(t.reg c).full && !(t.reg c).pend
  else (t.vreg (c - 64)).mark && !(t.vreg (c - 64)).full && !(t.vreg (c - 64)).pend

/-- A forward written: the register is full and its mark set (R237). -/
def Strand.landCell (t : Strand) (c v : Nat) : Strand :=
  if c < 56 then t.onReg c (fun r => { r.put (BitVec.ofNat 64 v) with mark := true })
  else t.onV (c - 64) (fun r => { r.put (BitVec.ofNat 1024 v) with mark := true })

/-- The strand a forward may land in: on the slot, of the sender's launch, no handler or creator (R238). -/
def State.fwdTarget (s : State) (f : Fwd) : Option Strand :=
  match s.bySlot f.core f.slot with
  | some t => if t.launch == f.launch && !t.isHandler && t.awaits f.reg then some t else none
  | none => none

/-- Whether a forward waits before another at the same register (R238): by its cycle of arrival, then by N, E, S, W, then by
slot. -/
def Fwd.before (f g : Fwd) : Bool :=
  f.core == g.core && f.slot == g.slot && f.reg == g.reg && f.arr != 0
    && (decide (f.arr < g.arr) || f.arr == g.arr && decide (f.from' < g.from'))

/-- FORWARD_LAND (R237, R238): a forward arrives at its core; in a later cycle the first of those that wait on a register
lands in it, if it awaits one, and its FWD or VFWD completes. Pick 0 is the forward's place among those that have not
landed. -/
def execForwardLand (s : State) : Host.Outcome State Fault Refusal :=
  match s.fwds[s.arg 0]? with
  | none => .next s
  | some f =>
    if f.arr = 0 then .next { s with fwds := s.fwds.set (s.arg 0) { f with arr := s.cycles + 1 } }
    else
      match s.fwdTarget f with
      | none => .next s
      | some t =>
        if s.cycles < f.arr || s.fwds.any (fun g => g.launch == f.launch && g.before f) then .next s
        else .next (({ s with fwds := s.fwds.eraseIdx (s.arg 0) }.onUid t.uid (fun u => u.landCell f.reg f.val)).onUid
        f.sender Strand.wake)

/-! ### Completions -/

/-- SFU_ENTRY_COMPLETE (R195): the oldest entry of a core writes its destination and its flags. Pick 0 is
the core. -/
def execSfuEntryComplete (s : State) : Host.Outcome State Fault Refusal :=
  match s.sfu.find? (fun e => e.core == s.arg 0) with
  | none => .next s
  | some e =>
    .next ({ s with sfu := s.sfu.erase e }.onUid e.strand (fun t => (t.setV e.vd e.row).orFlags e.flags))

/-- RECURRENCE_COMPLETE (R228): the rows, then the carry, and the flags. Pick 0 is the core. -/
def execRecurrenceComplete (s : State) : Host.Outcome State Fault Refusal :=
  match s.recs.find? (fun e => e.core == s.arg 0) with
  | none => .next s
  | some e =>
    .next ({ s with recs := s.recs.erase e }.onUid e.strand (fun t =>
      (e.rows.foldl (fun (t : Strand) (p : Nat × Row) => t.setV p.1 p.2) t).orFlags e.flags))

end Sys2Proof.Machine
end

