-- ==== Sys2Proof/Machine/Strands.lean ====
section
/-! DEFINITION. How a strand starts and how it leaves its slot: the registers of R24 and R186, the
conditions that EXIT, DONE, SUSP and a save wait for (R53, R67, R182, R196), and the end of a team (R440,
R441). -/

namespace Sys2Proof.Machine

/-! ### Slots -/

/-- The strand saved or swapped out of a slot, the latest (R185: SAVED or LENT). -/
def State.savedAt (s : State) (core slot : Nat) : Option Saved :=
  s.saved.reverse.find? (fun v => v.t.core == core && v.t.slot == slot)

/-- Whether a slot is FREE (R185). -/
def State.slotFree (s : State) (core slot : Nat) : Bool :=
  (s.bySlot core slot).isNone && (s.savedAt core slot).isNone

/-- A strand added to its slot; in a halted cluster it halts before it issues (R428). -/
def State.addStrand (s : State) (t : Strand) : State :=
  { s with strands := s.strands ++ [{ t with haltReq := t.haltReq || s.coreFrozen t.core }] }

/-- A strand gone from its slot. -/
def State.removeStrand (s : State) (u : Nat) : State :=
  { s with
    cur := if s.cur.uid = u then { } else s.cur
    strands := s.strands.filter (fun t => t.uid != u) }

/-- The strand on a slot as the one that issues. -/
def State.select (s : State) (core slot : Nat) : Option State :=
  if s.cur.live && s.cur.core == core && s.cur.slot == slot then some s
  else
    match s.strands.find? (fun t => t.live && t.core == core && t.slot == slot) with
    | none => none
    | some t =>
      some { s with
        cur := t
        strands := s.strands.filter (fun u => u.uid != t.uid) ++ (if s.cur.live then [s.cur] else []) }

/-! ### Starts -/

/-- The g and k registers of a strand that starts from a continuation record (R24): k6 and k7 await a
forward. -/
def contRegs (fp : Word) (ks : List Word) : Vector Reg 56 :=
  Vector.ofFn (fun i : Fin 56 =>
    if i.val < 47 then { }
    else if i.val = 47 then { val := fp }
    else if i.val < 54 then { val := ks.getD (i.val - 48) 0 }
    else { full := false, mark := true })

/-- The g and k registers of a handler's or creator's strand (R24, R171): all full, no forward mark. -/
def handlerRegs (ks : List Word) : Vector Reg 56 :=
  Vector.ofFn (fun i : Fin 56 => if i.val < 48 then { } else { val := ks.getD (i.val - 48) 0 })

/-- Strands of the kernels before kernel `k` (R100). -/
def Manifest.strandsBefore (m : Manifest) (k : Nat) : Nat :=
  ((m.kernels.take k).map (fun x => x.convoys * x.teams * x.strands)).sum

/-- A continuation's strand on a slot of a core that holds a team of its launch (R24, R63, R186). -/
def contStrand (uid core slot : Nat) (l : Launch) (h : Hold) (pc : Addr) (fp : Word) (ks : List Word) :
    Strand :=
  let kd := l.m.kernels.getD h.kernel { }
  let own := decide (slot < kd.strands)
  let g := l.m.strandsBefore h.kernel + (h.convoy * kd.teams + h.idx) * kd.strands + slot
  { live := true, uid := uid, core := core, slot := slot, kind := .cont, launch := l.id, team := h.team,
    pc := pc, gk := contRegs fp ks, trapVector := l.m.trapVector,
    spillBase := if own then Config.spadBytes - (slot + 1) * kd.spill else 0,
    spillSize := if own then kd.spill else 0,
    overflowPtr := if own then l.m.overflowBase + BitVec.ofNat 64 (g * l.m.overflowStride) else 0,
    overflowStride := l.m.overflowStride }

/-- The device writes TOP = 8 and OVF = 0 into the spill header of a strand that starts with a carve-out (R250). -/
def State.clearSpill (s : State) (t : Strand) : State :=
  if t.spillSize = 0 then s else s.spadPut t.core t.spillBase 8 8 (fullMask 8)

/-- A strand starts from a continuation record (R114): one whose word 0 breaks its layout raises MISALIGNED
before its first instruction. Its spill header is set first (R250), and it acquires what was released with its record
(R331, R332). -/
def State.startRecord (s : State) (core slot : Nat) (l : Launch) (h : Hold) (r : QRec) : State :=
  let body := r.w
  let w := body.headD 0
  let bad := w.toNat % 2 == 1 || decide (2 ^ 48 ≤ w.toNat)
  let t := contStrand s.nextUid core slot l h (if bad then 0 else w.setWidth 48) (body.getD 1 0) (body.drop 2)
  ((((s.clearSpill t).sliceAcquire core t.uid)).addStrand
    { t with preTrap := if bad then some (Cause.misaligned, w) else none, need := r.clock }).fresh

/-- The continuation record of a strand suspended at a pc (R51, R355). -/
def contRecord (t : Strand) (pc : Addr) : List Word :=
  pcBits (pc.setWidth 64) :: (t.reg 47).val :: (List.range 6).map (fun i => (t.reg (48 + i)).val)

/-! ### What a strand's end waits for -/

/-- Whether a posted operation has been performed, and its owner has not refused it (R67, R404). DESIGN CHOICE (log entry 64):
where another die owns the location, that is known once the owner has applied it, whatever the scope. -/
def Store.done (x : Store) : Bool :=
  x.stage == .applied

/-- Whether a job is an MXDR's (R303). -/
def Job.isDrain (j : Job) : Bool :=
  match j.kind with
  | .drain _ _ _ => true
  | _ => false

/-- Whether every posted G and H store, atomic and MXDR element of a strand has been performed, or has placed its record
(R67, R339). -/
def State.drained (s : State) (u : Nat) : Bool :=
  !s.stores.any (fun x => x.strand == u && !x.done) && !s.faultMsgs.any (fun x => x.strand == u)
    && !s.jobs.any (fun j => j.strand == u && j.isDrain)

/-- Whether no long-latency producer of a strand is pending, its special-function and recurrence entries
included (R51, R196). -/
def State.noPends (s : State) (u : Nat) : Bool :=
  !s.pends.any (fun p => p.strand == u) && !s.sfu.any (fun e => e.strand == u)
    && !s.recs.any (fun e => e.strand == u)

/-- Whether no copy or matrix job of a strand runs (R53). -/
def State.noJobs (s : State) (u : Nat) : Bool :=
  !s.jobs.any (fun j => j.strand == u) && !s.mxCmds.any (fun c => c.strand == u)

/-- Whether no team- or convoy-scope write of a strand is still in its slice (R317). -/
def State.writtenBack (s : State) (u : Nat) : Bool := !s.slices.any (fun x => x.agents.contains u)

/-- Whether no child of a strand's SPAWN awaits its place: a child is placed at the moment its release completes, which
the drain of the strand's own end does not precede (R53, R54). A supervisor strand's child with no free slot is not
awaited: its place is the slot that the strand itself leaves. -/
def State.noSpawns (s : State) (u : Nat) : Bool :=
  !s.enqs.any (fun e => e.spawn && e.strand == u
    && (e.launch != 0 || [0, 1, 2, 3].any (fun n => s.slotFree e.core n)))

/-- What EXIT and DONE wait for (R53, R54, R182, R254, R317). -/
def State.quiet (s : State) (u : Nat) : Bool :=
  s.noPends u && s.noJobs u && s.drained u && s.writtenBack u && s.noSpawns u
    && !s.nops.any (fun n => n.strand == u)

/-- Whether a producer in flight is an access of its strand, which a release or an acquire waits for (R323, R324); the rows
that a matrix or copy job holds, and a JWAIT on a job, are none (R326). -/
def PendOp.isAccess (o : PendOp) : Bool :=
  match o with
  | .rows => false
  | .mxq => false
  | .jwait _ => false
  | _ => true

/-- Whether every write in a die's view has been performed at its owner (R323 point 3). -/
def State.dieAtOwners (s : State) (d : Nat) : Bool := !s.stores.any (fun x => x.stage == .sent && dieOf x.core == d)

/-- Whether a release of an agent at a scope may complete, as far as its die is concerned (R323 points 2 and 3): its slice
writes are written back, and for package and system scope every write in the die's view is at its owner. -/
def State.agentReleased (s : State) (u scope core : Nat) : Bool :=
  (scope < 3 || !s.slices.any (fun x => x.agents.contains u)) && (scope < 4 || s.dieAtOwners (dieOf core))

/-- Whether a release of a strand at a scope may complete (R323): every access of the strand before the
number `uid` is performed at the scope's point, and what it performed at an owner stands in its die's view; what it has
acquired its die has applied; its slice writes are written back; for package and system scope every write in the die's
view is at its owner; its H stores are accepted. -/
def State.releaseReady (s : State) (u uid scope core : Nat) : Bool :=
  !s.stores.any (fun x => x.strand == u && x.ord < uid && x.stage == .issued)
    && !s.pends.any (fun p => p.strand == u && p.uid < uid && p.op.isAccess)
    && !s.nops.any (fun n => n.strand == u && n.uid < uid)
    && !s.jobs.any (fun j => j.strand == u && j.uid < uid && j.isDrain)
    && !s.behind.any (fun b => b.strand == u && !s.covers b.die b.clock)
    && (s.byUid u).all s.caughtUp
    && s.agentReleased u scope core

/-! ### Team end -/

/-- A change of the team that holds a core for a launch. -/
def State.onHold (s : State) (core launch : Nat) (f : Hold → Hold) : State :=
  { s with holds := s.holds.map (fun h => if h.core == core && h.launch == launch then f h else h) }

/-- An item placed in the broadcast sequence (R117, R125), with the clock of what is released with it. -/
def State.broadcast (s : State) (source tag launch : Nat) (kind : ItemKind) (clock : List Nat := []) : State :=
  let it : Item := { seq := s.link.nextSeq, source := source, tag := tag, launch := launch, kind := kind, clock := clock }
  { s with link := { s.link with items := s.link.items ++ [it], nextSeq := s.link.nextSeq + 1 } }

/-- Whether a core holds a strand of a launch in any state, or a context record of it (R440), or, of a team that does not end
yet, a launch continuation that has not started. -/
def State.coreBusy (s : State) (core launch : Nat) : Bool :=
  s.all.any (fun t => t.core == core && t.launch == launch && t.mode == .launch)
    || s.saved.any (fun v => v.t.core == core && v.t.launch == launch)
    || s.holds.any (fun h => h.core == core && h.launch == launch && h.ending.isNone && !h.toStart.isEmpty)

/-- A team ends once a strand of it has ended and none is left (R440): its end is broadcast (R441), and
the report of R398 or R421 is sent. -/
def State.teamCheck (s : State) (core launch : Nat) : State :=
  match s.holdOf core launch with
  | none => s
  | some h =>
    if h.ended || !h.someEnded || s.coreBusy core launch then s
    else
      let s1 := (s.onHold core launch (fun x => { x with ended := true })).broadcast (16 + dieOf core) 0
        launch (.teamEnd core h.team h.endCode)
      match h.report with
      | some r => s1.report (dieOf core) launch r.1 r.2
      | none => s1

/-- Whether a core may take work of a launch: the end of no earlier launch's team on it awaits its place in the sequence (R441). -/
def State.itemApplied (s : State) (core launch : Nat) : Bool :=
  !s.holds.any (fun h => h.core == core && h.ended && decide (h.launch < launch))

/-- A strand of a team has ended with an end code (R441); one that did not exit ends the team (R397, R421, R443). -/
def Hold.strandEnded (h : Hold) (code : Nat) (rep : List Word) : Hold :=
  { h with
    someEnded := true
    ending := if code = 0 then h.ending else some (h.ending.getD code)
    endCode := if code = 0 then h.endCode else if h.endCode = 0 then code else h.endCode
    report := if rep.isEmpty then h.report else some (h.report.getD (9, rep)) }

/-- A strand leaves its slot without ending its team's work: SUSP, DONE, a swap-out. -/
def State.leaveSlot (s : State) (t : Strand) : State :=
  (s.removeStrand t.uid).teamCheck t.core t.launch

/-- The strands of an ending team that are saved out of their slots end with it (R397). -/
def State.dropSaved (s : State) (core launch : Nat) : State :=
  let gone := fun (v : Saved) => v.t.core == core && v.t.launch == launch && v.t.ending.isSome && !v.t.isHandler
  let us := (s.saved.filter gone).map (·.t.uid)
  { s with
    saved := s.saved.filter (fun v => !gone v)
    pends := s.pends.filter (fun p => !us.contains p.strand)
    waits := s.waits.filter (fun w => !us.contains w.strand) }

/-- A strand of a team ends (R440). -/
def State.endStrand (s : State) (t : Strand) (code : Nat) : State :=
  (((s.removeStrand t.uid).dropSaved t.core t.launch).onHold t.core t.launch (fun h => h.strandEnded code t.endReport)).teamCheck
    t.core t.launch

end Sys2Proof.Machine
end

