-- ==== Sys2Proof/Machine/Fetch.lean ====
section
/-! DEFINITION. Instruction fetch (R183, R184, R406): a strand's fetch buffer, the instruction caches of
the cores, the instruction copies in the cluster slices, and memory on die 0. -/

namespace Sys2Proof.Machine

/-- Sets of an instruction cache (R183). -/
def icSets : Nat := 64

/-- The lines of a set kept after a new one has come: the four used last (R183). -/
def keepWays (owner line : Nat) : Nat → List ILine → List ILine
  | _, [] => []
  | n, x :: xs =>
    if x.owner == owner && x.line % icSets == line % icSets then
      match n with
      | 0 => keepWays owner line 0 xs
      | k + 1 => x :: keepWays owner line k xs
    else x :: keepWays owner line n xs

/-- A line put in front of its set in a core's cache. -/
def cacheLine (l : List ILine) (e : ILine) : List ILine :=
  e :: keepWays e.owner e.line 3 (l.filter (fun x => !(x.owner == e.owner && x.line == e.line)))

/-- A line of an owner, if it is there. -/
def findLine (l : List ILine) (owner line : Nat) : Option ILine :=
  l.find? (fun x => x.owner == owner && x.line == line)

/-- The requester of a strand's fetch. -/
def State.fetchReq (s : State) (t : Strand) (a : Nat) : Req := s.reqCur t a

/-- In place of a cause: the fetch waits behind a write that stalls at the owner's controller (R282). -/
def fetchWaits : Nat := 0x100

/-- What the translation of a fetch leaves (R269, R273). -/
def State.fetchTouch (s : State) (t : Strand) (a : Nat) : State :=
  s.touch (s.fetchReq t (a / 64 * 64)).cls (a / 64 * 64)

/-- A line through the slice of the core's cluster (R183): from the slice, else read from memory at package
scope with X permission (R184), behind a write to it that stalls (R282). -/
def State.sliceLine (s : State) (t : Strand) (line : Nat) : Except Nat (State × Nat) :=
  match findLine s.islices (clusterOf t.core) line with
  | some e => .ok (s, e.val)
  | none =>
    match s.keys (s.fetchReq t (64 * line)) .x (64 * line) 64 with
    | .error c => .error c
    | .ok ks =>
      if s.readStalls (64 * line) 64 then .error fetchWaits
      else if s.uncorrectable ks then .error Cause.uncorrectable
      else
        let v := s.viewRead (dieOf t.core) (64 * line) ks
        .ok ({ s.fetchTouch t (64 * line) with
            islices := { owner := clusterOf t.core, line := line, val := v } :: s.islices }, v)

/-- The next sequential line is prefetched on a miss; one that fails raises nothing (R183, R406). -/
def State.prefetchLine (s : State) (t : Strand) (line : Nat) : State :=
  match findLine s.icache t.core line with
  | some _ => s
  | none =>
    match s.sliceLine t line with
    | .error _ => s.fetchTouch t (64 * line)
    | .ok r => { r.1 with icache := cacheLine r.1.icache { owner := t.core, line := line, val := r.2 } }

/-- A line through the core's instruction cache. -/
def State.cacheRead (s : State) (t : Strand) (line : Nat) : Except Nat (State × Nat) :=
  match findLine s.icache t.core line with
  | some e => .ok ({ s with icache := cacheLine s.icache e }, e.val)
  | none =>
    match s.sliceLine t line with
    | .error c => .error c
    | .ok r =>
      .ok (({ r.1 with icache := cacheLine r.1.icache { owner := t.core, line := line, val := r.2 } }).prefetchLine
        t (line + 1), r.2)

/-- The 32 bytes a fetch buffer takes in from an address (R183). -/
def State.fillBuf (s : State) (t : Strand) (a : Nat) : Except Nat (State × Nat × Nat) :=
  if t.mode == .launch && !s.leased t.launch a then .error Cause.leaseBreach
  else
    match s.cacheRead t (a / 64) with
    | .error c => .error c
    | .ok r => .ok (r.1, a / 32 * 32, r.2 / 256 ^ (a % 64 / 32 * 32) % 256 ^ 32)

/-- A fetch so far: the state, the buffer, and the halfwords, or the fault and the address of the halfword
that failed. -/
structure Fetched where
  s : State
  buf : Option (Nat × Nat)
  halves : List Nat := []
  fault : Option (Nat × Nat) := none

/-- A halfword of the instruction stream, from the buffer, which is filled where it does not hold it. -/
def Fetched.half (f : Fetched) (t : Strand) (a : Nat) : Fetched :=
  let get := fun (b : Nat × Nat) => b.2 / 256 ^ (a % 32) % 65536
  match f.buf with
  | some b =>
    if b.1 = a / 32 * 32 then { f with halves := f.halves ++ [get b] }
    else
      match f.s.fillBuf t a with
      | .error c => { f with fault := some (c, a) }
      | .ok r => { s := r.1, buf := some r.2, halves := f.halves ++ [get r.2] }
  | none =>
    match f.s.fillBuf t a with
    | .error c => { f with fault := some (c, a) }
    | .ok r => { s := r.1, buf := some r.2, halves := f.halves ++ [get r.2] }

/-- The halfwords of the instruction at a pc, as many as its length bits ask for (R21, R22). -/
def fetchLoop (t : Strand) (f : Fetched) : Nat → Fetched
  | 0 => f
  | n + 1 =>
    match f.fault with
    | some _ => f
    | none =>
      if f.halves.isEmpty || needsMore f.halves then
        fetchLoop t (f.half t ((t.pc.toNat + 2 * f.halves.length) % 2 ^ 48)) n
      else f

/-- The fetch of a strand's next instruction. -/
def fetchFor (s : State) (t : Strand) : Fetched := fetchLoop t { s := s, buf := t.fetchBuf } 4

/-- The address of the uncorrectable unit that a fetch met (R393). -/
def State.badFetch (s : State) (t : Strand) (a : Nat) : Nat :=
  match s.keys (s.fetchReq t (a / 64 * 64)) .x (a / 64 * 64) 64 with
  | .ok ks => s.badAddr (a / 64 * 64) ks
  | .error _ => a

/-- A fetch fault (R406): a lease breach ends the work, an uncorrectable unit stops the strand, any other
cause is a trap at the instruction. A fetch behind a stalled write waits. -/
def fetchFault (s0 : State) (cause a : Nat) : Host.Outcome State Fault Refusal :=
  let s := s0.fetchTouch s0.cur a
  if cause = fetchWaits then stall s
  else if cause = Cause.leaseBreach then .next (s.leaseBreach a)
  else if cause = Cause.uncorrectable then .next (s.uncorrectableStop (BitVec.ofNat 64 (s.badFetch s.cur a)))
  else trap s cause (BitVec.ofNat 64 a)

/-! ### What a boundary finds of the next instruction -/

/-- Whether an instruction is one of majors 8 to 18, or stands for one (R37). -/
def Instr.behindRecv (i : Instr) : Bool :=
  match i with
  | .cLdsD _ _ _ => true
  | .cStsD _ _ _ => true
  | .cLdsW _ _ _ => true
  | .cStsW _ _ _ => true
  | .cLdaD _ _ => true
  | .cStaD _ _ => true
  | i =>
    let h := (encode i).headD 0
    h % 4 == 3 && 8 ≤ h / 4 % 32 && h / 4 % 32 ≤ 18

/-- Whether the strand that issues is inside a JWAIT or PRECV (R387, R395): its next instruction waits until that has completed. -/
def State.insideRecv (s : State) : Bool :=
  s.pends.any (fun p => p.strand == s.cur.uid && (match p.op with | .jwait _ => true | .precv _ _ => true | _ => false))
    && (match decode (fetchFor s s.cur).halves with
      | .ok i => Instr.behindRecv i
      | .error _ => false)

/-- INSTRUCTION_FETCH (R183): the fetch unit serves the strand on a slot whose buffer does not hold its
pc. Pick 0 is the core, pick 1 the slot; where pick 2 is 1, the cluster's slice gives up its copy of the
line first. A fault shows when the strand executes from there. -/
def execInstructionFetch (s : State) : Host.Outcome State Fault Refusal :=
  match s.bySlot (s.arg 0) (s.arg 1) with
  | none => .next s
  | some t =>
    let a := t.pc.toNat
    let s1 :=
      if s.arg 2 = 1 then
        { s with islices := s.islices.filter (fun x => !(x.owner == clusterOf t.core && x.line == a / 64)) }
      else s
    if t.fetchBuf.any (fun b => b.1 == a / 32 * 32) then .next s1
    else
      match s1.fillBuf t a with
      | .error _ => .next (s1.fetchTouch t a)
      | .ok r => .next (r.1.onUid t.uid (fun u => { u with fetchBuf := some r.2 }))

end Sys2Proof.Machine
end

