-- ==== Sys2Proof/Machine/Shapes.lean ====
section
/-! DEFINITION. Tensor formats (R108), the shape record and the place it gives each element (R107, R292,
R293), and the bytes an MXDR may still write (R304). -/

namespace Sys2Proof.Machine

/-! ### Formats -/

/-- Whether a code is a format of R108. -/
def fmtLegal (f : Nat) : Bool := f ≤ 0x0B || (0x12 ≤ f && f ≤ 0x18)

/-- n of BPn; 0 of any other format (R108). -/
def fmtPlanes (f : Nat) : Nat := if 0x12 ≤ f then f - 0x10 else 0

/-- Bits of an element of a format that is not BP (R285). -/
def fmtBits (f : Nat) : Nat :=
  match f with
  | 0 => 32
  | 3 => 32
  | 4 => 32
  | 1 => 16
  | 2 => 16
  | 5 => 16
  | 0x0A => 6
  | 0x0B => 4
  | _ => 8

/-! ### Shape records -/

/-- `n` bytes at offset `o` of a record's 64 bytes. -/
def fieldOf (v o n : Nat) : Nat := v / 256 ^ o % 256 ^ n

/-- A shape record (R107). -/
def shapeOf (v : Nat) : Shape :=
  { base := fieldOf v 0 8, scales := fieldOf v 8 8, size0 := fieldOf v 0x10 4, size1 := fieldOf v 0x14 4,
    size2 := fieldOf v 0x18 4, size3 := fieldOf v 0x1C 4, stride1 := sext (fieldOf v 0x20 4) 32,
    stride2 := sext (fieldOf v 0x24 4) 32, stride3 := sext (fieldOf v 0x28 4) 32, plane := fieldOf v 0x2C 4,
    origin0 := fieldOf v 0x30 4, origin1 := fieldOf v 0x34 4, clip0 := fieldOf v 0x38 2,
    clip1 := fieldOf v 0x3A 2, format := fieldOf v 0x3C 1, tile := fieldOf v 0x3D 1 }

/-- T of a record (R292). -/
def Shape.side (r : Shape) : Nat := if r.tile = 0 then 16 else 32

/-- What makes any record a BAD_RECORD (R293). -/
def shapeBad (v : Nat) (r : Shape) : Bool :=
  !fmtLegal r.format || 1 < r.tile || fieldOf v 0x3E 2 != 0
    || r.size0 == 0 || r.size1 == 0 || r.size2 == 0 || r.size3 == 0
    || (fmtPlanes r.format != 0
        && (r.origin0 % r.side != 0 || r.origin1 % r.side != 0 || r.size1 % r.side != 0))

/-- A 64-bit address from an exact one. -/
def wrap64 (i : Int) : Nat := (i % 2 ^ 64).toNat

/-- The offset of the row that a tile row is (R292). -/
def Shape.rowOff (r : Shape) (row : Nat) : Int :=
  Int.ofNat (row % r.size1) * r.stride1 + Int.ofNat (row / r.size1 % r.size2) * r.stride2
    + Int.ofNat (row / (r.size1 * r.size2)) * r.stride3

/-- Whether a tile element is valid (R292). -/
def Shape.valid (r : Shape) (i j : Nat) : Bool :=
  j < r.clip0 && i < r.clip1 && r.origin0 + j < r.size0 && r.origin1 + i < r.size1 * r.size2 * r.size3

/-- Where an element lies (R292): its address or its group's, the bytes, and the element in the group. -/
def Shape.elem (r : Shape) (i j : Nat) : Nat × Nat × Nat :=
  let row := Int.ofNat r.base + r.rowOff (r.origin1 + i)
  let i0 := r.origin0 + j
  if r.format = 0x0B then (wrap64 (row + 2 * Int.ofNat (i0 / 4)), 2, i0 % 4)
  else if r.format = 0x0A then (wrap64 (row + 3 * Int.ofNat (i0 / 4)), 3, i0 % 4)
  else (wrap64 (row + Int.ofNat (i0 * (fmtBits r.format / 8))), fmtBits r.format / 8, 0)

/-- Where plane `q` of a BP tile lies (R292). -/
def Shape.block (r : Shape) (q : Nat) : Nat :=
  let t := r.side
  let row := r.origin1
  wrap64 (Int.ofNat (r.base + q * r.plane) + Int.ofNat (row / (r.size1 * r.size2)) * r.stride3
    + Int.ofNat (row / r.size1 % r.size2) * r.stride2 + Int.ofNat (row % r.size1 / t) * r.stride1
    + Int.ofNat (r.origin0 / t * (t * t / 8)))

/-- The address of the tile's scale byte (R292). -/
def Shape.scaleAddr (r : Shape) : Nat :=
  let t := r.side
  (r.scales + r.origin1 / t * ((r.size0 + t - 1) / t) + r.origin0 / t) % 2 ^ 64

/-- The bits of a plane block that belong to valid elements (R83, R292). -/
def Shape.blockMask (r : Shape) : Nat :=
  let t := r.side
  (List.range (t * t)).foldl (fun (m : Nat) b => if r.valid (b / t) (b % t) then m + 2 ^ b else m) 0

/-- Whether an earlier MXDR of a strand may still write these bytes (R304). -/
def State.drainBefore (s : State) (strand uid a n : Nat) : Bool :=
  s.jobs.any (fun j => j.strand == strand && j.uid < uid && j.isDrain
    && (match j.shape with
        | none => true
        | some r => (List.range (r.side * r.side)).any (fun b =>
            r.valid (b / r.side) (b % r.side)
              && (let e := r.elem (b / r.side) (b % r.side); overlap e.1 e.2.1 a n))))

end Sys2Proof.Machine
end

