-- ==== Sys2Proof/Machine/Context.lean ====
section
/-! DEFINITION. Context records and slot annexes (R202, R203): their layout, how a strand's state is written into them and
comes back from them, and where the drover core of a die keeps them. -/

namespace Sys2Proof.Machine

/-! ### The layout of a record (R202, R427) -/

/-- Bits as one value, the first lowest. -/
def bitsNat : List Bool → Nat
  | [] => 0
  | b :: bs => b.toNat + 2 * bitsNat bs

/-- STATE of a context record (R202). -/
def ctxState (t : Strand) (kind : Nat) : Nat :=
  t.seq % 65536 * 2 ^ 48 + t.trapCause.toNat % 256 * 2 ^ 40 + t.sfq.length % 16 * 256 + t.roundMode.toNat % 8 * 16
    + kind % 4 * 4 + (t.cap.mode != CapMode.none).toNat * 2 + 1

/-- A doubleword of a strand's context record (R202), by its offset; the tile area lies with the core. -/
def ctxWord (t : Strand) (kind saved off : Nat) : Nat :=
  let i := off / 8
  let sf := fun (f : SfRec → Word) (n : Nat) => match t.sfq[n]? with | some r => (f r).toNat | none => 0
  if off < 0x1C0 then (t.reg i).val.toNat
  else if off < 0x1E0 then (t.y.toList.getD (i - 0x38) 0).toNat
  else if off < 0x220 then (t.e.toList.getD (i - 0x3C) 0).toNat
  else if off < 0x2A0 then (t.m.toList.getD ((i - 0x44) / 2) 0).toNat / 2 ^ (64 * ((i - 0x44) % 2)) % 2 ^ 64
  else if off = 0x2A0 then bitsNat ((List.range 56).map (fun n => (t.reg n).full))
  else if off = 0x2A8 then bitsNat ((List.range 32).map (fun n => (t.vreg n).full))
  else if off = 0x2B0 then bitsNat ((List.range 56).map (fun n => (t.reg n).tag.isSome))
  else if off = 0x2B8 then bitsNat ((List.range 32).map (fun n => (t.vreg n).tag.isSome))
  else if off = 0x2C0 then t.pc.toNat / 2 * 2
  else if off = 0x2C8 then t.status.toNat
  else if off = 0x2D0 then t.trapVector.toNat
  else if off = 0x2D8 then t.trapPc.toNat
  else if off = 0x2E0 then t.trapInfo.toNat
  else if off = 0x2E8 then t.overflowPtr.toNat
  else if off = 0x2F0 then ctxState t kind
  else if off = 0x2F8 then saved % 2 ^ 48
  else if off < 0x3C0 then
    let n := (i - 0x60) / 3
    match (i - 0x60) % 3 with
    | 0 => sf (·.addr) n
    | 1 => sf (·.data) n
    | _ => sf (·.info) n
  else if off < 0x400 then 0
  else if off < 0x1400 then (t.vreg ((i - 0x80) / 16)).val.toNat / 2 ^ (64 * ((i - 0x80) % 16)) % 2 ^ 64
  else 0

/-- 64 bits of a row set. -/
def rowPut (r : Row) (k : Nat) (v : Word) : Row :=
  BitVec.ofNat 1024 (blend r.toNat (v.toNat * 2 ^ (64 * k)) ((2 ^ 64 - 1) * 2 ^ (64 * k)))

/-- 64 bits of a mask set. -/
def maskPut (r : BitVec 128) (k : Nat) (v : Word) : BitVec 128 :=
  BitVec.ofNat 128 (blend r.toNat (v.toNat * 2 ^ (64 * k)) ((2 ^ 64 - 1) * 2 ^ (64 * k)))

/-- A tag bit written: a tag that is set anew carries a free value. -/
def tagPut (g : Option Tag) (b : Bool) (free : Word) : Option Tag :=
  match g, b with
  | _, false => none
  | some x, true => some x
  | none, true => some ⟨free.toNat % 256, free⟩

/-- A bit of a value for each of a strand's g and k registers. -/
def Strand.eachReg (t : Strand) (v : Word) (f : Bool → Reg → Reg) : Strand :=
  (List.range 56).foldl (fun (t : Strand) n => t.onReg n (f (v.getLsbD n))) t

/-- A bit of a value for each of a strand's v registers. -/
def Strand.eachV (t : Strand) (v : Word) (f : Bool → VReg → VReg) : Strand :=
  (List.range 32).foldl (fun (t : Strand) n => t.onV n (f (v.getLsbD n))) t

/-- A write of a doubleword of STRAND (R427): G, K, Y, E, M, V, PC, STATUS, FULL and TAG take it; every other
offset ignores it. -/
def ctxWrite (t : Strand) (off : Nat) (v free : Word) : Strand :=
  let i := off / 8
  if off < 0x1C0 then t.onReg i (fun r => { r with val := v })
  else if off < 0x1E0 then { t with y := Vector.ofFn (fun k : Fin 4 => if k.val = i - 0x38 then v else t.y[k]) }
  else if off < 0x220 then { t with e := Vector.ofFn (fun k : Fin 8 => if k.val = i - 0x3C then v else t.e[k]) }
  else if off < 0x2A0 then
    { t with m := Vector.ofFn (fun k : Fin 8 =>
        if k.val = (i - 0x44) / 2 then maskPut t.m[k] ((i - 0x44) % 2) v else t.m[k]) }
  else if off = 0x2A0 then t.eachReg v (fun b r => { r with full := b })
  else if off = 0x2A8 then t.eachV v (fun b r => { r with full := b })
  else if off = 0x2B0 then t.eachReg v (fun b r => { r with tag := tagPut r.tag b free })
  else if off = 0x2B8 then t.eachV v (fun b r => { r with tag := tagPut r.tag b free })
  else if off = 0x2C0 then { t with pc := (pcBits v).setWidth 48 }
  else if off = 0x2C8 then { t with status := v &&& 0x11F }
  else if off < 0x400 then t
  else if off < 0x1400 then t.onV ((i - 0x80) / 16) (fun r => { r with val := rowPut r.val ((i - 0x80) % 16) v })
  else t

/-! ### The annex (R203) -/

/-- CAP_STATE (R203). -/
def Capsule.annexWord (c : Capsule) : Nat :=
  match c.mode with
  | .none => 0
  | m => c.ticket % 2 ^ 32 * 2 ^ 32 + c.dA % 64 * 2 ^ 16 + c.idx % 16 * 256 + c.viaCapa.toNat * 16 + (if m = .opened then 1 else 2)

/-- A doubleword of a strand's annex, by its number (R203). -/
def annexWord (t : Strand) (i : Nat) : Nat :=
  match i with
  | 0 => bitsNat ((List.range 8).map (fun n => (t.reg (48 + n)).mark)) + 2 ^ 8 * bitsNat ((List.range 32).map (fun n => (t.vreg n).mark))
      + 2 ^ 40 * t.audx.toNat
  | 1 => if t.cap.mode = .none then 0 else t.cap.l % 2 ^ 52
  | 2 => t.cap.annexWord
  | 3 => if t.cap.mode = .none then 0 else t.cap.ret.toNat / 2 * 2
  | 4 => t.tickets % 65536 + t.posted % 65536 * 65536
  | 5 => t.acks.toNat
  | _ => 0

/-! ### Writing and reading back -/

/-- Doublewords as one value, the first lowest. -/
def joinWords : List Nat → Nat
  | [] => 0
  | w :: ws => w + 2 ^ 64 * joinWords ws

/-- The doublewords of a record with its annex: 640 and 8. -/
def ctxImage (t : Strand) (kind at' : Nat) (tiles : List Word) : List Nat :=
  (List.range 640).map (fun i =>
    if 0x78 ≤ i ∧ i < 0x80 then (tiles.getD (i - 0x78) 0).toNat else ctxWord t kind at' (8 * i))
  ++ (List.range 8).map (annexWord t)

/-- The capsule state that an annex holds (R203); the step's count and its buffer are not kept. -/
def Capsule.ofAnnex (c : Capsule) (l st ret : Nat) : Capsule :=
  if st % 4 = 0 then { }
  else
    { c with
      mode := if st % 4 = 1 then .opened else .displaced, l := l, ticket := st / 2 ^ 32, dA := st / 2 ^ 16 % 64
      idx := st / 256 % 16, viaCapa := st / 16 % 2 == 1, ret := BitVec.ofNat 48 ret }

/-- A store-fault record of a context record (R202). -/
def sfOf (w : Nat → Word) (n : Nat) : SfRec :=
  ⟨w (0x300 + 24 * n), w (0x308 + 24 * n), w (0x310 + 24 * n)⟩

/-- A strand with what a record and its annex hold, by offset (R202, R203); the rest the slot and the launch fix. -/
def Strand.fromCtx (t : Strand) (w : Nat → Word) : Strand :=
  let st := (w 0x2F0).toNat
  let marks := w 0x1400
  { t with
    gk := Vector.ofFn (fun n : Fin 56 =>
      { t.gk[n] with
        val := w (8 * n.val), full := (w 0x2A0).getLsbD n.val, tag := tagPut t.gk[n].tag ((w 0x2B0).getLsbD n.val) 0
        mark := if 48 ≤ n.val then marks.getLsbD (n.val - 48) else t.gk[n].mark })
    v := Vector.ofFn (fun n : Fin 32 =>
      { t.v[n] with
        val := BitVec.ofNat 1024 (joinWords ((List.range 16).map (fun i => (w (0x400 + 128 * n.val + 8 * i)).toNat)))
        full := (w 0x2A8).getLsbD n.val, tag := tagPut t.v[n].tag ((w 0x2B8).getLsbD n.val) 0, mark := marks.getLsbD (8 + n.val) })
    y := Vector.ofFn (fun n : Fin 4 => w (0x1C0 + 8 * n.val))
    e := Vector.ofFn (fun n : Fin 8 => w (0x1E0 + 8 * n.val))
    m := Vector.ofFn (fun n : Fin 8 => BitVec.ofNat 128 ((w (0x220 + 16 * n.val)).toNat + 2 ^ 64 * (w (0x228 + 16 * n.val)).toNat))
    pc := (pcBits (w 0x2C0)).setWidth 48, status := w 0x2C8, trapVector := w 0x2D0, trapPc := w 0x2D8, trapInfo := w 0x2E0
    overflowPtr := w 0x2E8, seq := st / 2 ^ 48, trapCause := BitVec.ofNat 64 (st / 2 ^ 40 % 256)
    roundMode := BitVec.ofNat 64 (st / 16 % 8), sfq := (List.range (min 8 (st / 256 % 16))).map (sfOf w)
    audx := marks.getLsbD 40
    cap := t.cap.ofAnnex (w 0x1408).toNat (w 0x1410).toNat (w 0x1418).toNat
    tickets := t.tickets / 65536 * 65536 + (w 0x1420).toNat % 65536, posted := (w 0x1420).toNat / 65536 % 65536
    acks := w 0x1428 }

/-- Where record `n` of a die lies in its HBM. -/
def ctxKey (d n : Nat) : Nat := hbmKey d 0 (ctxBase + ctxStride * n)

/-- The lowest number of a record that is in use for no strand and no tile table of a die, after those given. -/
def State.freeCtx (s : State) (d : Nat) (taken : List Nat) : Nat :=
  let used := taken ++ (s.saved.filter (fun v => dieOf v.t.core == d)).map (·.record)
    ++ (s.savedTiles.filter (fun x => dieOf x.core == d)).flatMap (·.recs)
  ((List.range (used.length + 1)).find? (fun n => !used.contains n)).getD 0

/-- The tile entries that the record of a slot holds (R201). -/
def tilesOf (l : List Word) (slot : Nat) : List Word := (l.drop (8 * slot)).take 8

/-- A strand's record and annex written (R202, R203). -/
def State.writeCtx (s : State) (t : Strand) (swap : Bool) (n : Nat) (tiles : List Word) : State :=
  { s with hbm := Mem.write s.hbm (ctxKey (dieOf t.core) n) 5184 (joinWords (ctxImage t swap.toNat s.timeNs tiles)) }

/-- The tile entries of a record, with VALID = 0 where it holds no strand (R201). -/
def State.writeTilesCtx (s : State) (core n : Nat) (tiles : List Word) : State :=
  let v := joinWords (tiles.map (·.toNat))
  let k := ctxKey (dieOf core) n
  if s.saved.any (fun x => x.record == n && dieOf x.t.core == dieOf core) then
    { s with hbm := Mem.write s.hbm (k + 0x3C0) 64 v }
  else { s with hbm := Mem.write s.hbm (k + 0x2F0) 272 (v * 2 ^ (8 * 208)) }

/-- A saved strand as its record gives it back (R201 to R203). -/
def State.readCtx (s : State) (v : Saved) : Strand :=
  v.t.fromCtx (fun off => BitVec.ofNat 64 (Mem.read s.hbm (ctxKey (dieOf v.t.core) v.record + off) 8))

/-- The records that the tile table of a launch's team on a core lies in: those it has, or four free ones. -/
def State.tileRecs (s : State) (core launch : Nat) : List Nat :=
  match s.savedTiles.find? (fun x => x.core == core && x.launch == launch) with
  | some x => x.recs
  | none => (List.range 4).foldl (fun (l : List Nat) _ => l ++ [s.freeCtx (dieOf core) l]) []

/-- The tile table of a displaced team put with its records (R201). -/
def State.saveTiles (s : State) (core launch : Nat) (recs : List Nat) : State :=
  let tiles := (s.core core).tiles
  { s with savedTiles := { core := core, launch := launch, tiles := tiles, recs := recs }
      :: s.savedTiles.filter (fun x => !(x.core == core && x.launch == launch)) }

/-- The tile entries of a displaced team as its records give them back (R201). -/
def State.readTiles (s : State) (x : SavedTiles) : List Word :=
  x.recs.flatMap (fun n => (List.range 8).map (fun i =>
    BitVec.ofNat 64 (Mem.read s.hbm (ctxKey (dieOf x.core) n + 0x3C0 + 8 * i) 8)))

end Sys2Proof.Machine
end

