-- ==== Sys2Proof/Machine/Debug.lean ====
section
/-! DEFINITION. The debug module of a cluster (R426 to R431, R433): halting, resuming and stepping, the state of a
halted strand, BKPT, and the trace ring's own records (R434 to R439). -/

namespace Sys2Proof.Machine

/-! ### Strands of a cluster -/

/-- A change of every strand in a slot that `p` picks. -/
def State.onSlots (s : State) (p : Strand → Bool) (f : Strand → Strand) : State :=
  { s with cur := if s.cur.live && p s.cur then f s.cur else s.cur, strands := mapIf p f s.strands }

/-- Whether a strand is in a cluster. -/
def Strand.inCluster (c : Nat) (t : Strand) : Bool := Machine.inCluster c t.core

/-- Core `k` of a cluster, 8 * (y mod 8) + (x mod 8) (R13, R426). -/
def clusterCore (c k : Nat) : Nat :=
  64 * (32 * (c / 32) + 8 * (c % 16 / 4) + k / 8 % 8) + 32 * (c / 16 % 2) + 8 * (c % 4) + k % 8

/-! ### Halting (R428, R429) -/

/-- A cluster is to halt: its strands stop at their next boundaries, and its octets' engines stop. -/
def State.haltCluster (s : State) (c : Nat) : State :=
  (s.onSlots (fun t => t.inCluster c && t.run != RunState.halted) (fun t => { t with haltReq := true })).onCluster c
    (fun x => { x with frozen := true, frozenAt := if x.frozen then x.frozenAt else s.timeNs })

/-- The cross-trigger network carries a cluster's halt, or its resumption, to the clusters with XT_IN = 1. -/
def State.driveNet (s : State) (c : Nat) (halt : Bool) : State :=
  if (s.cluster c).dbgCtl.getLsbD 1 then
    let cs := (List.range 64).filter (fun d => d != c && (s.cluster d).dbgCtl.getLsbD 2)
    { s with xtNet := s.xtNet ++ cs.map (fun d => (d, halt)) }
  else s

/-- A strand halts at its boundary (R395 step 2, R431), with a HALT record. -/
def State.haltStrand (s : State) (cause : Nat) : State :=
  let s1 := s.traceRecord 4 s.cur.core s.cur.slot (haltPayload cause s.cur.pc)
  s1.onCur (fun t =>
    { t with before := t.run, run := RunState.halted, haltReq := false, stepReq := false, haltAt := s.timeNs })

/-- A strand that has issued its one instruction halts (R430). -/
def State.haltQuietly (s : State) : State :=
  s.onCur (fun t =>
    { t with before := t.run, run := RunState.halted, quietHalt := false, stepReq := false, haltAt := s.timeNs })

/-- BKPT and C.BKPT (R55, R431): with breakpoint halting armed the strand halts at its own address, and its
cluster with it; else the trap BREAKPOINT, as in a drover core, which is in no cluster (R14). -/
def bkptOp (s : State) : Host.Outcome State Fault Refusal :=
  issue s { } (fun _ =>
    let c := clusterOf s.cur.core
    if s.cur.core < 4096 ∧ (s.cluster c).dbgCtl.getLsbD 0 = true then .next (((s.haltStrand 0x0D).haltCluster c).driveNet c true)
    else trap s Cause.breakpoint 0)

/-- BKPT (R55). -/
def execBkpt (s : State) : Host.Outcome State Fault Refusal := bkptOp s

/-- C.BKPT (R37, R55). -/
def execCBkpt (s : State) : Host.Outcome State Fault Refusal := bkptOp s

/-! ### Resuming (R429, R430) -/

/-- The earliest halt of the strands that `p` picks and that are halted. -/
def State.haltedSince (s : State) (p : Strand → Bool) : Option Nat :=
  ((s.all.filter (fun t => t.run == RunState.halted && p t)).map (·.haltAt)).min?

/-- A time `t0` from which a limit counts, moved past the span in which the count stood still: from `old` to
`new`. -/
def pushTime (old new t0 : Nat) : Nat := t0 + (new - max old t0)

/-- The count that stood still while strands that `p` picks were halted runs on (R429): DRAIN_LIMIT of their
launches. `s` is the state before they resume, `s1` the state after. -/
def State.pushLimits (s s1 : State) (ts : List Strand) : State :=
  let span := fun (p : Strand → Bool) =>
    match s.haltedSince p with
    | none => (s.timeNs, s.timeNs)
    | some a => (a, (s1.haltedSince p).getD s.timeNs)
  let oneLaunch := fun (s : State) (l : Nat) =>
    let r := span (fun t => t.launch == l)
    { s with
      holds := s.holds.map (fun (h : Hold) => if h.launch == l then { h with drained := h.drained.map (pushTime r.1 r.2) } else h)
      launches := s.launches.map (fun (x : Launch) => if x.id == l then { x with endAt := pushTime r.1 r.2 x.endAt } else x) }
  ((ts.map (·.launch)).eraseDups).foldl oneLaunch s1

/-- A halted strand returns to the state it halted from, and fetches anew (R430). -/
def Strand.unhalt (t : Strand) : Strand := { t with run := t.before, before := RunState.run, haltReq := false, quietHalt := false, fetchBuf := none }

/-- The strands that `p` picks resume. -/
def State.resumeStrands (s : State) (p : Strand → Bool) : State :=
  let q := fun (t : Strand) => t.run == RunState.halted && !t.stopped && p t
  s.pushLimits (s.onSlots q Strand.unhalt) (s.all.filter q)

/-- A cluster resumes (R430): its halted strands, and its engines; the deadlines of its samples stood still. -/
def State.resumeCluster (s : State) (c : Nat) : State :=
  let f := s.cluster c
  let s1 := (s.resumeStrands (Strand.inCluster c)).onSlots (Strand.inCluster c) (fun t => { t with haltReq := false })
  let push := fun (x : Sample) =>
    if f.frozen && clusterOf x.core == c then { x with doneAt := x.doneAt.map (pushTime f.frozenAt s.timeNs) } else x
  { (s1.onCluster c (fun x => { x with frozen := false })) with samples := s1.samples.map push }

/-! ### The registers (R426) -/

/-- The core and slot that DBG_SEL selects. -/
def State.dbgSelected (s : State) (c : Nat) : Nat × Nat :=
  let v := (s.cluster c).dbgSel.toNat
  (clusterCore c (v % 64), v / 64 % 4)

/-- Whether the debug module of a cluster runs: it shares the cluster's power state (R134). DESIGN CHOICE (log entry 59): the
manual gives no result of an access to one that does not, so a write has no effect and a read finds a free value. -/
def State.moduleRuns (s : State) (c : Nat) : Bool := (s.cluster c).power == 0

/-- A write of DBG_CTL: its lower bits, then HALT, RESUME and STEP. -/
def State.writeDbgCtl (s : State) (c : Nat) (v : Word) : State :=
  if !s.moduleRuns c then s
  else
  let s1 := s.onCluster c (fun x => { x with dbgCtl := v &&& 7 })
  let s2 := if v.getLsbD 8 then (s1.haltCluster c).driveNet c true else s1
  let s3 := if v.getLsbD 9 then (s2.resumeCluster c).driveNet c false else s2
  if v.getLsbD 10 then
    let k := s3.dbgSelected c
    let p := fun (t : Strand) => t.core == k.1 && t.slot == k.2
    let ready := s3.all.any (fun t => p t && t.run == RunState.halted && !t.stopped)
    if ready then (s3.resumeStrands p).onSlots p (fun t => { t with stepReq := true }) else s3
  else s3

/-- DBG_HALT (R428): a write of DBG_CTL with HALT = 1. Pick 0 is the cluster, pick 1 the rest of the value. -/
def execDbgHalt (s : State) : Host.Outcome State Fault Refusal :=
  .next (s.writeDbgCtl (s.arg 0) (BitVec.ofNat 64 (s.arg 1) ||| 0x100))

/-- DBG_RESUME (R430): a write of DBG_CTL with RESUME = 1. Picks as DBG_HALT. -/
def execDbgResume (s : State) : Host.Outcome State Fault Refusal :=
  .next (s.writeDbgCtl (s.arg 0) (BitVec.ofNat 64 (s.arg 1) ||| 0x200))

/-- DBG_STEP (R430): a write of DBG_CTL with STEP = 1. Picks as DBG_HALT. -/
def execDbgStep (s : State) : Host.Outcome State Fault Refusal :=
  .next (s.writeDbgCtl (s.arg 0) (BitVec.ofNat 64 (s.arg 1) ||| 0x400))

/-- CROSS_TRIGGER (R428, R430): the network halts or resumes a cluster that still has XT_IN = 1. Pick 0 is the
cluster. -/
def execCrossTrigger (s : State) : Host.Outcome State Fault Refusal :=
  match s.xtNet.find? (fun x => x.1 == s.arg 0) with
  | none => .next s
  | some x =>
    let s1 := { s with xtNet := s.xtNet.erase x }
    if !(s.cluster x.1).dbgCtl.getLsbD 2 then .next s1
    else if x.2 then .next (s1.haltCluster x.1)
    else .next (s1.resumeCluster x.1)

/-! ### The state of a halted strand (R202, R427) -/

/-- A doubleword of a halted strand's record (R202, R427), with the tile-table entries of its slot. -/
def State.strandWord (s : State) (t : Strand) (off : Nat) : Nat :=
  if 0x3C0 ≤ off ∧ off < 0x400 then ((s.core t.core).tiles.getD (8 * t.slot + (off - 0x3C0) / 8) 0).toNat
  else ctxWord t 0 t.haltAt off

/-- What a read of the module finds (R426, R427). -/
def State.dbgRead (s : State) (c off : Nat) : Nat :=
  let x := s.cluster c
  let k := s.dbgSelected c
  if !s.moduleRuns c then (Config.freeWord (s.tick + off / 8)).toNat
  else if off = 0x000 then x.dbgCtl.toNat
  else if off = 0x008 then (x.frozen && s.all.all (fun t => !t.inCluster c || t.run == RunState.halted)).toNat
  else if off = 0x010 then x.dbgSel.toNat
  else if off = 0x018 then x.traceCtl.toNat
  else if off = 0x020 then x.traceBase.toNat
  else if off = 0x028 then x.traceSize.toNat
  else if 0x800 ≤ off ∧ off < 0x1C00 then
    match s.bySlot k.1 k.2 with
    | some t => if t.run = .halted then s.strandWord t (off - 0x800) else 0
    | none => 0
  else 0

/-- A size that TRACE_SIZE takes: a power of two from 64 to 2^24. -/
def traceSizeOk (v : Nat) : Bool := (List.range 19).any (fun i => v == 2 ^ (i + 6))

/-- A PROFILE record's words (R436). -/
def profilePayload (p : ProfE) : List Word :=
  let cut := fun (n : Nat) => BitVec.ofNat 64 (min n (2 ^ 63 - 1))
  [BitVec.ofNat 64 (p.count * 65536 + p.sender), cut p.transit, cut p.wait, cut p.run]

/-- DUMP (R434, R439): a PROFILE record of every entry in use, by core and then by entry. -/
def State.dump (s : State) (c : Nat) : State :=
  (List.range 64).foldl (fun (s : State) k =>
    let core := clusterCore c k
    (s.profiles.filter (fun p => p.1 == core && p.2.count != 0)).foldl (fun (s : State) p =>
      s.traceRecord 6 core 0 (profilePayload p.2)) s) s

/-- TRACE_DUMP (R434): a write of TRACE_CTL with DUMP = 1. Pick 0 is the cluster, pick 1 the rest of the
value. -/
def execTraceDump (s : State) : Host.Outcome State Fault Refusal :=
  let c := s.arg 0
  if !s.moduleRuns c then .next s
  else .next ((s.onCluster c (fun x => { x with traceCtl := BitVec.ofNat 64 (s.arg 1) &&& 0x1F3F })).dump c)

/-- A write of the module's register or STRAND doubleword at an offset (R426, R427, R434). -/
def State.dbgWrite (s : State) (c off : Nat) (v : Word) : State :=
  if !s.moduleRuns c then s
  else if off = 0x000 then s.writeDbgCtl c v
  else if off = 0x010 then s.onCluster c (fun x => { x with dbgSel := v &&& 0xFF })
  else if off = 0x018 then
    let s1 := s.onCluster c (fun x => { x with traceCtl := v &&& 0x1F3F })
    if v.getLsbD 16 then s1.dump c else s1
  else if off = 0x020 then s.onCluster c (fun x => { x with traceBase := v &&& 0x000FFFFFFFFFFFC0 })
  else if off = 0x028 then
    if traceSizeOk v.toNat then s.onCluster c (fun x => { x with traceSize := v }) else s
  else if 0x800 ≤ off ∧ off < 0x1C00 then
    let k := s.dbgSelected c
    { s.onSlots (fun t => t.core == k.1 && t.slot == k.2 && t.run == RunState.halted)
        (fun t => ctxWrite t (off - 0x800) v s.freeWord) with tick := s.tick + 1 }
  else s

/-! ### The windows (R112, R274 step 0, R426) -/

/-- Where the debug-module windows and the parameter windows of a die begin. -/
def dbgBase : Nat := 0x3FFFFFFF00000
def paramWindow : Nat := 0x3FFFFFFC00000

/-- The cluster whose debug module an address names. -/
def dbgCluster (a : Nat) : Nat := 16 * ownerOf a + (a % 2 ^ 50 - dbgBase) / 0x2000

/-- What an access of a drover core to `n` bytes of a window, within one doubleword, reads there, untranslated. -/
def State.windowRead (s : State) (a n : Nat) : Nat :=
  let off := a % 2 ^ 50
  if dbgBase ≤ off then s.dbgRead (dbgCluster a) (off % 0x2000 / 8 * 8) / 256 ^ (off % 8) % 256 ^ n
  else
    match s.launches.find? (fun l => l.slot == (off - paramWindow) / 0x10000 && l.stage != .over) with
    | some l => l.paramRead (off % 0x10000) n
    | none => 0

/-- A store of a drover core to a window: of a debug module; a parameter block is a read-only copy (R112). -/
def State.windowWrite (s : State) (a v mask : Nat) : State :=
  let off := a % 2 ^ 50
  if dbgBase ≤ off then
    let c := dbgCluster a
    let o := off % 0x2000 / 8 * 8
    s.dbgWrite c o (BitVec.ofNat 64 (blend (s.dbgRead c o) (v * 256 ^ (off % 8)) (mask * 256 ^ (off % 8))))
  else s

/-- DBG_STRAND_WRITE (R426, R427): the drover core writes a doubleword of the module, of STRAND or a register.
Pick 0 is the cluster, pick 1 the offset, pick 2 the value. -/
def execDbgStrandWrite (s : State) : Host.Outcome State Fault Refusal :=
  .next (s.dbgWrite (s.arg 0) (s.arg 1 / 8 * 8) (BitVec.ofNat 64 (s.arg 2)))

/-- TRACE_SAMPLE (R434, R436): at a sampling instant, a SAMPLE record of each RUN strand of the next core. Pick 0
is the cluster. -/
def execTraceSample (s : State) : Host.Outcome State Fault Refusal :=
  let c := s.arg 0
  let x := s.cluster c
  let p := x.traceCtl.toNat / 256 % 32
  let now := s.cycles / 2 ^ p * 2 ^ p
  if s.moduleRuns c = false ∨ p < 10 ∨ 24 < p ∨ now ≤ x.lastSample then .next s
  else
    let core := clusterCore c x.sampleCore
    let ts := [0, 1, 2, 3].filterMap (fun n => s.bySlot core n)
    let s1 := s.onCluster c (fun x => { x with sampleCore := (x.sampleCore + 1) % 64, lastSample := now })
    .next (ts.foldl (fun (s : State) t =>
      if t.run = RunState.run then s.traceRecord 2 core t.slot [BitVec.ofNat 64 (t.pc.toNat / 2)] else s) s1)

end Sys2Proof.Machine
end

