-- ==== Sys2Proof/Machine/Order.lean ====
section
/-! DEFINITION. The memory model (R315 to R328): fences, DRAINST and ICINV, the steps by which posted
stores, loads and N-space accesses are performed, and store-fault records (R400 to R403). -/

namespace Sys2Proof.Machine

/-! ### Fences -/

/-- The instruction that issues has not met its condition: it is tested again the next time its strand is
chosen (R395). -/
def again (s : State) (n : Nat) : Host.Outcome State Fault Refusal :=
  let since := if s.cur.wait.kind = .again then s.cur.wait.since else s.cycles
  .next { s.onCur (fun t => { t with wait := { kind := .again, n := n, since := since } }) with stalled := true }

/-- Whether the strand's release at a scope is complete, and no earlier posted operation of it can still fail: each has been
applied, and every fault record has arrived (R323, R327, R404). -/
def State.released (s : State) (scope : Nat) : Bool :=
  s.releaseReady s.cur.uid s.nextUid scope s.cur.core
    && !s.stores.any (fun x => x.strand == s.cur.uid && x.ord < s.nextUid && !x.done)
    && !s.faultMsgs.any (fun f => f.strand == s.cur.uid)

/-- Whether every earlier load and atomic of the strand has returned (R324). -/
def State.returned (s : State) : Bool := !s.pends.any (fun p => p.strand == s.cur.uid && p.op.isAccess)

/-- The markers of a refresh, one to each other die (R326). -/
def State.sendMarkers (s : State) : State :=
  let d := dieOf s.cur.core
  let ms := ([0, 1, 2, 3].filter (· != d)).map (fun o => { strand := s.cur.uid, src := d, dst := o : Marker })
  { s with markers := s.markers ++ ms }

/-- Whether a marker's die has applied every write the owner had performed before the marker (R326). -/
def State.markerDone (s : State) (m : Marker) : Bool :=
  match m.pos with
  | none => false
  | some p => !s.updates.any (fun u => u.die == m.src && ownerOf u.addr == m.dst && u.pos < p)

/-- What a release fence at package or system scope has released goes with the strand's later H stores (R325). -/
def Strand.fenced (t : Strand) (rel : Bool) (scope : Nat) (c : List Nat) : Strand :=
  if rel && decide (4 ≤ scope) then { t with relClock := c } else t

/-- FENCE (R326): the release, then the acquire, which at package and system scope refreshes the die view;
an acquire discards the fetch buffer (R432). -/
def fenceOp (rel acq : Bool) (scope : Nat) (s : State) : Host.Outcome State Fault Refusal :=
  issue s { } (fun s' =>
    if s.cur.wait.kind = .again ∧ s.cur.wait.n = 1 then
      let mine := s.markers.filter (fun m => m.strand == s.cur.uid)
      if mine.all s.markerDone then
        finish ({ s' with markers := s'.markers.filter (fun m => m.strand != s.cur.uid) }.sliceAcquire s.cur.core s.cur.uid) 4
          (fun t => { t.fenced rel scope (s.die (dieOf s.cur.core)).clock with wait := { }, fetchBuf := none })
      else again s 1
    else if rel && !s.released scope then again s 0
    else if acq && !s.returned then again s 0
    else if acq && decide (4 ≤ scope) then again s.sendMarkers 1
    else if acq then
      finish (s'.sliceAcquire s.cur.core s.cur.uid) 4 (fun t => { t.fenced rel scope (s.die (dieOf s.cur.core)).clock with wait := { }, fetchBuf := none })
    else finish s' 4 (fun t => { t.fenced rel scope (s.die (dieOf s.cur.core)).clock with wait := { } }))

/-- FENCE.acq (R326). -/
def execFenceAcq (scope : BitVec 6) (s : State) : Host.Outcome State Fault Refusal :=
  fenceOp false true scope.toNat s

/-- FENCE.rel (R326). -/
def execFenceRel (scope : BitVec 6) (s : State) : Host.Outcome State Fault Refusal :=
  fenceOp true false scope.toNat s

/-- FENCE.full (R326). -/
def execFenceFull (scope : BitVec 6) (s : State) : Host.Outcome State Fault Refusal :=
  fenceOp true true scope.toNat s

/-- DRAINST (R67, R328). -/
def execDrainst (s : State) : Host.Outcome State Fault Refusal :=
  issue s { } (fun s' =>
    if s.drained s.cur.uid then finish s' 4 (fun t => { t with wait := { } }) else again s 0)

/-! ### ICINV -/

/-- ICINV (R68): the strand stalls until every invalidation in scope is acknowledged; a length of 0 has no
effect. -/
def execIcinv (scope : BitVec 6) (x : AB) (s : State) : Host.Outcome State Fault Refusal :=
  issue s { fields := [.s x.a x.pa 14, .s x.b x.pb 21] } (fun s' =>
    let a := (s.cur.val x.a).toNat
    let n := (s.cur.val x.b).toNat
    if n = 0 then finish s' 4 (fun t => t)
    else
      .next ({ s' with
        icinvs := s'.icinvs ++ [(s.cur.uid, scope.toNat, a / 64, (a + n - 1) / 64 - a / 64 + 1)] }.await .icinv
          s.cur.uid 4))

/-- Whether a core lies in the scope of an ICINV: 2 the cluster, 3 the die, 4 the package. -/
def inScope (scope from' core : Nat) : Bool :=
  match scope with
  | 2 => clusterOf from' == clusterOf core
  | 3 => dieOf from' == dieOf core
  | _ => true

/-- As `inScope`, of a cluster. -/
def clusterInScope (scope from' c : Nat) : Bool :=
  match scope with
  | 2 => clusterOf from' == c
  | 3 => dieOf from' == dieOfCluster c
  | _ => true

/-- The instruction copies of a range of lines, gone within a scope (R68). -/
def State.invalidate (s : State) (core scope first n : Nat) : State :=
  let hit := fun (e : ILine) => first ≤ e.line && e.line < first + n
  { s with
    icache := s.icache.filter (fun e => !(hit e && inScope scope core e.owner))
    islices := s.islices.filter (fun e => !(hit e && clusterInScope scope core e.owner)) }

/-- Whether a posted store of a strand, or a write-back of its slice bytes, is not yet performed at its own point and at the
point of an ICINV's scope (R432). -/
def Store.beforeIcinv (x : Store) (u scope : Nat) : Bool :=
  (x.strand == u || x.agents.contains u) && x.origin != .sth
    && (x.stage == .issued || x.stage == .sent && (decide (4 ≤ x.scope) || scope == 4))

/-- ICINV_ACKNOWLEDGEMENT (R68, R432): once every earlier posted store of the strand has been performed at
the point of the ICINV's scope, the lines are invalidated and the strand goes on. Pick 0 is the core, pick
1 the slot. -/
def execIcinvAcknowledgement (s : State) : Host.Outcome State Fault Refusal :=
  match s.bySlot (s.arg 0) (s.arg 1) with
  | none => .next s
  | some t =>
    match s.icinvs.find? (fun x => x.1 == t.uid) with
    | none => .next s
    | some x =>
      if s.stores.any (fun y => y.beforeIcinv t.uid x.2.1) || decide (3 ≤ x.2.1) && !s.writtenBack t.uid then .next s
      else
        .next ((({ s with icinvs := s.icinvs.filter (fun y => y.1 != t.uid) }).invalidate t.core x.2.1 x.2.2.1
          x.2.2.2).onUid t.uid Strand.wake)

/-! ### Slices -/

/-- Bytes put into a cluster's slice (R317), the bits that the write enables (R246); a byte that is dirty there already stays
one of its earlier writers' too, whose releases wait for it (R323). -/
def State.sliceWrite (s : State) (c launch : Nat) (agents : List Nat) (posts : List Post) (a : Nat) (v mask : Nat) :
    List Nat → State
  | [] => s
  | _ :: ks =>
    let old := s.slices.filter (fun y => y.cluster == c && y.addr == a)
    let was := match old with | y :: _ => (y.val.toNat, y.mask.toNat) | [] => (0, 0)
    let x : SliceByte :=
      { cluster := c, addr := a, val := BitVec.ofNat 8 (blend was.1 (v % 256) (mask % 256)), mask := BitVec.ofNat 8 (was.2 ||| mask % 256)
        launches := (launch :: old.flatMap (·.launches)).eraseDups, agents := (agents ++ old.flatMap (·.agents)).eraseDups
        readers := old.flatMap (·.readers), posts := (posts ++ old.flatMap (·.posts)).eraseDups }
    State.sliceWrite
      (if mask % 256 = 0 then s else { s with slices := x :: s.slices.filter (fun y => !(y.cluster == c && y.addr == a)) })
      c launch agents posts (a + 1) (v / 256) (mask / 256) ks

/-- Whether a slice's write-back of a line stalls (R282). -/
def State.lineFrozen (s : State) (c line : Nat) : Bool :=
  match s.keys (s.reqOwner (128 * line)) .w (128 * line) 128 with
  | .ok ks => ownerOf (128 * line) == dieOfCluster c && s.mustStall 0 (s.ownerClass (128 * line)) (128 * line) ks
  | .error _ => false

/-- A cluster's slice of 8 MiB (R1) makes room for the lines of an access: the lines that it wrote longest ago are written
back. -/
def State.sliceRoom (s : State) (c a n : Nat) : State :=
  if s.slices.length < 65536 then s
  else
    let held := ((s.slices.filter (fun x => x.cluster == c)).map (fun x => x.addr / 128)).eraseDups
    let new := (linesOf a n).filter (fun l => !held.contains l)
    let out := (held.reverse.filter (fun l => !(linesOf a n).contains l && !s.lineFrozen c l)).take (held.length + new.length - 65536)
    out.foldl (fun (s : State) l => s.writeBack c l) s

/-- SLICE_WRITEBACK (R317): a slice writes a line back, by eviction or because a release waits for it. Pick
0 is the cluster, pick 1 the line. -/
def execSliceWriteback (s : State) : Host.Outcome State Fault Refusal :=
  if s.lineFrozen (s.arg 0) (s.arg 1) then .next s else .next (s.writeBack (s.arg 0) (s.arg 1))

/-! ### Posted stores -/

/-- Whether a store is not applied because another of the same posted operation or job fails: every piece of an access (R246,
R259), and of an MXDR or of a copy job the elements after it (R297, R304). -/
def Store.fallsWith (x y : Store) : Bool :=
  y.uid != x.uid
    && (if x.origin == .engine then x.job != 0 && y.origin == .engine && y.job == x.job && decide (x.uid ≤ y.uid)
        else y.origin != .engine && y.strand == x.strand && y.ord == x.ord && (x.origin != .mxdr || decide (x.uid ≤ y.uid)))

/-- What falls with a store that fails: of the rest of its access or job, what is issued is gone, and what is sent is refused by
its owner, with no further record; its job stops (R259, R297, R304). -/
def State.fallOthers (s : State) (x : Store) (cause : Nat) : State :=
  let stop := fun (j : Job) => if j.uid == x.job then { j with fault := some (j.fault.getD (cause, x.addr)), told := true } else j
  { s with
    stores := (s.stores.filter (fun y => !(x.fallsWith y && y.stage == .issued))).map (fun y =>
      if x.fallsWith y then { y with lost := true } else y)
    jobs := if x.job = 0 then s.jobs else s.jobs.map stop }

/-- A posted store that fails: it is not applied, and its record travels to its strand (R259, R400); of an MXDR, no element
after it is applied, and its job ends (R304). -/
def State.failStore (s : State) (x : Store) (cause : Nat) : State :=
  let s1 := s.fallOthers x cause
  ({ s1 with stores := s1.stores.filter (fun y => y.uid != x.uid) }).sendRecord x cause

/-- Whether an earlier access of the strand to a byte of these is not yet performed where the strand sees
it (R258, R322), the elements of its MXDRs included (R304). -/
def State.earlier (s : State) (strand uid a n : Nat) : Bool :=
  s.accessBefore strand uid a n || s.drainBefore strand uid a n

/-- The requester of a posted store. -/
def State.reqStore (s : State) (x : Store) : Req :=
  if x.origin == .engine && x.job == 0 then s.reqOwner x.addr
  else s.reqOf x.core x.launch x.sup (s.all.any (fun t => t.uid == x.strand && t.kind == .drover)) x.addr

/-- The keys of the whole access that a piece belongs to (R246), from those of the piece. -/
def Store.spanKeys (x : Store) (ks : List Nat) : List Nat := keysFrom (ks.headD 0 - (x.addr - x.base)) x.span

/-- The keys of a posted store, or the cause of its fault (R274). -/
def State.storeKeys (s : State) (x : Store) : Except Nat (List Nat) :=
  if x.own then .ok (((s.recKeys (x.addr / 128 * 128)).drop (x.addr % 128)).take x.size)
  else
    s.keys (if x.stage = .issued then s.reqStore x else { sup := true, cls := x.cls }) (if x.atomic.isSome then .rw else .w)
      x.addr x.size

/-- The cause for which a piece of a posted store fails now, if it does (R274, R417). -/
def State.pieceFault (s : State) (x : Store) : Option Nat :=
  match s.storeKeys x with
  | .error c => some c
  | .ok ks =>
    if (if x.atomic.isSome then s.uncorrectable ks else s.partialBad ks (x.spanKeys ks)) then some Cause.uncorrectable
    else none

/-- The cause for which the access that a piece belongs to fails now: a store that faults in one piece is not applied in any
(R259). -/
def State.accessFault (s : State) (x : Store) : Option Nat :=
  (s.stores.filter (fun y =>
    y.uid == x.uid || x.fallsWith y && x.origin != .mxdr && x.origin != .engine && y.stage == x.stage)).findSome? s.pieceFault

/-- The last piece of an access that covers whole units has encoded them afresh (R278). -/
def State.repairSpan (s : State) (x : Store) (ks : List Nat) : State :=
  if s.stores.any (fun y => y.uid != x.uid && y.strand == x.strand && y.ord == x.ord && y.stage != .applied) then s
  else s.repair (x.spanKeys ks)

/-- An issued store performed at the first point of its scope (R317): in the cluster's slice if it is plain and of team
or convoy scope, else in its die's view, from where it is sent to the owner. -/
def State.performIssued (s : State) (x : Store) : State :=
  let s := s.touch x.cls x.addr
  let d := dieOf x.core
  let s1 := { s with stores := s.stores.filter (fun y => y.uid != x.uid) }
  if inWindow x.addr && x.sup && (s.reqStore x).drover then s1.windowWrite x.addr x.val x.mask
  else
    match s.accessFault x, s.storeKeys x with
    | some c, .ok ks =>
      if x.origin != .engine || x.job != 0 then s.failStore x c
      else if s.mustStall x.arr x.cls x.addr ks then s.stallStore x
      else
        let r := s1.dropBad x ks
        (r.1.flushLines d x.addr x.size).performStore d r.2 ks
    | c, .error e => s.failStore x (c.getD e)
    | none, .ok ks =>
      if (x.scope = 1 ∨ x.scope = 2) ∧ x.rel = false ∧ x.core < 4096 then
        (s1.sliceRoom (clusterOf x.core) x.addr x.size).sliceWrite (clusterOf x.core) x.launch [x.strand] x.reports x.addr x.val
          x.mask ks
      else if ownerOf x.addr = d then
        (if s.mustStall x.arr x.cls x.addr ks then s.stallStore x
        else ((s1.flushLines d x.addr x.size).performStore d x ks).repairSpan x ks)
      else (s1.flushLines d x.addr x.size).performStore d x ks

/-- Whether every element before one of an MXDR, or before a write of a copy job, would be applied (R297, R304): otherwise the
first that fails is to be met first. -/
def State.elementsPass (s : State) (x : Store) : Bool :=
  x.origin != .mxdr && x.job == 0 || s.stores.all (fun y =>
    !(y.fallsWith x && y.stage != .applied && decide (y.uid < x.uid)) || (s.pieceFault y).isNone)

/-- Whether an atomic has its bytes in the units of an access. -/
def PendOp.atomicIn (o : PendOp) (a n : Nat) : Bool :=
  match o with
  | .atomic _ b m _ _ _ => decide (b / 8 ≤ (a + n - 1) / 8) && decide (a / 8 ≤ (b + m - 1) / 8)
  | _ => false

/-- Whether a posted operation is a packet to a location's owner: an atomic, or a G store that no slice takes. -/
def Store.toOwner (x : Store) : Bool :=
  x.origin != .sth && x.origin != .engine && (x.atomic.isSome || decide (3 ≤ x.scope) || x.rel)

/-- Whether an operation that a core injected before another, on one of the same 8-byte units, has not arrived at the owner: it
is performed first (R141, R336). -/
def State.injectedBefore (s : State) (core inj a n : Nat) : Bool :=
  let meets := fun (b m : Nat) => decide (b / 8 ≤ (a + n - 1) / 8) && decide (a / 8 ≤ (b + m - 1) / 8)
  s.pends.any (fun p => p.core == core && p.inj != 0 && p.inj < inj && p.op.atomicIn a n)
    || s.stores.any (fun x => x.core == core && x.inj != 0 && x.inj < inj && x.toOwner && x.stage != .applied
        && meets x.addr x.size)
    || s.waits.any (fun w => w.core == core && !w.arrived && w.uid < inj && meets w.addr 4)
    || s.syncs.any (fun q => q.core == core && !q.arrived && q.uid < inj && q.inFlight && meets q.l 128)

/-- Whether an issued store may be performed now: program order per byte (R322), the flow of its core's packets (R141), the
elements before it (R304), and for a release, its release (R323). -/
def State.mayPerform (s : State) (x : Store) : Bool :=
  x.stage == .issued && x.origin != .sth && x.atomic.isNone && !s.earlier x.strand x.ord x.addr x.size
    && !s.stores.any (fun y => y.strand == x.strand && y.ord == x.ord && y.uid < x.uid && y.stage == .issued
        && overlap y.addr y.size x.addr x.size)
    && !(x.toOwner && s.injectedBefore x.core x.inj x.addr x.size) && s.elementsPass x && (!x.rel || s.releaseReady x.strand x.ord x.scope x.core)

/-- One piece of an update applied to a die's view, byte by byte: a byte whose position is higher stays
(R321). -/
def applyPiece (die pos a n v mask : Nat) (l : List Shadow) : List Shadow :=
  l.map (fun x =>
    let i := x.addr - a
    if x.die == die && a ≤ x.addr && x.addr < a + n && x.pos < pos && mask / 256 ^ i % 256 != 0 then
      { x with val := BitVec.ofNat 8 (blend x.val.toNat (v / 256 ^ i % 256) (mask / 256 ^ i % 256)), pos := pos }
    else x)

/-- An update applied to a die's view, all its pieces at once (R318, R377). -/
def applyUpdate (u : Update) (l : List Shadow) : List Shadow :=
  u.more.foldl (fun (l : List Shadow) p => applyPiece u.die u.pos p.1 p.2.1 p.2.2 (fullMask p.2.1) l)
    (applyPiece u.die u.pos u.addr u.size u.val u.mask l)

/-- DIE_VIEW_UPDATE (R319, R320): pick 0 is the die, pick 1 tells an own store (0) from an update (1), pick 2
its place. A store of the die is performed; an update is applied once every write causally before it has
been. -/
def execDieViewUpdate (s : State) : Host.Outcome State Fault Refusal :=
  if s.arg 1 = 0 then
    match s.stores[s.arg 2]? with
    | none => .next s
    | some x => if dieOf x.core = s.arg 0 ∧ s.mayPerform x = true then .next (s.performIssued x) else .next s
  else
    match s.updates[s.arg 2]? with
    | none => .next s
    | some u =>
      if u.kind = .update ∧ u.die = s.arg 0 ∧ s.clockReady u.die u.writer u.clock = true then
        .next (({ s with updates := s.updates.eraseIdx (s.arg 2), shadows := applyUpdate u s.shadows }.tickFor
          u.die u.writer).cleanShadows)
      else .next s

/-- Whether an earlier H access of the strand has not reached the host (R261). -/
def State.hBefore (s : State) (strand uid : Nat) : Bool :=
  s.stores.any (fun x => x.strand == strand && x.ord < uid && x.origin == .sth)
    || s.pends.any (fun p => p.strand == strand && p.uid < uid
        && (match p.op with | .ldh _ _ => true | _ => false))

/-- Whether the host refuses an access (R122). -/
def State.hostRefuses (s : State) (a n : Nat) : Bool := s.hostDeny.any (fun r => overlap r.1 r.2 a n)

/-- An H store at the host (R261): its bytes are written, and what it releases goes with them (R325). -/
def State.hostStore (s : State) (x : Store) : State :=
  let c := if x.rel then joinClock x.clock (s.die (dieOf x.core)).clock else x.clock
  { s with
    stores := s.stores.filter (fun y => y.uid != x.uid)
    host := Mem.write s.host x.addr x.size (blend (Mem.read s.host x.addr x.size) x.val x.mask)
    hostW := setLast s.hostW (keysFrom x.addr x.size) c }

/-- The notices and updates that an owner sends of a write that it does not apply (R319, R320): it advances the clocks of the
other dies, and the die that sent it learns what stands at the owner. -/
def State.refuseAtOwner (s : State) (x : Store) (cause : Nat) : State :=
  let o := ownerOf x.addr
  let w := dieOf x.core
  let ks := match s.keys { sup := true, cls := x.cls } .r x.addr x.size with | .ok ks => ks | .error _ => []
  let s1 := s.tickFor o w
  let us := ([0, 1, 2, 3].filter (fun d => d != o && d != w)).map (fun d =>
    { die := d, writer := w, addr := x.addr, clock := x.clock, pos := s.nextPos - 1 : Update })
  let back : Update :=
    { kind := .refuse, die := w, writer := w, addr := x.addr, size := x.size, val := s.ownRead ks, mask := fullMask x.size
      clock := lastClock s.lastW ks, pos := s.nextPos - 1, store := x.uid }
  let s2 := if x.lost then s1 else s1.fallOthers x cause
  ({ s2 with
    updates := s2.updates ++ us ++ [back]
    stores := s2.stores.filter (fun y => y.uid != x.uid) }).sendRecord x cause

/-- The further pieces of a sent write, as its owner reaches them (R437). -/
def State.moreKeys (s : State) (x : Store) : List (Nat × Nat × List Nat) :=
  x.more.filterMap (fun p => match s.keys { sup := true, cls := x.cls } .w p.1 p.2.1 with
    | .ok ks => some (p.1, p.2.2, ks)
    | .error _ => none)

/-- A sent store applied at its owner and acknowledged (R319); what the slices of the owner die hold of its line is written back
before it (R317). -/
def State.applySent (s : State) (x : Store) (ks : List Nat) : State :=
  let w := dieOf x.core
  let s := s.flushLines (ownerOf x.addr) x.addr x.size
  let s0 := s.tickFor (ownerOf x.addr) w
  let s1 :=
    if x.more.isEmpty then (s0.applyOwner w x.addr x.val x.mask ks x.clock).repairSpan x ks
    else s0.applyPieces w x.clock ((x.addr, x.val, ks) :: s0.moreKeys x)
  let ack : Update :=
    { kind := .ack, die := w, writer := w, addr := x.addr, size := x.size, val := x.val, mask := x.mask,
      pos := s.nextPos, store := x.uid }
  let s2 := if x.spoils then s1.spoilUnits x.cls x.addr else s1
  { s2 with updates := s2.updates ++ [ack] }.onStore x.uid (fun y => { y with stage := .applied, arr := 0 })

/-- POSTED_WRITE_AT_OWNER (R261, R274, R319): a sent store reaches its owner, which translates it and checks it once more, with
the rest of its access: it is applied and acknowledged, stalls (R282), or is refused, a record having become HELD (R366) or a
unit uncorrectable (R417) meanwhile. An H store reaches the host. Pick 0 is its place among the posted stores. -/
def execPostedWriteAtOwner (s : State) : Host.Outcome State Fault Refusal :=
  match s.stores[s.arg 0]? with
  | none => .next s
  | some x =>
    if x.origin = .sth then
      if s.hBefore x.strand x.ord || (x.rel && !s.releaseReady x.strand x.ord 5 x.core) then .next s
      else if s.hostRefuses x.addr x.size then .next (s.failStore x Cause.protection)
      else .next (s.hostStore x)
    else if x.stage = .sent ∧ s.clockReady (ownerOf x.addr) (dieOf x.core) x.clock = true then
      let s := s.touch x.cls x.addr
      if !s.elementsPass x then .next s
      else
        match s.accessFault x, s.keys { sup := true, cls := x.cls } .w x.addr x.size with
        | some c, .ok ks =>
          if x.origin != .engine || x.job != 0 || x.lost then .next (s.refuseAtOwner x c)
          else if s.mustStall x.arr x.cls x.addr ks then .next (s.stallStore x)
          else
            let r := s.dropBad x ks
            .next (r.1.applySent r.2 ks)
        | c, .error e => .next (s.refuseAtOwner x (c.getD e))
        | none, .ok ks =>
          if x.lost then .next (s.refuseAtOwner x Cause.protection)
          else if s.mustStall x.arr x.cls x.addr ks then .next (s.stallStore x)
          else .next (s.applySent x ks)
    else .next s

/-- An acknowledged byte in its die's view (R321): below a higher position the die applies its write
again, unless a later one of its own stands there. -/
def ackByte (u : Update) (later : Nat → Bool) (x : Shadow) : Shadow :=
  let i := x.addr - u.addr
  if x.die == u.die && u.addr ≤ x.addr && x.addr < u.addr + u.size && u.mask / 256 ^ i % 256 != 0 then
    if later x.addr then { x with pos := max x.pos u.pos }
    else if x.pos < u.pos then
      { x with
        val := BitVec.ofNat 8 (blend x.val.toNat (u.val / 256 ^ i % 256) (u.mask / 256 ^ i % 256))
        pos := u.pos, own := false }
    else { x with own := false }
  else x

/-- A refused byte in its die's view (R318, R366): the owner's, unless a later write of the die stands there. -/
def refuseByte (u : Update) (later : Nat → Bool) (x : Shadow) : Shadow :=
  let i := x.addr - u.addr
  if x.die == u.die && u.addr ≤ x.addr && x.addr < u.addr + u.size && !later x.addr && decide (x.pos ≤ u.pos) then
    { x with val := byteOf u.val i, pos := u.pos, own := false }
  else x

/-- WRITE_ACKNOWLEDGEMENT (R319, R321): a store's acknowledgement, or its refusal once the die has applied what the owner
then held, reaches its die. Pick 0 is its place among the updates. -/
def execWriteAcknowledgement (s : State) : Host.Outcome State Fault Refusal :=
  match s.updates[s.arg 0]? with
  | none => .next s
  | some u =>
    let later := fun (a : Nat) =>
      s.stores.any (fun y => y.uid != u.store && y.stage != .issued && y.atomic.isNone && dieOf y.core == u.die
        && overlap y.addr y.size a 1)
    let back := fun (f : Shadow → Shadow) =>
      State.cleanShadows
        { s with
          updates := s.updates.eraseIdx (s.arg 0)
          stores := s.stores.filter (fun y => y.uid != u.store)
          shadows := s.shadows.map f }
    match u.kind with
    | .update => .next s
    | .ack => .next (back (ackByte u later))
    | .refuse => if s.covers u.die u.clock then .next (back (refuseByte u later)) else .next s

/-- REFRESH_MARKER (R326): a marker reaches its owner. Pick 0 is its place. -/
def execRefreshMarker (s : State) : Host.Outcome State Fault Refusal :=
  match s.markers[s.arg 0]? with
  | none => .next s
  | some m =>
    if m.pos.isSome then .next s
    else .next { s with markers := s.markers.set (s.arg 0) { m with pos := some s.nextPos } }

/-! ### Store-fault records -/

/-- LOST of a record one more, stopping at 65,535 (R402). -/
def SfRec.lose (r : SfRec) : SfRec :=
  if r.info.toNat / 65536 % 65536 = 65535 then r else { r with info := r.info + 0x10000 }

/-- The newest record changed. -/
def onLast (f : SfRec → SfRec) : List SfRec → List SfRec
  | [] => []
  | [r] => [f r]
  | r :: rs => r :: onLast f rs

/-- A record that arrives at a strand's queue (R400, R402). -/
def Strand.addRecord (t : Strand) (r : SfRec) : Strand :=
  if t.sfq.length < Config.sfqDepth then { t with sfq := t.sfq ++ [r] } else { t with sfq := onLast SfRec.lose t.sfq }

/-- The cause of a record (R400). -/
def SfRec.cause (r : SfRec) : Nat := r.info.toNat / 2 ^ 40 % 256

/-- STORE_FAULT_RECORD_ARRIVAL (R400 to R402): a record reaches its strand, or, of a LEASE_BREACH, ends its
work (R276); of a strand that is gone it is discarded. Pick 0 is its place. -/
def execStoreFaultRecordArrival (s : State) : Host.Outcome State Fault Refusal :=
  match s.faultMsgs[s.arg 0]? with
  | none => .next s
  | some f =>
    let s1 := { s with faultMsgs := s.faultMsgs.eraseIdx (s.arg 0) }
    match s1.byUid f.strand with
    | none => .next s1
    | some t =>
      if f.r.cause = Cause.leaseBreach then .next (s1.leaseBreachOf t (f.r.addr.toNat % 2 ^ 52))
      else .next (s1.onUid f.strand (fun t => t.addRecord f.r))

/-- RPT of a record (R400). -/
def SfRec.rpt (r : SfRec) : Bool := r.info.getLsbD 36

/-- The oldest record with RPT = 0 marked (R403). -/
def markRpt : List SfRec → List SfRec
  | [] => []
  | r :: rs => if r.rpt then r :: markRpt rs else { r with info := r.info ||| 0x1000000000 } :: rs

/-- Whether a strand's next boundary takes a STORE_FAULT trap (R395 step 3). -/
def Strand.sfDue (t : Strand) : Bool :=
  t.live && t.run == .run && t.wait.kind == .none && !inTrap t.modeStatus && t.sfq.any (fun r => !r.rpt)

/-- The STORE_FAULT trap of the strand that issues (R403). -/
def storeFaultTrap (s : State) : Host.Outcome State Fault Refusal :=
  match s.cur.sfq.find? (fun r => !r.rpt) with
  | none => .next s
  | some r => .next (takeTrap (s.onCur (fun t => { t with sfq := markRpt t.sfq })) Cause.storeFault r.addr)

/-- STORE_FAULT (R403): the trap of the strand on a slot, at its boundary. Pick 0 is the core, pick 1 the
slot. -/
def execStoreFault (s : State) : Host.Outcome State Fault Refusal :=
  match s.select (s.arg 0) (s.arg 1) with
  | none => .next s
  | some s1 =>
    if s1.cur.sfDue && s1.cur.ending.isNone && !s1.cur.haltReq && s1.cur.preTrap.isNone && !s1.insideRecv then storeFaultTrap s1
    else .next s

/-! ### Loads -/

/-- The bytes of a capsule step's buffered stores over those of memory (R371). -/
def overBuf (buf : List BufStore) (a : Nat) (b : Byte) : Byte :=
  buf.foldl (fun (b : Byte) (x : BufStore) =>
    if x.addr ≤ a ∧ a < x.addr + x.size then byteOf x.val.toNat (a - x.addr) else b) b

/-- The value of a capsule step's load: the owner's memory under the step's buffered stores (R371). -/
def State.capRead (s : State) (buf : List BufStore) (a : Nat) : List Nat → Nat
  | [] => 0
  | k :: ks => (overBuf buf a (Mem.get s.hbm k)).toNat + 256 * s.capRead buf (a + 1) ks

/-- A long-latency producer of a strand removed, its register written (R26) and its hold dropped (R324). -/
def State.answer (s : State) (p : Pend) (f : Strand → Strand) : State :=
  let s1 := if p.acq then s.sliceAcquire p.core p.strand else s
  ({ s1 with pends := s.pends.filter (fun q => q.uid != p.uid) }).onUid p.strand (fun t =>
    { (if p.acq then (f t).unpark else f t) with
      hold := t.hold - p.acq.toNat, stallIn := t.stallIn.filter (· != p.uid) })

/-- The result of a producer written into its register; z discards it. -/
def State.answerVal (s : State) (p : Pend) (v : Nat) : State :=
  s.answer p (fun t => if p.dst = 60 then t else t.setCell p.dst v)

/-- A fault tag in its place (R259, R399). -/
def State.answerTag (s : State) (p : Pend) (g : Tag) : State :=
  s.answer p (fun t => if p.dst = 60 then t else t.tagCell p.dst g)

/-- The requester of a producer. -/
def State.reqPend (s : State) (p : Pend) (a : Nat) : Req :=
  s.reqOf p.core p.launch p.sup (s.all.any (fun t => t.uid == p.strand && t.kind == .drover)) a

/-- What a unit of a load has read (R246): the next is awaited, or the register is written. -/
def State.loadPart (s : State) (p : Pend) (j v : Nat) (value : Nat → Nat) : State :=
  let left := p.left - 2 ^ j
  if left = 0 then s.answerVal p (value (p.acc + v))
  else s.onPend p.uid (fun q => { q with left := left, acc := p.acc + v })

/-- The unit of a load that is read next: the one asked for, or the first not read. -/
def Pend.nextUnit (p : Pend) (j : Nat) : Nat :=
  if p.left.testBit j then j else ((List.range 17).find? (fun i => p.left.testBit i)).getD 0

/-- A strand has read bytes of its cluster's slice: its later atomics on them come after they are written back (R258). -/
def State.noteRead (s : State) (core u a n : Nat) : State :=
  if s.slices.isEmpty then s
  else
    { s with
      slices := s.slices.map (fun x =>
        if inCluster x.cluster core && overlap x.addr 1 a n && !x.readers.contains u then { x with readers := u :: x.readers }
        else x) }

/-- A unit of an LDG performed (R246, R317): in the cluster's slice at team and convoy scope, else in the die's view, once
the cluster's own slice has written its bytes back. -/
def State.performLdg (s : State) (p : Pend) (a code n el scope unit : Nat) : State :=
  let j := p.nextUnit unit
  let u := (unitsOf a n).getD j (a, n)
  let c := clusterOf p.core
  let s := s.touch (s.reqPend p a).cls u.1
  match s.keys (s.reqPend p a) .r u.1 u.2 with
  | .error c => s.answerTag p ⟨c, BitVec.ofNat 64 a⟩
  | .ok ks =>
    let put := fun (s : State) (v : Nat) => s.loadPart p j (v * 256 ^ (u.1 - a)) (loadValue code el)
    if s.uncorrectable ks then s.answerTag p ⟨Cause.uncorrectable, BitVec.ofNat 64 (s.badAddr u.1 ks)⟩
    else if (scope = 1 ∨ scope = 2) ∧ p.acq = false ∧ p.core < 4096 then
      put (s.noteRead p.core p.strand u.1 u.2) (s.sliceRead c u.1 ks)
    else if s.slices.any (fun x => inCluster x.cluster p.core && overlap x.addr 1 u.1 u.2) then
      (if (linesOf u.1 u.2).any (fun l => s.lineFrozen c l) then s
      else
        let s1 := s.writeBackLines c u.1 u.2
        put s1 (s1.viewRead (dieOf p.core) u.1 ks))
    else put s (s.viewRead (dieOf p.core) u.1 ks)

/-- Whether the bytes of an access lie in a capsule record (R366). -/
def State.inRecord (s : State) (a n : Nat) : Bool := s.records.any (fun l => overlap l 128 a n)

/-- A strand's operation has been performed at an owner (R322): its later accesses to the bytes follow it. -/
def State.fallBehind (s : State) (strand core a n : Nat) (c : List Nat) : State :=
  if s.covers (dieOf core) c then s
  else { s with behind := s.behind ++ [{ strand := strand, die := dieOf core, addr := a, size := n, clock := c }] }

/-- A unit of a load performed at the owner of its address (R246, R366, R371), under the buffered stores of a capsule step; an
acquire acquires what it read of (R325). -/
def State.performAtOwner (s : State) (p : Pend) (a n : Nat) (buf : List BufStore) (value : Nat → Nat) (unit : Nat) : State :=
  let j := p.nextUnit unit
  let u := (unitsOf a n).getD j (a, n)
  let s := s.touch (s.reqPend p a).cls u.1
  match s.keys (s.reqPend p a) .r u.1 u.2 with
  | .error c => s.answerTag p ⟨c, BitVec.ofNat 64 a⟩
  | .ok ks =>
    let c := lastClock s.lastW ks
    if s.uncorrectable ks then s.answerTag p ⟨Cause.uncorrectable, BitVec.ofNat 64 (s.badAddr u.1 ks)⟩
    else
      let s1 := (s.loadPart p j (s.capRead buf u.1 ks * 256 ^ (u.1 - a)) value).fallBehind p.strand p.core u.1 u.2 c
      if p.acq then s1.onUid p.strand (fun t => t.acquire c) else s1

/-! ### N space -/

/-- A load's units of a sibling's scratchpad answered (R246, R253). -/
def State.nAnswer (s : State) (n : NOp) (f : Pend → Pend) : State :=
  { s with pends := s.pends.map (fun p => if p.uid == n.uid && p.strand == n.strand then f p else p) }

/-- A unit of an LDN read. -/
def Pend.nUnit (n : NOp) (v : Nat) (p : Pend) : Pend :=
  let left := p.left - 2 ^ (n.addr / 8 - n.base / 8)
  let acc := p.acc + v * 256 ^ (n.addr - n.base)
  if left = 0 then { p with left := left, acc := acc, op := .ready acc } else { p with left := left, acc := acc }

/-- An N-space access that fails: the other units of it go with it. -/
def State.nFails (s : State) (n : NOp) (cause : Nat) : State :=
  let s1 := { s with nops := s.nops.filter (fun m => !(m.uid == n.uid && m.strand == n.strand)) }
  if n.store then
    s1.sendRecord { strand := n.strand, seq := n.seq, origin := .stn, raw := n.raw, code := n.code, data := n.data } cause
  else s1.nAnswer n (fun p => { p with op := .failed ⟨cause, n.raw⟩ })

/-- N_SPACE_ACCESS_AT_TARGET (R246, R253, R254): a unit of an access reaches its target, after every earlier access of its
strand to that unit; a fenced or retired target answers PEER_LOST (R154, R157). Pick 0 is its place. -/
def execNSpaceAccessAtTarget (s : State) : Host.Outcome State Fault Refusal :=
  match s.nops[s.arg 0]? with
  | none => .next s
  | some n =>
    let s1 := { s with nops := s.nops.eraseIdx (s.arg 0) }
    let unit := fun (m : NOp) => m.strand == n.strand && m.target == n.target && m.uid < n.uid && m.addr / 8 == n.addr / 8
    if s.nops.any unit then .next s
    else if s.isFenced n.target || s.dead.contains n.target then .next (s.nFails n Cause.peerLost)
    else if s.rebuilding n.target n.addr n.size then .next s
    else if (!n.store || decide (n.size < 8)) && s.spadSoft n.target n.addr n.size then .next (s.findSoft n.target n.addr n.size)
    else if n.store then .next (s1.spadPut n.target n.addr n.size n.val (fullMask n.size))
    else if s.badWords.any (fun w => w.core == n.target && !w.row && overlap w.addr 8 n.addr n.size) then
      .next (s.nFails n Cause.uncorrectable)
    else .next (s1.nAnswer n (Pend.nUnit n (s.spadRead n.target n.addr n.size)))

end Sys2Proof.Machine
end

