-- ==== Sys2Proof/Machine/Sync.lean ====
section
/-! DEFINITION. The synchronisation engines (R335): atomics (R337 to R339), waits (R340 to R342) and the
capsule instructions (R366 to R379). -/

namespace Sys2Proof.Machine

/-! ### Atomics -/

/-- The new value of a location (R338), of `n` bits. -/
def atomicNew (op n old b e0 : Nat) : Nat :=
  let ob := b % 2 ^ n
  let so := sext old n
  let sb := sext ob n
  match op with
  | 0 => (old + ob) % 2 ^ n
  | 1 => old &&& ob
  | 2 => old ||| ob
  | 3 => old ^^^ ob
  | 4 => if so ≤ sb then old else ob
  | 5 => if sb ≤ so then old else ob
  | 6 => if old ≤ ob then old else ob
  | 7 => if ob ≤ old then old else ob
  | 8 => ob
  | 9 => if old = e0 % 2 ^ n then ob else old
  | _ => (addBits Fmt.fp32 .rne false old ob).bits

/-- An atomic of one form (R337 to R339): with a destination a long-latency producer, else a posted
operation; an `.ar` atomic holds later accesses back until it has returned (R329). -/
def atomicOp (op : Nat) (ar : Bool) (x : A3) (dw : Bool) (s : State) : Host.Outcome State Fault Refusal :=
  issue s { fields := [.s x.a x.pa 14, .s x.b x.pb 21, .d x.d 7], mem := true } (fun s' =>
    let v := s.cur.val x.a
    let n := if dw then 8 else 4
    let b := s.cur.val x.b
    let e0 := s.cur.ext 0
    if v.toNat % n ≠ 0 then trap s Cause.misaligned v
    else if x.d.toNat = 60 then
      let st : Store :=
        { origin := .atomic, addr := v.toNat, raw := v, data := b, code := if dw then 3 else 2, size := n, val := e0.toNat,
          mask := fullMask n, scope := 4, rel := ar, atomic := some (op, b), clock := (s.die (dieOf s.cur.core)).clock }
      finish (s'.post st) 4 (fun t => { t with hold := t.hold + ar.toNat })
    else finish (s'.pendOn x.d.toNat ar (.atomic op v.toNat n b e0 ar)) 4 (fun t => t))

/-- Whether the owner has applied every write causally before an atomic or a wait of a die (R329). -/
def State.causal (s : State) (a : Nat) (c : List Nat) : Bool := s.covers (ownerOf a) c

/-- Whether a store of the strand to these bytes, or one that it has acquired or read in its cluster's slice, is not yet at its
owner (R258, R325). -/
def State.notAtOwner (s : State) (strand uid a n : Nat) : Bool :=
  s.stores.any (fun x => x.stage != .applied && x.origin != .sth && overlap x.addr x.size a n
    && (x.strand == strand && x.ord < uid && x.origin != .engine || x.agents.contains strand || x.readers.contains strand))
    || s.slices.any (fun x => (x.agents.contains strand || x.readers.contains strand) && overlap x.addr 1 a n)

/-- Whether an earlier `.ar` atomic of the strand has not returned (R329). -/
def State.arBefore (s : State) (strand uid : Nat) : Bool :=
  s.stores.any (fun x => x.strand == strand && x.ord < uid && x.atomic.isSome && x.rel)
    || s.pends.any (fun p => p.strand == strand && p.uid < uid && p.op.waits)

/-- Whether an atomic may be performed now, or stall at its owner (R329, R336). -/
def State.atomicMay (s : State) (strand uid core inj a n : Nat) (clock : List Nat) : Bool :=
  s.causal a clock && !s.notAtOwner strand uid a n && !s.earlier strand uid a n && !s.injectedBefore core inj a n

/-- Whether an `.ar` atomic may leave: its release is complete, and the strand's earlier `.ar` atomics have returned (R329). -/
def State.arMay (s : State) (strand uid core : Nat) : Bool :=
  !s.arBefore strand uid && s.releaseReady strand uid 4 core

/-- An atomic of a drover core in a window, performed there untranslated (R274 step 0): the old value, and the state after. -/
def State.atomicWindow (s : State) (op a n : Nat) (b e0 : Word) : Nat × State :=
  let old := s.windowRead a n
  (old, { s with tick := s.tick + 1024 }.windowWrite a (atomicNew op (8 * n) old b.toNat e0.toNat) (fullMask n))

/-- The atomic at the owner's engine, at one instant (R338): the old value, and the state after. What the slices of the
owner die hold of its bytes is written back before it (R317). -/
def State.atomicAt (s : State) (op a n : Nat) (b e0 : Word) (ks : List Nat) : Nat × State :=
  let s1 := s.flushLines (ownerOf a) a n
  let old := s1.ownRead ks
  (old, s1.ownerWrite a (atomicNew op (8 * n) old b.toNat e0.toNat) ks)

/-- An atomic with a destination at the engine (R338, R339): performed, failed, or stalled (R282). Its result travels back with
the clock of what an `.ar` atomic acquires. -/
def State.atomicPend (s : State) (p : Pend) (op a n : Nat) (b e0 : Word) : State :=
  let q := s.reqPend p a
  let s := s.touch q.cls a
  let fails := fun (c at' : Nat) => s.onPend p.uid (fun q => { q with op := .failed ⟨c, BitVec.ofNat 64 at'⟩, clock := some [] })
  if inWindow a && q.sup && q.drover then
    let r := s.atomicWindow op a n b e0
    r.2.onPend p.uid (fun q => { q with op := .ready r.1, clock := some [] })
  else
  match s.keys q .rw a n with
  | .error c => fails c a
  | .ok ks =>
    if s.uncorrectable ks then fails Cause.uncorrectable (s.badAddr a ks)
    else if s.mustStall p.arr q.cls a ks then
      (if p.arr != 0 then s else (s.onPend p.uid (fun q => { q with arr := s.nextUid })).fresh)
    else
      let r := s.atomicAt op a n b e0 ks
      (r.2.onPend p.uid (fun q => { q with op := .ready r.1, clock := some (lastClock s.lastW ks), arr := 0 })).fallBehind
        p.strand p.core a n (lastClock r.2.lastW ks)

/-- A posted atomic at the engine (R338, R339): performed, failed, or stalled (R282). A relaxed one is over; an `.ar` one
returns to its strand, which then acquires. -/
def State.atomicPosted (s : State) (x : Store) (op : Nat) (b : Word) : State :=
  let s := s.touch x.cls x.addr
  let ar := x.origin == .atomic && x.rel
  let drop := fun (s : State) => s.onUid x.strand (fun t => { t with hold := t.hold - ar.toNat })
  if inWindow x.addr && x.sup && (s.reqStore x).drover then
    drop (State.atomicWindow { s with stores := s.stores.filter (fun y => y.uid != x.uid) } op x.addr x.size b (BitVec.ofNat 64 x.val)).2
  else
  match s.keys (s.reqStore x) .rw x.addr x.size with
  | .error c => drop (s.failStore x c)
  | .ok ks =>
    if s.uncorrectable ks then drop (s.failStore x Cause.uncorrectable)
    else if s.mustStall x.arr x.cls x.addr ks then s.stallStore x
    else
      let s1 :=
        if ar then s.onStore x.uid (fun y => { y with stage := .applied, clock := lastClock s.lastW ks, arr := 0 })
        else { s with stores := s.stores.filter (fun y => y.uid != x.uid) }
      let r := s1.atomicAt op x.addr x.size b (BitVec.ofNat 64 x.val) ks
      r.2.fallBehind x.strand x.core x.addr x.size (lastClock r.2.lastW ks)

/-- A posted `.ar` atomic has returned: its strand acquires, and its later accesses go on (R324, R339). -/
def State.arReturned (s : State) (x : Store) : State :=
  ({ s with stores := s.stores.filter (fun y => y.uid != x.uid) }.sliceAcquire x.core x.strand).onUid x.strand (fun t =>
    { t.acquire x.clock with hold := t.hold - 1 })

/-- ATOMIC_PERFORM (R329, R338): an `.ar` atomic leaves once its release is complete; an atomic is performed at the owner's
engine; a posted `.ar` one returns. Pick 0 tells one with a destination (0) from a posted one (1), pick 1 is its place. -/
def execAtomicPerform (s : State) : Host.Outcome State Fault Refusal :=
  if s.arg 0 = 0 then
    match s.pends[s.arg 1]? with
    | none => .next s
    | some p =>
      match p.op with
      | .atomic op a n b e0 _ =>
        match p.clock with
        | none =>
          if s.arMay p.strand p.uid p.core then
            .next (s.onPend p.uid (fun q =>
              { q with clock := some (s.die (dieOf p.core)).clock, inj := s.nextUid })).fresh
          else .next s
        | some c =>
          if s.atomicMay p.strand p.uid p.core p.inj a n c then .next (s.atomicPend p op a n b e0) else .next s
      | _ => .next s
  else
    match s.stores[s.arg 1]? with
    | none => .next s
    | some x =>
      match x.atomic with
      | none => .next s
      | some p =>
        if x.stage = .applied then .next (s.arReturned x)
        else if x.inj = 0 then
          if s.arMay x.strand x.ord x.core then
            .next (s.onStore x.uid (fun y => { y with clock := (s.die (dieOf x.core)).clock, inj := s.nextUid })).fresh
          else .next s
        else if s.atomicMay x.strand x.ord x.core x.inj x.addr x.size x.clock && s.elementsPass x then
          .next (s.atomicPosted x p.1 p.2)
        else .next s

/-- AADD (R338). -/
def execAadd (x : A3) (dw : Bool) (s : State) : Host.Outcome State Fault Refusal :=
  atomicOp 0 false x dw s

/-- AAND (R338). -/
def execAand (x : A3) (dw : Bool) (s : State) : Host.Outcome State Fault Refusal :=
  atomicOp 1 false x dw s

/-- AOR (R338). -/
def execAor (x : A3) (dw : Bool) (s : State) : Host.Outcome State Fault Refusal :=
  atomicOp 2 false x dw s

/-- AXOR (R338). -/
def execAxor (x : A3) (dw : Bool) (s : State) : Host.Outcome State Fault Refusal :=
  atomicOp 3 false x dw s

/-- AMIN (R338). -/
def execAmin (x : A3) (dw : Bool) (s : State) : Host.Outcome State Fault Refusal :=
  atomicOp 4 false x dw s

/-- AMAX (R338). -/
def execAmax (x : A3) (dw : Bool) (s : State) : Host.Outcome State Fault Refusal :=
  atomicOp 5 false x dw s

/-- AMINN (R338). -/
def execAminn (x : A3) (dw : Bool) (s : State) : Host.Outcome State Fault Refusal :=
  atomicOp 6 false x dw s

/-- AMAXN (R338). -/
def execAmaxn (x : A3) (dw : Bool) (s : State) : Host.Outcome State Fault Refusal :=
  atomicOp 7 false x dw s

/-- AXCHG (R338). -/
def execAxchg (x : A3) (dw : Bool) (s : State) : Host.Outcome State Fault Refusal :=
  atomicOp 8 false x dw s

/-- ACAS (R338). -/
def execAcas (x : A3) (dw : Bool) (s : State) : Host.Outcome State Fault Refusal :=
  atomicOp 9 false x dw s

/-- AFADD (R338). -/
def execAfadd (x : A3) (s : State) : Host.Outcome State Fault Refusal :=
  atomicOp 10 false x false s

/-- AADD.ar (R338, R329). -/
def execAaddAr (x : A3) (dw : Bool) (s : State) : Host.Outcome State Fault Refusal :=
  atomicOp 0 true x dw s

/-- AAND.ar (R338, R329). -/
def execAandAr (x : A3) (dw : Bool) (s : State) : Host.Outcome State Fault Refusal :=
  atomicOp 1 true x dw s

/-- AOR.ar (R338, R329). -/
def execAorAr (x : A3) (dw : Bool) (s : State) : Host.Outcome State Fault Refusal :=
  atomicOp 2 true x dw s

/-- AXOR.ar (R338, R329). -/
def execAxorAr (x : A3) (dw : Bool) (s : State) : Host.Outcome State Fault Refusal :=
  atomicOp 3 true x dw s

/-- AMIN.ar (R338, R329). -/
def execAminAr (x : A3) (dw : Bool) (s : State) : Host.Outcome State Fault Refusal :=
  atomicOp 4 true x dw s

/-- AMAX.ar (R338, R329). -/
def execAmaxAr (x : A3) (dw : Bool) (s : State) : Host.Outcome State Fault Refusal :=
  atomicOp 5 true x dw s

/-- AMINN.ar (R338, R329). -/
def execAminnAr (x : A3) (dw : Bool) (s : State) : Host.Outcome State Fault Refusal :=
  atomicOp 6 true x dw s

/-- AMAXN.ar (R338, R329). -/
def execAmaxnAr (x : A3) (dw : Bool) (s : State) : Host.Outcome State Fault Refusal :=
  atomicOp 7 true x dw s

/-- AXCHG.ar (R338, R329). -/
def execAxchgAr (x : A3) (dw : Bool) (s : State) : Host.Outcome State Fault Refusal :=
  atomicOp 8 true x dw s

/-- ACAS.ar (R338, R329). -/
def execAcasAr (x : A3) (dw : Bool) (s : State) : Host.Outcome State Fault Refusal :=
  atomicOp 9 true x dw s

/-- AFADD.ar (R338). -/
def execAfaddAr (x : A3) (s : State) : Host.Outcome State Fault Refusal :=
  atomicOp 10 true x false s

/-! ### What a strand that waits at an engine is answered -/

/-- A request of a strand that fails at an engine (R341, R372): its wait ends, and the marked registers it has emptied are full
again (R394); a lease breach ends the work, an uncorrectable unit stops the strand, and any other cause is a trap at the
instruction. -/
def State.failWait (s : State) (strand cause : Nat) (info : Word) : State :=
  match s.byUid strand with
  | none => s
  | some t =>
    let s1 := s.onUid strand (fun u =>
      (u.wait.cells.foldl Strand.refill (s.unbook u)).unstall)
    if cause = Cause.leaseBreach then s1.leaseBreachOf t info.toNat
    else if cause = Cause.uncorrectable then
      (s1.onUid strand (fun u => { u with run := .halted, stopped := true })).note t.core cause info
    else s1.onUid strand (fun u => { u with preTrap := some (cause, info) })

/-! ### Waits -/

/-- WAITNE, WAITEQ and WAITGE (R340, R341): the strand stalls until the engine replies. -/
def waitOp (cond : Nat) (x : A3) (s : State) : Host.Outcome State Fault Refusal :=
  issue s { fields := [.s x.a x.pa 14, .s x.b x.pb 21, .d x.d 7], mem := true } (fun s' =>
    let v := s.cur.val x.a
    if v.toNat % 4 ≠ 0 then trap s Cause.misaligned v
    else
      let w : WaitRec :=
        { uid := s.nextUid, strand := s.cur.uid, core := s.cur.core, launch := s.cur.launch,
          sup := s.cur.mode == .supervisor, addr := v.toNat, cond := cond,
          c := (s.cur.val x.b).toNat % 2 ^ 32, dst := x.d, clock := (s.die (dieOf s.cur.core)).clock }
      .next (((({ s' with waits := s'.waits ++ [w] }).fresh).await .sync s.nextUid 4).onCur (fun t =>
        (t.book x.d).emptied s.cur)))

/-- WAITNE (R340). -/
def execWaitne (x : A3) (s : State) : Host.Outcome State Fault Refusal := waitOp 0 x s

/-- WAITEQ (R340). -/
def execWaiteq (x : A3) (s : State) : Host.Outcome State Fault Refusal := waitOp 1 x s

/-- WAITGE (R340). -/
def execWaitge (x : A3) (s : State) : Host.Outcome State Fault Refusal := waitOp 2 x s

/-- A wait reaches the owner's engine (R341); one of a drover core in a window is tested there until it holds (R274 step 0). -/
def State.waitArrives (s : State) (k : Nat) (w : WaitRec) : State :=
  let s := s.touch (s.reqOf w.core w.launch w.sup false w.addr).cls w.addr
  let gone := { s with waits := s.waits.eraseIdx k }
  if inWindow w.addr && w.sup && decide (4096 ≤ w.core) then
    let x := s.windowRead w.addr 4
    if w.holds x then
      { gone with waits := gone.waits ++ [{ w with arrived := true, found := some x, clock := [] }], tick := s.tick + 1024 }
    else s
  else
  match s.keys (s.reqOf w.core w.launch w.sup false w.addr) .r w.addr 4 with
  | .error c => gone.failWait w.strand c (BitVec.ofNat 64 w.addr)
  | .ok ks =>
    if s.uncorrectable ks then gone.failWait w.strand Cause.uncorrectable (BitVec.ofNat 64 (s.badAddr w.addr ks))
    else
      let x := s.ownRead ks
      let w1 : WaitRec :=
        { w with arrived := true, keys := ks, found := if w.holds x then some x else none, clock := lastClock s.lastW ks }
      { gone with waits := gone.waits ++ [w1] }

/-- Whether a waiter of the same 8-byte unit that arrived before has been woken and not yet answered (R341). -/
def State.repliedFirst (s : State) (w : WaitRec) : Bool :=
  (s.waits.takeWhile (fun v => v.uid != w.uid)).any (fun v => v.arrived && v.found.isSome && v.addr / 8 == w.addr / 8)

/-- WAIT_REPLY (R341): the value a test found reaches the strand, which acquires at package scope. Pick 0 is the wait's
place. -/
def execWaitReply (s : State) : Host.Outcome State Fault Refusal :=
  match s.waits[s.arg 0]? with
  | none => .next s
  | some w =>
    match w.found with
    | none => .next s
    | some x =>
      if (s.byUid w.strand).isNone || s.repliedFirst w then .next s
      else
        .next (({ s with waits := s.waits.eraseIdx (s.arg 0) }.sliceAcquire w.core w.strand).onUid w.strand (fun t =>
          (t.setG w.dst (BitVec.ofNat 64 x)).wake.acquire w.clock))

/-! ### The capsule record -/

/-- Fields of a capsule record (R367, R368). -/
structure Rec where
  lock : Nat
  step : Nat
  holder : Nat
  resume : Nat
  creg : List Nat
  deriving DecidableEq, Repr

/-- A capsule record as the engine holds it. -/
def State.recOf (s : State) (l : Nat) : Rec :=
  { lock := s.recWord l 0, step := s.recWord l 8, holder := s.recWord l 0x10, resume := s.recWord l 0x18
    creg := (List.range 8).map (fun i => s.recWord l (0x20 + 8 * i)) }

/-- STATE (R368). -/
def Rec.state (r : Rec) : Nat := r.lock / 2 ^ 62 % 4

/-- PARKED (R368). -/
def Rec.parked (r : Rec) : Bool := r.lock / 2 ^ 61 % 2 == 1

/-- TICKET (R368). -/
def Rec.ticket (r : Rec) : Nat := r.lock % 2 ^ 32

/-- LAUNCH (R368). -/
def Rec.launch (r : Rec) : Nat := r.lock / 2 ^ 32 % 2 ^ 16

/-- INDEX (R367). -/
def Rec.index (r : Rec) : Nat := r.step % 16

/-- A reserved bit of words 0x00 to 0x18 is set, or STATE is 2 or 3 (R373). -/
def Rec.bad (r : Rec) : Bool :=
  1 < r.state || r.lock / 2 ^ 48 % 4096 != 0 || r.step / 16 != 0 || r.holder / 2 ^ 40 % 32 != 0
    || r.holder % 2 ^ 32 != 0 || r.resume / 2 ^ 48 != 0 || r.resume % 2 != 0

/-- The first 96 bytes of a record. -/
def Rec.bytes (r : Rec) : Nat := joinWords (r.lock :: r.step :: r.holder :: r.resume :: r.creg)

/-- The engine's write of the first 96 bytes of a record, at one instant. -/
def State.putRec (s : State) (l : Nat) (r : Rec) : State := s.ownerWrite l r.bytes ((s.recKeys l).take 96)

/-- The number after a ticket; 0 is skipped (R368). -/
def nextTicket (t : Nat) : Nat := if t + 1 = 2 ^ 32 then 1 else t + 1

/-- g40 to g47 of a strand. -/
def Strand.cregs (t : Strand) : List Nat := (List.range 8).map (fun i => (t.reg (40 + i)).val.toNat)

/-- g40 to g47 from a record. -/
def Strand.setCregs (t : Strand) (l : List Nat) : Strand :=
  (List.range 8).foldl (fun (t : Strand) i => t.onReg (40 + i) (fun r => r.put (BitVec.ofNat 64 (l.getD i 0)))) t

/-- A step begins: y0 to y3 are 0 and the store buffer is empty (R369). -/
def Strand.beginStep (t : Strand) (c : Capsule) : Strand :=
  { t with y := #v[0, 0, 0, 0], cap := { c with stores := [], count := 0 } }

/-- A write of several pieces at one instant, one write in the coherence order and in every die view
(R377): address, value and keys of each. -/
def State.ownerMany (s : State) (l : List (Nat × Nat × List Nat)) : State :=
  match l with
  | [] => s
  | p :: _ =>
    let o := ownerOf p.1
    let s0 := (l.foldl (fun (s : State) (q : Nat × Nat × List Nat) => s.flushLines o q.1 q.2.2.length) s).tickDie o
    s0.applyPieces o (s0.die o).clock l

/-! ### The capsule instructions at issue -/

/-- A capsule request sent to the engine; the strand stalls until it replies (R372). -/
def sendSync (s s' : State) (l : Nat) (dst : BitVec 6) (op : SyncOp) : Host.Outcome State Fault Refusal :=
  let q : SyncReq :=
    { uid := s.nextUid, strand := s.cur.uid, core := s.cur.core, launch := s.cur.launch,
      sup := s.cur.mode == .supervisor, l := l, dst := dst, op := op,
      clock := (s.die (dieOf s.cur.core)).clock }
  .next (((({ s' with syncs := s'.syncs ++ [q] }).fresh).await .sync s.nextUid 4).onCur (fun t => (t.book dst).emptied s.cur))

/-- CAPB, CAPA, CAPR and CAPQ at issue (R372): L must be a multiple of 128. -/
def capOpen (fs : List Field) (a d : BitVec 6) (op : State → SyncOp) (s : State) :
    Host.Outcome State Fault Refusal :=
  issue s { fields := fs, mem := true, cap := .opens } (fun s' =>
    if (s.cur.val a).toNat % 128 ≠ 0 then trap s Cause.misaligned (s.cur.val a)
    else sendSync s s' (s.cur.val a).toNat d (op s))

/-- CAPB (R373). -/
def execCapb (x : A2) (s : State) : Host.Outcome State Fault Refusal :=
  capOpen [.s x.a x.pa 14, .d x.d 7, cregField x.d] x.a x.d (fun _ => .capb) s

/-- CAPA (R375). -/
def execCapa (x : A2) (s : State) : Host.Outcome State Fault Refusal :=
  capOpen [.s x.a x.pa 14, .d x.d 7, cregDest] x.a x.d (fun _ => .capa) s

/-- CAPR (R376). -/
def execCapr (x : A3) (s : State) : Host.Outcome State Fault Refusal :=
  capOpen [.s x.a x.pa 14, .s x.b x.pb 21, .d x.d 7] x.a x.d
    (fun s => .capr ((s.cur.val x.b).toNat % 2 ^ 32)) s

/-- CAPQ (R376). -/
def execCapq (x : A2) (s : State) : Host.Outcome State Fault Refusal :=
  capOpen [.s x.a x.pa 14, .d x.d 7] x.a x.d (fun _ => .capq) s

/-- A step of a strand whose capsule has been taken ends (R374): status 1; an adopter's CAPA gets 3 and the
strand returns after it. -/
def Strand.displacedEnd (t : Strand) (d : BitVec 6) : Strand :=
  let c := t.cap
  let t1 : Strand := { t.unpark with cap := { }, wait := { } }.setG d 1
  if c.viaCapa then { t1.setG (BitVec.ofNat 6 c.dA) 3 with pc := c.ret } else t1.advance 4

/-- CAPS and CAPE at issue (R374). -/
def capEnd (fs : List Field) (d : BitVec 6) (final : Bool) (res : State → Word) (i : Instr) (s : State) :
    Host.Outcome State Fault Refusal :=
  issue s { fields := fs, mem := true, cap := .allowed,
            own := if s.cur.cap.mode = .opened ∧ final = false ∧ s.cur.cap.idx = 7 then some 5 else none }
    (fun s' =>
      match s.cur.cap.mode with
      | .none => illegal s i
      | .displaced => .next (s'.onCur (fun t => t.displacedEnd d))
      | .opened => sendSync s s' s.cur.cap.l d (.caps d final (res s)))

/-- CAPS (R374). -/
def execCaps (d : BitVec 6) (s : State) : Host.Outcome State Fault Refusal :=
  capEnd [.d d 7, cregField d] d false (fun _ => 0) (.caps d) s

/-- CAPE (R374). -/
def execCape (x : A2) (s : State) : Host.Outcome State Fault Refusal :=
  capEnd [.s x.a x.pa 14, .d x.d 7] x.d true (fun s => s.cur.val x.a) (.cape x) s

/-! ### The capsule instructions at the engine -/

/-- A request answered: its strand goes on, with what the answer does to it. -/
def State.reply (s : State) (q : SyncReq) (f : Strand → Strand) : State :=
  ({ s with syncs := s.syncs.filter (fun r => r.uid != q.uid) }).onUid q.strand f

/-- A request answered with a trap at its instruction. -/
def State.replyTrap (s : State) (q : SyncReq) (cause : Nat) (info : Word) : State :=
  ({ s with syncs := s.syncs.filter (fun r => r.uid != q.uid) }).failWait q.strand cause info

/-- A request that waits at the engine, in order of arrival. -/
def State.park (s : State) (q : SyncReq) : State :=
  if q.arrived then s
  else { s with syncs := s.syncs.filter (fun r => r.uid != q.uid) ++ [{ q with arrived := true }] }

/-- Whether a CAPB waits on the record ahead of a request (R373). -/
def State.waitsAhead (s : State) (q : SyncReq) : Bool :=
  (s.syncs.takeWhile (fun r => r.uid != q.uid)).any (fun r => r.arrived && r.op == .capb && r.l == q.l)
    || (!q.arrived && s.syncs.any (fun r => r.arrived && r.op == .capb && r.l == q.l))

/-- What a reader of a capsule record at its engine acquires (R377). -/
def State.recClock (s : State) (l : Nat) : List Nat := lastClock s.lastW (s.recKeys l)

/-- CAPB at the engine (R373); one that opens acquires at package scope (R377). -/
def State.doCapb (s : State) (q : SyncReq) (t : Strand) : State :=
  let r := s.recOf q.l
  match q.answer with
  | some v => s.reply q (fun u => (u.setG q.dst v).wake)
  | none =>
    if r.bad then s.replyTrap q Cause.protection (BitVec.ofNat 64 r.lock)
    else if r.state = 1 ∧ r.parked = true then
      s.reply q (fun u => (u.setG q.dst (BitVec.ofNat 64 (2 ^ 63 + r.ticket))).wake)
    else if r.state = 1 ∨ s.waitsAhead q = true then s.park q
    else
      let tk := nextTicket r.ticket
      let t1 := t.setG q.dst (BitVec.ofNat 64 tk)
      let r1 : Rec :=
        { lock := 2 ^ 62 + t.launch % 2 ^ 16 * 2 ^ 32 + tk, step := 0,
          holder := holderWord (s.logicalOf t.core) t.slot false 0, resume := (t.pc + 4).toNat / 2 * 2,
          creg := t1.cregs }
      ({ (s.putRec q.l r1).sliceAcquire q.core q.strand with
          heldRecs := q.l :: s.heldRecs
          records := if s.records.contains q.l then s.records else q.l :: s.records }).reply q (fun u =>
        ((u.setG q.dst (BitVec.ofNat 64 tk)).wake.beginStep
          { mode := .opened, l := q.l, ticket := tk }).acquire (s.recClock q.l))

/-- CAPA at the engine (R375); one that adopts acquires at package scope (R377). -/
def State.doCapa (s : State) (q : SyncReq) (t : Strand) : State :=
  let r := s.recOf q.l
  let say := fun (v : Word) => s.reply q (fun u => (u.setG q.dst v).wake)
  if r.state = 0 then say 1
  else if r.launch ≠ t.launch % 2 ^ 16 then s.replyTrap q Cause.protection (BitVec.ofNat 64 q.l)
  else if r.parked = false then say 2
  else
    let r1 : Rec :=
      { r with
        lock := (r.lock &&& (2 ^ 64 - 1 - 2 ^ 61)) ||| 2 ^ 60
        holder := holderWord (s.logicalOf t.core) t.slot true 0 }
    ((s.putRec q.l r1).sliceAcquire q.core q.strand).reply q (fun u =>
      { ((((u.setG q.dst 0).setCregs r.creg).wake.beginStep
          { mode := .opened, l := q.l, ticket := r.ticket, idx := r.index, viaCapa := true, ret := u.pc + 4,
            dA := q.dst.toNat }).acquire (s.recClock q.l)) with
        pc := BitVec.ofNat 48 r.resume })

/-- CAPR at the engine (R376); one that returns a result acquires at package scope (R377). -/
def State.doCapr (s : State) (q : SyncReq) (tk : Nat) : State :=
  let r := s.recOf q.l
  let say := fun (v : Word) =>
    (s.sliceAcquire q.core q.strand).reply q (fun u => (u.setG q.dst v).wake.acquire (s.recClock q.l))
  if tk = 0 then s.replyTrap q Cause.protection 0
  else if let some v := q.answer then say v
  else if s.recWord q.l 0x68 % 2 ^ 32 = tk then say (BitVec.ofNat 64 (s.recWord q.l 0x60))
  else if r.state = 1 ∧ r.ticket = tk then s.park q
  else s.replyTrap q Cause.protection (BitVec.ofNat 64 tk)

/-- The checks of a commit's buffered stores (R374): the pieces they write, or the first failure's cause
and address. -/
def State.commitPieces (s : State) (q : SyncReq) :
    List BufStore → Except (Nat × Nat) (List (Nat × Nat × List Nat))
  | [] => .ok []
  | b :: bs =>
    match s.keys (s.reqOf q.core q.launch q.sup false b.addr) .w b.addr b.size with
    | .error c => .error (c, b.addr)
    | .ok ks =>
      if s.partialBad ks ks then .error (Cause.uncorrectable, s.badAddr b.addr ks)
      else
        match s.commitPieces q bs with
        | .error e => .error e
        | .ok l => .ok ((b.addr, b.val.toNat % 256 ^ b.size, ks) :: l)

/-- The CAPRs that wait for a capsule's CAPE are answered with its result (R376). -/
def State.answerReaders (s : State) (l ticket : Nat) (res : Word) : State :=
  { s with
    syncs := s.syncs.map (fun r =>
      if r.arrived && r.l == l && r.op == .capr ticket then { r with answer := some res } else r) }

/-- Whether a commit waits for a page on the move (R282). -/
def State.commitStalls (s : State) (q : SyncReq) (l : List (Nat × Nat × List Nat)) : Bool :=
  s.frozenKeys (s.recKeys q.l) || l.any (fun p => s.mustStall 0 (s.reqOf q.core q.launch q.sup false p.1).cls p.1 p.2.2)

/-- The stores of a commit have been performed at the owner: the strand's later accesses to their bytes follow them (R322). -/
def State.commitBehind (s : State) (q : SyncReq) (l : List (Nat × Nat × List Nat)) : State :=
  l.foldl (fun (s : State) p => s.fallBehind q.strand q.core p.1 p.2.2.length (lastClock s.lastW p.2.2)) s

/-- CAPS and CAPE at the engine (R374, R377), after their release. -/
def State.doCaps (s : State) (q : SyncReq) (t : Strand) (d : BitVec 6) (final : Bool) (res : Word) : State :=
  let s := t.cap.stores.foldl (fun (s : State) b => s.touch (s.reqOf q.core q.launch q.sup false b.addr).cls b.addr) s
  let r := s.recOf q.l
  let c := t.cap
  if r.state ≠ 1 ∨ r.ticket ≠ c.ticket ∨ r.index ≠ c.idx
      ∨ r.holder / 2 ^ 45 ≠ holderWord (s.logicalOf t.core) t.slot c.viaCapa 0 / 2 ^ 45 then
    s.reply q (fun u => u.displacedEnd d)
  else
    match s.commitPieces q c.stores with
    | .error e => s.replyTrap q e.1 (BitVec.ofNat 64 e.2)
    | .ok l =>
      let ks := s.recKeys q.l
      if s.commitStalls q l then s
      else if final then
        let lock := r.lock % 2 ^ 61
        let fin := joinWords [lock, c.idx + 1, r.holder, r.resume]
        let own := [(q.l, fin, ks.take 32),
          (q.l + 0x60, joinWords [res.toNat, r.ticket], (ks.drop 0x60).take 16)]
        let s1 := { (s.ownerMany (l ++ own)).commitBehind q l with heldRecs := s.heldRecs.filter (· != q.l) }
        (s1.answerReaders q.l r.ticket res).reply q (fun u =>
          let u1 := { (u.setG d 0).wake with cap := { } }
          if c.viaCapa then { u1 with pc := c.ret } else u1)
      else
        let t1 := t.setG d 0
        let r1 : Rec :=
          { r with step := c.idx + 1, resume := (t.pc + 4).toNat / 2 * 2, creg := t1.cregs }
        ((s.ownerMany (l ++ [(q.l, r1.bytes, ks.take 96)])).commitBehind q l).reply q (fun u =>
          (u.setG d 0).wake.beginStep { c with idx := c.idx + 1 })

/-! ### Join counters -/

/-- A counter of a launch (R345). -/
def State.counter? (s : State) (launch j : Nat) : Option Counter :=
  s.counters.find? (fun c => c.launch == launch && c.index == j)

/-- A change of a counter. -/
def State.onCounter (s : State) (launch j : Nat) (f : Counter → Counter) : State :=
  { s with counters := s.counters.map (fun c => if c.launch == launch && c.index == j then f c else c) }

/-- Whether a handle fails the check of R346: TAG, INDEX, DIE or a reserved bit. -/
def State.badHandle (s : State) (launch h : Nat) : Bool :=
  match s.launch? launch with
  | none => true
  | some l =>
    h / 2 ^ 48 != launch % 2 ^ 16 || l.m.joinCount ≤ h % 4096 || h / 4096 % 4 != h % 4
      || h / 2 ^ 14 % 2 ^ 34 != 0

/-- Whether a counter has failed beyond correction (R415). -/
def State.counterFailed (s : State) (launch h : Nat) : Bool :=
  (s.counter? launch (h % 4096)).any (·.failed)

/-- The eight doublewords of a 64-byte record in a scratchpad. -/
def State.spadRecord (s : State) (core a : Nat) : List Word :=
  (List.range 8).map (fun i => BitVec.ofNat 64 (s.spadRead core (a + 8 * i) 8))

/-- JOININIT (R346): the record is read at issue, and the strand stalls until the engine answers. -/
def execJoininit (x : A3) (s : State) : Host.Outcome State Fault Refusal :=
  issue s { fields := [.s x.a x.pa 14, .s x.b x.pb 21, .sd x.d false 7], mem := true } (fun s' =>
    let h := (s.cur.val x.a).toNat
    let b := (s.cur.val x.b).toNat
    let d := (s.cur.val x.d).toNat
    if s.badHandle s.cur.launch h || s.counterFailed s.cur.launch h then trap s Cause.protection (s.cur.val x.a)
    else if d / 2 ^ 36 ≠ 0 ∨ d % 2 ^ 32 = 0 then trap s Cause.protection (s.cur.val x.d)
    else if b % 64 ≠ 0 then trap s Cause.misaligned (s.cur.val x.b)
    else if 0x3FFC0 ≤ b then trap s Cause.protection (s.cur.val x.b)
    else
      sendSync s s' 0 60 (.joininit h (d % 2 ^ 32) (d / 2 ^ 32) (clusterOf s.cur.core)
        (s.spadRecord s.cur.core b)))

/-- JOININIT at the engine (R346). -/
def State.doJoininit (s : State) (q : SyncReq) (h count queue cluster : Nat) (body : List Word) : State :=
  match s.counter? q.launch (h % 4096) with
  | none => s.replyTrap q Cause.protection (BitVec.ofNat 64 h)
  | some c =>
    if c.armed || c.failed then s.replyTrap q Cause.protection (BitVec.ofNat 64 h)
    else
      (s.onCounter q.launch (h % 4096) (fun c =>
        { c with armed := true, count := count, queue := queue, cluster := cluster, body := body })).reply q
        Strand.wake

/-- CAPB, CAPA, CAPR and CAPQ at the engine: the checks of R372, then the effect. -/
def State.doCapOpen (s : State) (q : SyncReq) (t : Strand) : State :=
  match s.keys (s.reqOf q.core q.launch q.sup false q.l) .r q.l 1,
        s.leaf (s.reqOf q.core q.launch q.sup false q.l).cls q.l with
  | .error c, _ => s.replyTrap q c (BitVec.ofNat 64 q.l)
  | .ok _, none => s.replyTrap q Cause.protection (BitVec.ofNat 64 q.l)
  | .ok _, some f =>
    if !f.w then s.replyTrap q Cause.protection (BitVec.ofNat 64 q.l)
    else
      match q.op with
      | .capb => s.doCapb q t
      | .capa => s.doCapa q t
      | .capr tk => s.doCapr q tk
      | _ => s.reply q (fun u => (u.setG q.dst (BitVec.ofNat 64 (s.recWord q.l 0))).wake)

/-- Whether a capsule request is performed now: the owner has applied what is causally before it (R329), the strand's own
accesses to the record come first (R322), and no write of the record stalls (R282). -/
def State.capsuleMay (s : State) (q : SyncReq) : Bool :=
  q.answer.isSome || s.causal q.l q.clock && !s.notAtOwner q.strand q.uid q.l 128 && !s.earlier q.strand q.uid q.l 128
    && !s.injectedBefore q.core q.uid q.l 128 && !s.readStalls q.l 128 && !s.frozenKeys (s.recKeys q.l)

/-- A capsule request at the engine of its record. A CAPS or CAPE is checked as R374 says only. What the slices of the owner
die hold of the record's bytes is written back first (R317). -/
def State.doCapsule (s : State) (q : SyncReq) (t : Strand) : State :=
  let cls := (s.reqOf q.core q.launch q.sup false q.l).cls
  let s := { s with recCls := (q.l, cls) :: s.recCls.filter (fun x => x.1 != q.l) }
  let s := (s.touch cls q.l).flushLines (ownerOf q.l) q.l 128
  if s.failedRecs.contains q.l then s.replyTrap q Cause.protection (BitVec.ofNat 64 q.l)
  else if s.uncorrectable (s.recKeys q.l) then
    s.replyTrap q Cause.uncorrectable (BitVec.ofNat 64 (s.badAddr q.l (s.recKeys q.l)))
  else
    match q.op with
    | .caps d final res => s.doCaps q t d final res
    | _ => s.doCapOpen q t

/-- A CAPS or CAPE at its turn (R377): it is first a release at package scope, and then leaves, with the clock of its die. -/
def State.capsTurn (s : State) (q : SyncReq) (t : Strand) : State :=
  if q.left then (if s.capsuleMay q then s.doCapsule q t else s)
  else if s.releaseReady q.strand q.uid 4 q.core then
    { s with
      syncs := s.syncs.map (fun r =>
        if r.uid == q.uid then { r with left := true, clock := (s.die (dieOf q.core)).clock } else r) }
  else s

/-- SYNC_ENGINE_OPERATION (R335, R341, R346, R372): a request reaches an engine and is performed there. Pick 0
tells a wait (0) from a JOININIT or capsule request (1), pick 1 is its place. -/
def execSyncEngineOperation (s : State) : Host.Outcome State Fault Refusal :=
  if s.arg 0 = 0 then
    match s.waits[s.arg 1]? with
    | none => .next s
    | some w =>
      if w.arrived || !s.causal w.addr w.clock || s.notAtOwner w.strand w.uid w.addr 4 || s.earlier w.strand w.uid w.addr 4
          || s.injectedBefore w.core w.uid w.addr 4 || s.readStalls w.addr 4 then .next s
      else .next (s.waitArrives (s.arg 1) w)
  else
    match s.syncs[s.arg 1]? with
    | none => .next s
    | some q =>
      match s.byUid q.strand with
      | none => .next { s with syncs := s.syncs.eraseIdx (s.arg 1) }
      | some t =>
        match q.op with
        | .joininit h n k c body => .next (s.doJoininit q h n k c body)
        | .caps _ _ _ => .next (s.capsTurn q t)
        | _ => if s.capsuleMay q then .next (s.doCapsule q t) else .next s

end Sys2Proof.Machine
end

