-- ==== Sys2Proof/Machine/Queues.lean ====
section
/-! DEFINITION. The hardware task queues (R348 to R355): ENQ, ACKW, DEQ, SUSP and SPAWN, join-counter
messages (R347), and the steps by which records travel. -/

namespace Sys2Proof.Machine

/-! ### A queue -/

/-- Entries of a queue's hardware part (R348). -/
def hwEntries : Nat := 32

/-- The settings of a queue of a launch (R110). -/
def State.queueD (s : State) (launch q : Nat) : QueueD :=
  match s.launch? launch with
  | some l => (l.m.queues.find? (fun d => d.q == q)).getD { q := q }
  | none => { q := q }

/-- A queue of a launch in a cluster; one that holds nothing is not listed. -/
def State.queue (s : State) (launch q c : Nat) : Queue :=
  (s.queues.find? (fun x => x.launch == launch && x.q == q && x.cluster == c)).getD
    { launch := launch, q := q, cluster := c }

/-- A queue set. -/
def State.setQueue (s : State) (x : Queue) : State :=
  { s with
    queues := x :: s.queues.filter (fun y => !(y.launch == x.launch && y.q == x.q && y.cluster == x.cluster)) }

/-- The address of ring entry `n` of the queue in a cluster (R348). -/
def QueueD.ringAddr (d : QueueD) (c n : Nat) : Nat := d.ringBase + 64 * d.ring * c + 64 * (n % d.ring)

/-- A record's doublewords as one value. -/
def bodyBits (b : List Word) : Nat := joinWords (b.map (·.toNat))

/-- A record's doublewords from one value. -/
def bodyOf (v : Nat) : List Word := (List.range 8).map (fun i => BitVec.ofNat 64 (v / 2 ^ (64 * i)))

/-- The body of the ring's head record: as it stands in memory where software gave the ring (R348). -/
def State.ringBody (s : State) (d : QueueD) (x : Queue) (r : QRec) : QRec :=
  if d.ringBase = 0 then r
  else { r with w := bodyOf (s.devRead (dieOfCluster x.cluster) (d.ringAddr x.cluster x.ringHead) 64) }

/-- What the read of a ring's head record leaves (R269, R273). -/
def State.touchRing (s : State) (d : QueueD) (x : Queue) : State :=
  let a := d.ringAddr x.cluster x.ringHead
  if d.ringBase = 0 || x.ring.isEmpty then s else s.touch (s.ownerClass a) a

/-- The ring's head records move into the hardware part while it has room (R349). -/
def State.refill (s : State) (d : QueueD) (x : Queue) : Nat → Queue
  | 0 => x
  | n + 1 =>
    match x.ring with
    | [] => x
    | r :: rs =>
      if x.hw.length < hwEntries then
        s.refill d { x with hw := x.hw ++ [s.ringBody d x r], ring := rs, ringHead := x.ringHead + 1 } n
      else x

/-- Whether a queue has room for one more record than `n` (R349). -/
def State.queueRoom (s : State) (launch q c n : Nat) : Bool :=
  let x := s.queue launch q c
  x.hw.length + x.ring.length + n < hwEntries + (s.queueD launch q).ring

/-- The number of the oldest DEQ that waits on a queue in a slot (R350). -/
def State.oldestDeq (s : State) (launch q c : Nat) : Option Pend :=
  s.pends.find? (fun p => p.launch == launch && clusterOf p.core == c
    && (match p.op with | .deq q' _ _ none => q' == q | _ => false))

/-- The oldest DEQ that waits on a queue out of its slot, without a record yet (R355). -/
def State.oldestLeft (s : State) (launch q c : Nat) : Option DeqWaiter :=
  s.deqWaiters.find? (fun w => w.launch == launch && w.q == q && w.cluster == c && w.held.isNone)

/-- Whether the oldest waiter of a queue is out of its slot (R355). -/
def State.leftFirst (s : State) (launch q c : Nat) : Option DeqWaiter :=
  match s.oldestLeft launch q c, s.oldestDeq launch q c with
  | some w, some p => if w.uid < p.uid then some w else none
  | some w, none => some w
  | none, _ => none

/-- The head record of a queue removed, and the ring's moved up. -/
def State.popQueue (s : State) (launch q c : Nat) : State :=
  let x := s.queue launch q c
  (s.touchRing (s.queueD launch q) x).setQueue (s.refill (s.queueD launch q) { x with hw := x.hw.drop 1 } hwEntries)

/-- The queue holds head records for waiters whose turn has come and that are out of their slots (R355). -/
def State.holdHeads (s : State) (launch q c : Nat) : Nat → State
  | 0 => s
  | n + 1 =>
    match (s.queue launch q c).hw, s.leftFirst launch q c with
    | r :: _, some w =>
      let s1 := s.popQueue launch q c
      let give := fun (y : DeqWaiter) => if y.uid == w.uid then { y with held := some r } else y
      State.holdHeads { s1 with deqWaiters := s1.deqWaiters.map give } launch q c n
    | _, _ => s

/-- A record placed in a queue (R349): in the hardware part if it has room and the ring is empty, else at
the ring's tail. -/
def State.placeRec (s : State) (launch q c : Nat) (r : QRec) : State :=
  let d := s.queueD launch q
  let x := s.refill d (s.queue launch q c) hwEntries
  let s1 :=
    if x.ring.isEmpty && x.hw.length < hwEntries then s.setQueue { x with hw := x.hw ++ [r] }
    else
      let s2 := s.setQueue { x with ring := x.ring ++ [r], ringTail := x.ringTail + 1 }
      if d.ringBase = 0 then s2
      else s2.devWrite (dieOfCluster c) (d.ringAddr c x.ringTail) 64 (bodyBits r.w)
  s1.holdHeads launch q c hwEntries

/-- Whether a launch uses a cluster (R110), and has not been retired (R444). -/
def State.usesCluster (s : State) (launch c : Nat) : Bool :=
  match s.launch? launch with
  | some l => l.clusters.contains c && l.stage != .over
  | none => false

/-- Records on their way to a queue from a die of its own. -/
def State.onWay (s : State) (launch q c : Nat) : Nat :=
  (s.enqs.filter (fun e => e.target == launch && e.q == q && e.cluster == c && !e.credit && !e.spawn && e.pkg.isNone
    && e.origin.isNone)).length

/-- Credits of a source die for a cluster that are taken (R140). -/
def State.creditsUsed (s : State) (d c : Nat) : Nat :=
  (s.enqs.filter (fun e => e.credit && dieOf e.core == d && e.cluster == c)).length
    + (s.creditRets.filter (fun r => r.1 == d && r.2 == c)).length

/-- Whether an enqueue into a queue of a launch must stall (R140, R349): no room in a queue of the die, or no
credit of another die's. -/
def State.enqStalls (s : State) (core launch q c : Nat) : Bool :=
  let flow := s.enqs.filter (fun e => e.core == core && e.cluster == c && e.pkg.isNone && !e.spawn)
  if dieOf core = dieOfCluster c then decide (32 ≤ flow.length) || !s.queueRoom launch q c (s.onWay launch q c)
  else decide (16 ≤ s.creditsUsed (dieOf core) c)

/-- A record sent to a queue of a launch by the strand that issues (R351): it is placed once its release has completed. One
for another die of the package takes a credit (R140). -/
def State.sendRec (s : State) (target q c : Nat) (r : QRec) (scope : Nat) (ticket pkg : Option Nat) : State :=
  let e : EnqMsg :=
    { uid := s.nextUid, strand := s.cur.uid, core := s.cur.core, launch := s.cur.launch, target := target, q := q
      cluster := c, body := r, scope := scope, ticket := ticket, pkg := pkg
      credit := pkg.isNone && dieOf s.cur.core != dieOfCluster c }
  ({ s with enqs := s.enqs ++ [e] }).fresh

/-! ### ENQ and ACKW -/

/-- e0 to e7 as a record (R29). -/
def Strand.erecord (t : Strand) : List Word := t.e.toList

/-- Reserved bits of a target word (R351). -/
def enqReserved (v : Nat) : Bool := v / 2 ^ 24 != 0 || v / 2 ^ 11 % 16 != 0

/-- ENQ with or without a ticket (R351, R352). -/
def enqOp (fs : List Field) (a b : BitVec 6) (ack : Option (BitVec 6)) (s : State) :
    Host.Outcome State Fault Refusal :=
  issue s { fields := fs, mem := true } (fun s' =>
    let v := (s.cur.val a).toNat
    let q := v % 16
    let c := v / 16 % 64
    let other := v / 2 ^ 15 % 2 == 1
    let away := other && v / 2 ^ 16 % 256 != (s.die (dieOf s.cur.core)).package
    let target := if other then (s.cur.val b).toNat % 2 ^ 32 else s.cur.launch
    let r : QRec := { w := s.cur.erecord, run := v / 2 ^ 10 % 2 == 1 }
    if enqReserved v || !other && !s.usesCluster s.cur.launch c then trap s Cause.protection (s.cur.val a)
    else if ack.isSome && decide (64 ≤ s.cur.ackPend.length) then stall s
    else if !away && s.enqStalls s.cur.core target q c then stall s
    else
      let tk := s.cur.tickets % 65536
      let ticket := ack.map (fun _ => tk)
      let s1 := s'.sendRec target q c r (max 4 (s.queueD target q).scope) ticket (if away then some (v / 2 ^ 16 % 256) else none)
      match ack with
      | none => finish s1 4 (fun t => t)
      | some d =>
        finish s1 4 (fun t =>
          { t.setG d (BitVec.ofNat 64 tk) with tickets := t.tickets + 1, ackPend := t.ackPend ++ [tk] }))

/-- ENQ (R351). -/
def execEnq (x : AB) (s : State) : Host.Outcome State Fault Refusal :=
  enqOp [.s x.a x.pa 14, .s x.b x.pb 21] x.a x.b none s

/-- ENQ.ack (R351, R352). -/
def execEnqAck (x : A3) (s : State) : Host.Outcome State Fault Refusal :=
  enqOp [.s x.a x.pa 14, .s x.b x.pb 21, .d x.d 7] x.a x.b (some x.d) s

/-- Whether a number is one of the strand's last 64 tickets (R353). -/
def Strand.knowsTicket (t : Strand) (k : Nat) : Bool :=
  (List.range (min 64 t.tickets)).any (fun j => (t.tickets - 1 - j) % 65536 == k)

/-- ACKW (R353): the strand stalls until the acknowledgement has arrived; meanwhile a write is pending on its destination
(R28). -/
def execAckw (x : A2) (s : State) : Host.Outcome State Fault Refusal :=
  let s := if s.cur.wait.kind = .ackw then s.onCur s.unbook else s
  issue s { fields := [.s x.a x.pa 14, .d x.d 7], mem := true } (fun s' =>
    let k := (s.cur.val x.a).toNat % 65536
    if !s.cur.knowsTicket k then trap s Cause.protection (s.cur.val x.a)
    else if s.cur.ackPend.contains k then
      let since := if s.cur.wait.kind = .ackw then s.cur.wait.since else s.cycles
      .next { s.onCur (fun t => { t.book x.d with wait := { kind := .ackw, n := k, since := since } }) with stalled := true }
    else
      finish s' 4 (fun t =>
        { (t.setG x.d (if t.acks.getLsbD (k % 64) then 1 else 0)).unpark with wait := { } }))

/-! ### Records that arrive -/

/-- Whether an earlier record of the same agent to the same queue is still on its way, a SPAWN's that may yet be enqueued
among them (R349). -/
def State.recBefore (s : State) (e : EnqMsg) : Bool :=
  s.enqs.any (fun f => f.uid < e.uid && f.strand == e.strand && f.core == e.core && f.target == e.target
    && f.q == e.q && f.cluster == e.cluster && f.pkg == e.pkg && f.origin == e.origin)

/-- A status for the ticket of a record, sent back (R352); of one from another package it leaves this one. -/
def State.sendAck (s : State) (e : EnqMsg) (status : Bool) : State :=
  match (if e.origin.isSome then none else e.ticket) with
  | none => s
  | some k => { s with acks := s.acks ++ [{ strand := e.strand, ticket := k, status := status }] }

/-- A record of this package discarded in another one without an acknowledgement (R352): the drover core there reports it to
its sender's owner. Its number and its time are another package's: free. -/
def State.discardedAway (s : State) (e : EnqMsg) : State :=
  match s.launch? e.launch with
  | none => s
  | some l =>
    let m : Msg :=
      { uid := s.nextUid, launch := e.launch, die := dieOf e.core, core := 16384 + e.pkg.getD 0
        w := BitVec.ofNat 64 (2 ^ 52 + 2 ^ 50 + 0xFFFF * 2 ^ 32 + l.m.ownerClass * 2 ^ 16 + 4) :: s.freeWord :: l.m.ownerKey
          :: List.replicate 5 0 }
    ({ s with msgs := s.msgs ++ [m], tick := s.tick + 1 }).fresh

/-- ENQ_RECORD_ARRIVAL (R349, R351, R352): once its release has completed, a record is placed, with the clock of what was
released, acknowledged, and its credit sent back; one of a launch or a cluster that is gone is discarded. Pick 0 is its place.
Of one for another package, pick 1 is the status that comes back from there; of one from another package, the
acknowledgement or the report goes there. -/
def execEnqRecordArrival (s : State) : Host.Outcome State Fault Refusal :=
  match s.enqs[s.arg 0]? with
  | none => .next s
  | some e =>
    let s1 := { s with enqs := s.enqs.eraseIdx (s.arg 0) }
    if e.spawn || s.recBefore e || e.origin.isNone && !s.releaseReady e.strand e.uid e.scope e.core then .next s
    else if e.pkg.isSome then
      .next (if e.ticket.isNone && s.arg 1 == 1 then s1.discardedAway e else s1.sendAck e (s.arg 1 == 1))
    else
      let back := fun (s : State) =>
        if e.credit then { s with creditRets := s.creditRets ++ [(dieOf e.core, e.cluster)] } else s
      if !s.usesCluster e.target e.cluster then
        let s2 := back (s1.sendAck e true)
        .next (if e.ticket.isNone && e.origin.isNone then s2.report (dieOfCluster e.cluster) e.launch 4 [] else s2)
      else if !s.queueRoom e.target e.q e.cluster 0 then .next s
      else
        let r := { e.body with clock := joinClock e.body.clock (s.die (dieOf e.core)).clock }
        .next (back ((s1.placeRec e.target e.q e.cluster r).sendAck e false))

/-- ENQ_ACK_ARRIVAL (R352): an acknowledgement reaches its strand. Pick 0 is its place. -/
def execEnqAckArrival (s : State) : Host.Outcome State Fault Refusal :=
  match s.acks[s.arg 0]? with
  | none => .next s
  | some a =>
    let bit : BitVec 64 := BitVec.ofNat 64 (2 ^ (a.ticket % 64))
    .next ({ s with acks := s.acks.eraseIdx (s.arg 0) }.onUid a.strand (fun t =>
      { t with
        ackPend := t.ackPend.filter (· != a.ticket)
        acks := if a.status then t.acks ||| bit else t.acks &&& ~~~bit }))

/-- VC3_CREDIT_RETURN (R140): a credit is back at its die. Pick 0 is its place. -/
def execVc3CreditReturn (s : State) : Host.Outcome State Fault Refusal :=
  .next { s with creditRets := s.creditRets.eraseIdx (s.arg 0) }

/-! ### DEQ -/

/-- The capsule check of DEQ and SUSP, which a handler may not execute at all (R51, R354). DEDUCED (log entry 16): there
ILLEGAL_INSTRUCTION comes before CAPSULE_LIMIT. -/
def handlerFirst (s : State) : CapUse := if s.cur.isHandler then .unchecked else .outside

/-- DEQ (R354): a long-latency producer; a continuation that executes it again takes the record held for it
(R355). -/
def execDeq (x : A3) (s : State) : Host.Outcome State Fault Refusal :=
    issue s { fields := [.s x.a x.pa 14, .s x.b x.pb 21, .d x.d 7], mem := true, cap := handlerFirst s } (fun s' =>
      if s.cur.isHandler then illegal s (.deq x) else
      let q := (s.cur.val x.a).toNat
      let b := (s.cur.val x.b).toNat
      if 16 ≤ q then trap s Cause.protection (s.cur.val x.a)
      else if b % 64 ≠ 0 then trap s Cause.misaligned (s.cur.val x.b)
      else if 0x3FFC0 ≤ b then trap s Cause.protection (s.cur.val x.b)
      else
        finish (s'.pendOn x.d.toNat true (.deq q b s.cur.pc s.cur.heldRec)) 4
          (fun t => { t with heldRec := none }))

/-- A DEQ that takes a record (R354): its 64 bytes go to the scratchpad and word 0 to the destination, and the strand
acquires what was released with the record (R331). -/
def State.deqTakes (s : State) (p : Pend) (addr : Nat) (body : List Word) (clock : List Nat) : State :=
  ((s.spadPut p.core addr 64 (bodyBits body) (fullMask 64)).answerVal p (body.headD 0).toNat).onUid p.strand
    (fun t => t.acquire clock)

/-- A DEQ's turn (R350, R354): it is the oldest waiter, and the queue has a head record. -/
def State.doDeq (s : State) (p : Pend) (q addr : Nat) (held : Option (List Word)) : State :=
  match held with
  | some b => s.deqTakes p addr b []
  | none =>
    let c := clusterOf p.core
    match (s.queue p.launch q c).hw, s.oldestDeq p.launch q c with
    | r :: _, some o =>
      if o.uid = p.uid ∧ (s.leftFirst p.launch q c).isNone = true then
        ((s.popQueue p.launch q c).deqTakes p addr r.w r.clock).holdHeads p.launch q c hwEntries
      else s
    | _, _ => s

/-- A launch counts what it discards at its end (R445). -/
def State.discard (s : State) (launch n : Nat) : State :=
  { s with launches := s.launches.map (fun l => if l.id == launch then { l with discarded := l.discarded + n } else l) }

/-- Whether a launch's END has taken effect (R443). -/
def State.ending (s : State) (launch : Nat) : Bool :=
  (s.launch? launch).any (fun l => l.stage == .ending || l.stage == .over)

/-- The DEQ of a strand that blocks on an empty queue. -/
def State.blockedDeq (s : State) (t : Strand) : Option Pend :=
  s.pends.find? (fun p => p.strand == t.uid
    && (match p.op with | .deq q _ _ none => (s.queue p.launch q (clusterOf p.core)).hw.isEmpty | _ => false))

/-- Whether a strand's launch is drained from its core, or ends (R199, R443). -/
def State.mustLeave (s : State) (t : Strand) : Bool :=
  s.ending t.launch || (s.holdOf t.core t.launch).any (fun h => h.drained.isSome)

/-- Whether a strand suspends at its blocked DEQ (R355): its launch is drained or ends, and nothing else of
it is in flight. -/
def State.deqLeaves (s : State) (t : Strand) : Option Pend :=
  match s.blockedDeq t with
  | none => none
  | some p =>
    if s.mustLeave t && !s.pends.any (fun r => r.strand == t.uid && r.uid != p.uid)
        && !s.sfu.any (fun e => e.strand == t.uid) && !s.recs.any (fun e => e.strand == t.uid)
        && s.writtenBack t.uid && !s.nops.any (fun n => n.strand == t.uid)
        && !s.stores.any (fun x => x.strand == t.uid && x.stage == .issued) then some p
    else none

/-- A waiter put in its place among those of the queues: that of its DEQ's age (R355). -/
def insertWaiter (w : DeqWaiter) : List DeqWaiter → List DeqWaiter
  | [] => [w]
  | x :: xs => if w.uid < x.uid then w :: x :: xs else x :: insertWaiter w xs

/-- A strand suspends at its blocked DEQ (R355): the queue's waiter list keeps its continuation, or, of an
ending launch, it is discarded (R443). -/
def State.deqSuspend (s : State) (t : Strand) (p : Pend) : State :=
  let s1 := { s with pends := s.pends.filter (fun r => r.uid != p.uid) }
  match p.op with
  | .deq q _ pc _ =>
    if s.ending t.launch then (s1.leaveSlot t).discard t.launch 1
    else
      let w : DeqWaiter :=
        { uid := p.uid, launch := p.launch, q := q, cluster := clusterOf p.core, body := contRecord t pc,
          clock := joinClock t.need (s.die (dieOf t.core)).clock, core := t.core, slot := t.slot }
      ({ s1 with deqWaiters := insertWaiter w s1.deqWaiters }).leaveSlot t
  | _ => s

/-! ### SUSP and SPAWN -/

/-- SUSP (R51): the continuation goes to a queue of the strand's own cluster and the slot becomes free. DESIGN CHOICE (log
entry 51): a supervisor strand's goes to launch 0, which uses no cluster, so that the record is discarded on arrival. -/
def execSusp (x : A1) (s : State) : Host.Outcome State Fault Refusal :=
    issue s { fields := [.s x.a x.pa 14, suspField], cap := handlerFirst s } (fun s' =>
      if s.cur.isHandler then illegal s (.susp x) else
      let q := (s.cur.val x.a).toNat % 16
      let c := clusterOf s.cur.core
      let u := s.cur.uid
      if !s.noPends u || s.nops.any (fun n => n.strand == u) || !s.writtenBack u then stall s
      else if s.ending s.cur.launch then .next ((s'.leaveSlot s.cur).discard s.cur.launch 1)
      else if s.enqStalls s.cur.core s.cur.launch q c then stall s
      else
        let r : QRec := { w := contRecord s.cur (s.cur.pc + 4), run := true, clock := s.cur.need }
        .next ((s'.sendRec s.cur.launch q c r (max 4 (s.queueD s.cur.launch q).scope) none none).leaveSlot s.cur))

/-- SPAWN (R54): the record is placed once the release has completed; the strand goes on. -/
def execSpawn (x : AB) (s : State) : Host.Outcome State Fault Refusal :=
  issue s { fields := [.s x.a x.pa 14, .s x.b x.pb 21, spawnField] } (fun s' =>
    if !targetOk (s.cur.val x.a) then trap s Cause.misaligned (s.cur.val x.a)
    else
      let body := s.cur.val x.a :: s.cur.val x.b :: (List.range 6).map (fun i => (s.cur.reg i).val)
      let e : EnqMsg :=
        { uid := s.nextUid, strand := s.cur.uid, core := s.cur.core, launch := s.cur.launch,
          target := s.cur.launch, q := 0, cluster := clusterOf s.cur.core, body := { w := body, run := true },
          scope := max 1 (s.queueD s.cur.launch 0).scope, spawn := true }
      finish ({ s' with enqs := s'.enqs ++ [e] }).fresh 4 (fun t => t))

/-- A boot strand's or drover strand's child on a slot (R54): supervisor mode, the registers of a
continuation. -/
def supChild (s : State) (core slot : Nat) (kind : Kind) (body : List Word) : Strand :=
  { live := true, uid := s.nextUid, core := core, slot := slot, mode := .supervisor, kind := kind,
    pc := (body.headD 0).setWidth 48, gk := contRegs (body.getD 1 0) (body.drop 2) }

/-- The team whose core a child starts on (R54); the child of a handler on a core with no team of its launch has no team and
no carve-out (the assumption log, 44). -/
def State.childHold (s : State) (e : EnqMsg) : Hold :=
  (s.holdOf e.core e.launch).getD { core := e.core, launch := e.launch, kernel := 65536 }

/-- SPAWN_PLACE (R54): once the release at team scope has completed, the child starts on a free slot of the core, else its
record is enqueued once its release at the wider of team scope and the queue's has. Pick 0 is the record's place, pick 1 the
slot. DESIGN CHOICE (log entry 18): the child of a supervisor strand, which has no queue, waits for a slot instead, and its record is
gone once its parent has ended. -/
def execSpawnPlace (s : State) : Host.Outcome State Fault Refusal :=
  match s.enqs[s.arg 0]? with
  | none => .next s
  | some e =>
    let s1 := { s with enqs := s.enqs.eraseIdx (s.arg 0) }
    let free := [0, 1, 2, 3].filter (fun n => s.slotFree e.core n)
    let slot := if free.contains (s.arg 1) then s.arg 1 else free.headD 4
    if !e.spawn || !s.releaseReady e.strand e.uid 1 e.core then .next s
    else
      match s.launch? e.launch with
      | some l =>
        let h := s.childHold e
        if s.ending e.launch then .next (s1.discard e.launch 1)
        else if slot < 4 && !h.ended && h.ending.isNone && h.drained.isNone then .next (s1.startRecord e.core slot l h e.body)
        else .next { s with enqs := s.enqs.set (s.arg 0) { e with spawn := false } }
      | none =>
        match s.byUid e.strand with
        | some t =>
          if t.mode = .supervisor ∧ slot < 4 then
            .next (s1.addStrand (supChild s e.core slot t.kind e.body.w)).fresh
          else .next s
        | none => .next s1

/-! ### Counter messages -/

/-- Messages of a core on their way to a die's units (R141). -/
def State.flowCount (s : State) (core : Nat) (p : Msg → Bool) : Nat :=
  (s.msgs.filter (fun m => m.core == core && p m)).length

/-- Word 0 of a counter message: COUNTER, and the sender (R115). -/
def counterHead (sender : Nat) : Word := BitVec.ofNat 64 (2 ^ 48 + sender * 2 ^ 32)

/-- Whether a message is a counter message (R115). -/
def Msg.isCounter (m : Msg) : Bool := (m.w.headD 0).getLsbD 48

/-- Whether a message is an item of a twin's run, on its way to the comparator (R173). -/
def Msg.isItem (m : Msg) : Bool := m.stage == MsgStage.twin || m.stage == MsgStage.twinDone

/-- JOINDEC (R347): a counter message to the counter's die, of a twin to its comparator (R173); the strand stalls only while
the flow is full (R141). -/
def execJoindec (x : AB) (s : State) : Host.Outcome State Fault Refusal :=
  issue s { fields := [.s x.a x.pa 14, .s x.b x.pb 21], mem := true } (fun s' =>
    let h := (s.cur.val x.a).toNat
    let d := h / 4096 % 4
    if s.badHandle s.cur.launch h || s.counterFailed s.cur.launch h then trap s Cause.protection (s.cur.val x.a)
    else if s.cur.twin.isSome && decide (32 ≤ s.cur.twinSends) then trap s Cause.protection 33
    else if 32 ≤ s.flowCount s.cur.core (fun m => if s.cur.twin.isSome then m.isItem && m.entry == s.cur.entry
        else m.isCounter && !m.isItem && (m.w.getD 2 0).toNat / 4096 % 4 == d) then stall s
    else
      let m : Msg :=
        { uid := s.nextUid, launch := s.cur.launch, die := dieOf s.cur.core, strand := some s.cur.uid,
          core := s.cur.core, stage := if s.cur.twin.isSome then .twin else .queued, entry := s.cur.entry
          w := [counterHead (s.logicalOf s.cur.core), BitVec.ofNat 64 (s.cur.seq * 2 ^ 48 + s.timeNs % 2 ^ 48),
            s.cur.val x.a, BitVec.ofNat 64 ((s.cur.val x.b).toNat % 2 ^ 32), 0, 0, 0, 0] }
      finish ({ s' with msgs := s'.msgs ++ [m] }).fresh 4 (fun t => { t with twinSends := t.twinSends + 1 }))

/-- The counter's record placed by its engine, as ENQ places it (R347). -/
def State.fireCounter (s : State) (launch d : Nat) (c : Counter) : State :=
  let e : EnqMsg :=
    { uid := s.nextUid, core := cornerOf d, launch := launch, target := launch, q := c.queue, cluster := c.cluster,
      body := { w := c.body, run := true, clock := c.clock }, scope := 4, credit := d != dieOfCluster c.cluster }
  ({ s with enqs := s.enqs ++ [e] }).fresh

/-- COUNTER_MESSAGE (R347): a counter message at its engine, in the order of its flow (R141). Pick 0 is its
place. -/
def execCounterMessage (s : State) : Host.Outcome State Fault Refusal :=
  match s.msgs[s.arg 0]? with
  | none => .next s
  | some m =>
    let h := (m.w.getD 2 0).toNat
    let n := (m.w.getD 3 0).toNat % 2 ^ 32
    let d := h / 4096 % 4
    let before := (s.msgs.take (s.arg 0)).any (fun o => o.isCounter && !o.isItem && o.core == m.core
      && (o.w.getD 2 0).toNat / 4096 % 4 == d)
    let s1 := { s with msgs := s.msgs.eraseIdx (s.arg 0) }
    let rep := fun (s : State) (count : Nat) =>
      s.report d m.launch 3 [m.w.getD 2 0, BitVec.ofNat 64 n, BitVec.ofNat 64 count,
        BitVec.ofNat 64 ((m.w.headD 0).toNat / 2 ^ 32 % 65536)]
    if !m.isCounter || m.stage != .sent || before then .next s
    else
      match s.counter? m.launch (h % 4096) with
      | none => .next s1
      | some c =>
        if c.failed then .next s1
        else if !c.armed then .next (rep s1 c.count)
        else if n = 0 ∨ n < c.count then
          .next (s1.onCounter m.launch (h % 4096) (fun c =>
            { c with count := c.count - n, clock := joinClock c.clock m.clock }))
        else if d ≠ dieOfCluster c.cluster ∧ 16 ≤ s.creditsUsed d c.cluster then .next s
        else
          let s2 := s1.onCounter m.launch (h % 4096) (fun c => { c with count := 0, armed := false, clock := [] })
          let s3 := if c.count < n then rep s2 c.count else s2
          .next (s3.fireCounter m.launch d { c with clock := joinClock c.clock m.clock })

end Sys2Proof.Machine
end

