-- ==== Sys2Proof/Machine/Tiles.lean ====
section
/-! DEFINITION. The tile table (R284 to R287), the shape record's walk (R292, R293) and the copy engine
(R288 to R297, R303, R304), with JWAIT and JTEST (R343, R344). -/

namespace Sys2Proof.Machine

/-! ### Tile entries -/

/-- Bits `lo` to `lo + n - 1` of an entry. -/
def bitsOf (e : Word) (lo n : Nat) : Nat := e.toNat / 2 ^ lo % 2 ^ n

/-- Those bits set to a value. -/
def putBits (e : Word) (lo n v : Nat) : Word :=
  BitVec.ofNat 64 (e.toNat - bitsOf e lo n * 2 ^ lo + v % 2 ^ n * 2 ^ lo)

/-- GEN (R284). -/
def tGen (e : Word) : Nat := bitsOf e 56 8
/-- SCALE (R284). -/
def tScale (e : Word) : Nat := bitsOf e 48 8
/-- FORMAT (R284). -/
def tFormat (e : Word) : Nat := bitsOf e 40 8
/-- PLANES (R284). -/
def tPlanes (e : Word) : Nat := bitsOf e 36 4
/-- The rows and columns of a tile: 16 or 32 (SHAPE, R284). -/
def tSide (e : Word) : Nat := if e.getLsbD 35 then 32 else 16
/-- STATE (R284): 0 EMPTY, 1 FILLING, 2 READY, 3 DRAINING. -/
def tState (e : Word) : Nat := bitsOf e 32 2
/-- TENSOR (R284). -/
def tTensor (e : Word) : Nat := bitsOf e 22 10
/-- TVAL (R284). -/
def tVal (e : Word) : Bool := e.getLsbD 21
/-- The scratchpad address of a tile (BASE, R284). -/
def tBase (e : Word) : Nat := bitsOf e 7 11 * 128

/-- An entry with STATE set. -/
def tSetState (e : Word) (v : Nat) : Word := putBits e 32 2 v

/-- GEN advanced modulo 256. -/
def tNextGen (e : Word) : Word := putBits e 56 8 (tGen e + 1)

/-- Bytes a tile occupies (R285). -/
def tileSize (f planes side : Nat) : Nat :=
  if fmtPlanes f = 0 then side * side * fmtBits f / 8 else planes * (side * side / 8)

/-- An entry of a core's tile table. -/
def State.tile (s : State) (core n : Nat) : Word := (s.core core).tiles.getD n emptyTile

/-- What else uses a tile. -/
def State.use (s : State) (core n : Nat) : TileUse := (s.core core).uses.getD n { }

/-- An entry of a core's tile table set. -/
def State.setTile (s : State) (core n : Nat) (e : Word) : State :=
  s.onCore core (fun c => { c with tiles := c.tiles.set n e })

/-- A change of what else uses a tile. -/
def State.onUse (s : State) (core n : Nat) (f : TileUse → TileUse) : State :=
  s.onCore core (fun c => { c with uses := c.uses.modify n f })

/-- Whether an entry is busy (R286). -/
def State.tileBusy (s : State) (core n : Nat) : Bool :=
  tState (s.tile core n) == 1 || tState (s.tile core n) == 3 || (s.use core n).pins != 0
    || (s.use core n).holds != 0

/-- An entry as a read finds it: PIN is 1 while a sample holds the tile (R309). -/
def State.tileRead (s : State) (core n : Nat) : Word :=
  putBits (s.tile core n) 34 1 (if (s.use core n).pins = 0 then 0 else 1)

/-- Tensors of a strand's launch. -/
def State.tensors (s : State) (launch : Nat) : List TensorD :=
  match s.launch? launch with
  | some l => l.m.tensors
  | none => []

/-- Whether a TDEF value fails (R287). -/
def tdefBad (e : Word) (tensors : Nat) : Bool :=
  bitsOf e 0 7 != 0 || bitsOf e 18 3 != 0 || tGen e != 0 || bitsOf e 34 1 != 0
    || tState e == 1 || tState e == 3 || !fmtLegal (tFormat e)
    || (if fmtPlanes (tFormat e) = 0 then tPlanes e != 0 else tPlanes e == 0 || fmtPlanes (tFormat e) < tPlanes e)
    || tScale e == 0xFF || (tVal e && tensors ≤ tTensor e)
    || Config.spadBytes < tBase e + tileSize (tFormat e) (tPlanes e) (tSide e)

/-- TDEF (R287). -/
def execTdef (n : BitVec 5) (x : A1) (s : State) : Host.Outcome State Fault Refusal :=
  issue s { fields := [.s x.a x.pa 14], mem := true } (fun s' =>
    let e := s.cur.val x.a
    let old := s.tile s.cur.core n.toNat
    if s.tileBusy s.cur.core n.toNat then stall s
    else if tdefBad e (s.tensors s.cur.launch).length then trap s Cause.protection e
    else
      finish ((s'.setTile s.cur.core n.toNat (putBits e 56 8 (tGen old + 1))).onUse s.cur.core n.toNat
        (fun u => { u with job := 0, origin := 0 })) 4 (fun t => t))

/-- TREL (R287). -/
def execTrel (n : BitVec 5) (s : State) : Host.Outcome State Fault Refusal :=
  issue s { mem := true } (fun s' =>
    if s.tileBusy s.cur.core n.toNat then stall s
    else
      finish (s'.setTile s.cur.core n.toNat (tNextGen (tSetState (s.tile s.cur.core n.toNat) 0))) 4 (fun t => t))

/-- TSTAT (R287). -/
def execTstat (n : BitVec 5) (d : BitVec 6) (s : State) : Host.Outcome State Fault Refusal :=
  issue s { fields := [.d d 7], mem := true } (fun s' =>
    finish s' 4 (fun t => t.result d (s.tileRead s.cur.core n.toNat)))

/-- Stores that no engine read need look behind any longer: of each unit, those up to the last that `p` picks. -/
def LateStore.dropTo (p : LateStore → Bool) : List LateStore → List LateStore
  | [] => []
  | e :: es =>
    if (e :: es).any (fun x => x.core == e.core && x.unit == e.unit && p x) then LateStore.dropTo p es
    else e :: LateStore.dropTo p es

/-- The scratchpad stores of the strand that issues come before the engine work issued from now on (R69); those that no earlier
work of the core may still overlook need not be kept. -/
def State.fenceSpad (s : State) : State :=
  let mine := fun (e : LateStore) => e.strand == s.cur.uid && e.core == s.cur.core && e.fenced.isNone
  let idle := !s.jobs.any (fun j => j.core == s.cur.core) && !s.mxCmds.any (fun c => c.core == s.cur.core)
    && !s.samples.any (fun x => x.core == s.cur.core)
  { s with
    late := if idle then LateStore.dropTo (fun e => mine e || e.core == s.cur.core && e.fenced.isSome) s.late
      else s.late.map (fun e => if mine e then { e with fenced := some s.nextUid } else e) }

/-- FENCESP (R69): the strand's scratchpad stores come before later engine reads, and the generations of the tiles in the mask
advance. -/
def execFencesp (x : A1) (s : State) : Host.Outcome State Fault Refusal :=
  issue s { fields := [.s x.a x.pa 14] } (fun s' =>
    let m := (s.cur.val x.a).toNat
    finish (s'.fenceSpad.onCore s.cur.core (fun c =>
      { c with tiles := c.tiles.mapIdx (fun i e => if m / 2 ^ i % 2 = 1 then tNextGen e else e) })) 4 (fun t => t))

/-! ### The engine's accesses -/

/-- The scope a job's operand names (R290). -/
def jobScope (v : Word) : Nat := if v.toNat / 2 ^ 61 = 0 then 3 else v.toNat / 2 ^ 61

/-- The requester of a job. -/
def State.reqJob (s : State) (j : Job) (a : Nat) : Req := s.reqOf j.core j.launch j.sup false a

/-- What a job's access answers where it must wait: no cause has this number. -/
def jobWaits : Nat := 0

/-- The agents whose releases wait for a job's slice writes (R323, R330): the issuing strand, and its core's copy queue. -/
def copyAgent (core : Nat) : Nat := 2 ^ 40 + core

/-- A plain load of a job at its scope (R289): the value and the state after, or the cause. It waits behind a stalled write
(R282). -/
def State.jobRead (s : State) (j : Job) (a n : Nat) : Except Nat (State × Nat) :=
  let s := s.touch (s.reqJob j a).cls a
  let c := clusterOf j.core
  match s.keys (s.reqJob j a) .r a n with
  | .error k => .error k
  | .ok ks =>
    if s.uncorrectable ks then .error Cause.uncorrectable
    else if s.readStalls a n then .error jobWaits
    else if j.scope = 1 ∨ j.scope = 2 then .ok (s, s.sliceRead c a ks)
    else if s.slices.any (fun x => x.cluster == c && overlap x.addr 1 a n) then
      (if (linesOf a n).any (fun l => s.lineFrozen c l) then .error jobWaits
      else
        let s1 := s.writeBackLines c a n
        .ok (s1, s1.viewRead (dieOf j.core) a ks))
    else .ok (s, s.viewRead (dieOf j.core) a ks)

/-- A plain store of a job at its scope. -/
def State.jobWrite (s : State) (j : Job) (a n v mask : Nat) : Except Nat State :=
  let q := s.reqJob j a
  let s := s.touch q.cls a
  match s.keys q .w a n with
  | .error c => .error c
  | .ok ks =>
    if s.partialBad ks ks || mask != fullMask n && s.uncorrectable ks then .error Cause.uncorrectable
    else if j.scope = 1 ∨ j.scope = 2 then
      .ok ((s.sliceRoom (clusterOf j.core) a n).sliceWrite (clusterOf j.core) j.launch [j.strand, copyAgent j.core] [] a v mask ks)
    else if ownerOf a == dieOf j.core && s.mustStall 0 q.cls a ks then .error jobWaits
    else
      let st : Store :=
        { uid := s.nextUid, ord := s.nextUid, origin := .engine, core := j.core, launch := j.launch, sup := j.sup, addr := a,
          size := n, val := v, mask := mask, base := a, span := n, scope := j.scope, cls := q.cls, job := j.uid }
      .ok ((s.flushLines (dieOf j.core) a n).performStore (dieOf j.core) st ks).fresh

/-! ### Jobs at issue -/

/-- Whether an identifier belongs to a pending job of a core (R290). -/
def State.idPending (s : State) (core id : Nat) : Bool :=
  s.jobs.any (fun j => j.core == core && j.id == id && !j.isDrain)

/-- Whether a job operand fails (R294 step 2). -/
def jobOperandBad (v : Word) : Bool := v.toNat / 2 ^ 52 % 2 ^ 9 != 0 || 6 ≤ v.toNat / 2 ^ 61

/-- Whether a core's copy queue has room (R289). -/
def State.copyRoom (s : State) (core : Nat) : Bool := (s.jobs.filter (fun j => j.core == core)).length < 256

/-- The mailbox word of an identifier (R291). -/
def State.mailbox (s : State) (core id : Nat) : Word :=
  if s.idPending core id then 0
  else
    match (s.core core).mail.find? (fun p => p.1 == id) with
    | some p => p.2
    | none => 0x8000000000000000

/-- A job of the strand that issues. -/
def State.newJob (s : State) (v : Word) (tile : Nat) (kind : JobKind) : Job :=
  { uid := s.nextUid, core := s.cur.core, id := (s.core s.cur.core).nextJob, strand := s.cur.uid,
    launch := s.cur.launch, sup := s.cur.mode == .supervisor, kind := kind, recAddr := v.toNat % 2 ^ 52,
    tile := tile, scope := jobScope v, seq := s.cur.posted }

/-- The checks of R294 steps 2 and 3. -/
def jobCheck (s : State) (v : Word) (k : Host.Outcome State Fault Refusal) : Host.Outcome State Fault Refusal :=
  if jobOperandBad v then trap s Cause.protection v
  else if v.toNat % 64 ≠ 0 then trap s Cause.misaligned (BitVec.ofNat 64 (v.toNat % 2 ^ 52))
  else k

/-- CPYJ and CPYQ (R294, R295). -/
def copyOp (n : BitVec 5) (x : A2) (kind : JobKind) (s : State) : Host.Outcome State Fault Refusal :=
  issue s { fields := [.s x.a x.pa 14, .d x.d 7], mem := true } (fun s' =>
    let v := s.cur.val x.a
    let c := s.cur.core
    let e := s.tile c n.toNat
    let id := (s.core c).nextJob
    jobCheck s v
      (if s.tileBusy c n.toNat || s.idPending c id || !s.copyRoom c then stall s
      else if kind = .store ∧ tState e = 0 then trap s Cause.protection (n.setWidth 64)
      else if kind = .quant ∧ (fmtPlanes (tFormat e) = 0 ∨ tPlanes e ≠ fmtPlanes (tFormat e)) then
        trap s Cause.protection (n.setWidth 64)
      else
        let s1 := (s'.setTile c n.toNat (tSetState e (if kind = .store then 3 else 1))).onCore c (fun k =>
          { k with nextJob := (id + 1) % 256 })
        finish ({ s1 with jobs := s1.jobs ++ [s.newJob v n.toNat kind] }).fresh 4 (fun t =>
          t.result x.d (BitVec.ofNat 64 id))))

/-- CPYJ (R294). -/
def execCpyj (n : BitVec 5) (x : A2) (s : State) : Host.Outcome State Fault Refusal := copyOp n x .load s

/-- CPYJ.st (R294). -/
def execCpyjSt (n : BitVec 5) (x : A2) (s : State) : Host.Outcome State Fault Refusal := copyOp n x .store s

/-- CPYQ (R295). -/
def execCpyq (n : BitVec 5) (x : A2) (s : State) : Host.Outcome State Fault Refusal := copyOp n x .quant s

/-- v0 to v31, read and written as a group (R301, R303). -/
def rowsField : Field := { spec := 0, dst := true, cells := vRange 0 32 }

/-- v0 to v31 of a strand. -/
def Strand.rows (t : Strand) : List Row := (List.range 32).map (fun i => (t.vreg i).val)

/-- v0 to v31 marked empty as a group (R26). -/
def Strand.rowsWait (t : Strand) : Strand := (List.range 32).foldl (fun (t : Strand) i => t.onV i VReg.wait) t

/-- MXDR (R303, R304): the rows are read at issue, the job is queued, and its elements are posted. -/
def drainOp (x : A1) (add i32 : Bool) (s : State) : Host.Outcome State Fault Refusal :=
  issue s { fields := [.s x.a x.pa 14, rowsField], mem := true } (fun s' =>
    let v := s.cur.val x.a
    jobCheck s v
      (if !s.copyRoom s.cur.core then stall s
      else
        let j := s.newJob v 0 (.drain add i32 s.cur.rows)
        let p : Pend := { uid := s.nextUid + 1, strand := s.cur.uid, core := s.cur.core, op := .rows }
        finish (({ s' with jobs := s'.jobs ++ [j], pends := s'.pends ++ [p] }).fresh).fresh 4 (fun t =>
          { t.rowsWait with posted := (t.posted + 1) % 65536 })))

/-- MXDR.st.f32 (R303). -/
def execMxdrStF32 (x : A1) (s : State) : Host.Outcome State Fault Refusal := drainOp x false false s

/-- MXDR.add.f32 (R303). -/
def execMxdrAddF32 (x : A1) (s : State) : Host.Outcome State Fault Refusal := drainOp x true false s

/-- MXDR.st.i32 (R303). -/
def execMxdrStI32 (x : A1) (s : State) : Host.Outcome State Fault Refusal := drainOp x false true s

/-- MXDR.add.i32 (R303). -/
def execMxdrAddI32 (x : A1) (s : State) : Host.Outcome State Fault Refusal := drainOp x true true s

/-- A v register whose rows have been taken: full again, its value unchanged (R303). -/
def VReg.free (r : VReg) : VReg := { r with full := true, pend := false }

/-- MXDR_ROWS_TAKEN (R303): the copy engine has taken the rows of the strand on a slot. Pick 0 is the core,
pick 1 the slot. -/
def execMxdrRowsTaken (s : State) : Host.Outcome State Fault Refusal :=
  match s.bySlot (s.arg 0) (s.arg 1) with
  | none => .next s
  | some t =>
    match s.pends.find? (fun p => p.strand == t.uid && p.op == .rows) with
    | none => .next s
    | some p =>
      .next ({ s with pends := s.pends.filter (fun q => q.uid != p.uid) }.onUid t.uid (fun u =>
        (List.range 32).foldl (fun (u : Strand) i => u.onV i VReg.free) u))

/-- JWAIT (R343, R344). -/
def execJwait (x : A2) (s : State) : Host.Outcome State Fault Refusal :=
  issue s { fields := [.s x.a x.pa 14, .d x.d 7], mem := true } (fun s' =>
    let v := s.cur.val x.a
    if 256 ≤ v.toNat then trap s Cause.protection v
    else finish (s'.pendOn x.d.toNat true (.jwait v.toNat)) 4 (fun t =>
        { t with lastAt := some ⟨s.cur.pc, s'.nextUid, t.emptiedCells s.cur⟩ }))

/-- JTEST (R343, R344). -/
def execJtest (x : A2) (s : State) : Host.Outcome State Fault Refusal :=
  issue s { fields := [.s x.a x.pa 14, .d x.d 7], mem := true } (fun s' =>
    let v := s.cur.val x.a
    if 256 ≤ v.toNat then trap s Cause.protection v
    else finish s' 4 (fun t => t.setG x.d (s.mailbox s.cur.core v.toNat)))

/-! ### Jobs at work -/

/-- A job that stops at a fault (R297). -/
def Job.fails (j : Job) (cause a : Nat) : Job := { j with fault := some (cause, a % 2 ^ 52) }

/-- A job set in the list. -/
def State.setJob (s : State) (j : Job) : State :=
  { s with jobs := s.jobs.map (fun k => if k.uid == j.uid then j else k) }

/-- Whether a record does not suit its job (R293, R296, R303). -/
def Job.unfit (j : Job) (e : Word) (r : Shape) : Bool :=
  match j.kind with
  | .quant => !(r.format == 0 || r.format == 1) || r.side != tSide e
  | .drain add i32 _ =>
    if i32 then r.format != 3 else if add then r.format != 0 else !(r.format == 0 || r.format == 1 || r.format == 2)
  | _ => r.format != tFormat e || r.side != tSide e

/-- A job's access failed, or must wait. -/
def State.jobFails (s : State) (j : Job) (cause a : Nat) : State :=
  if cause = jobWaits then s else s.setJob (j.fails cause a)

/-- The record read (R292, R293). -/
def State.jobRecord (s : State) (j : Job) : State :=
  match s.jobRead j j.recAddr 64 with
  | .error c => s.jobFails j c j.recAddr
  | .ok p =>
    let r := shapeOf p.2
    if shapeBad p.2 r || j.unfit (s.tile j.core j.tile) r then p.1.setJob (j.fails 0x20 j.recAddr)
    else p.1.setJob { j with shape := some r, block := 1 }

/-- The scale byte read by a load, or written by a store (R292, R294). -/
def State.jobScale (s : State) (j : Job) (r : Shape) : State :=
  if r.scales = 0 then s.setJob { j with block := 2 }
  else
    match j.kind with
    | .load =>
      match s.jobRead j r.scaleAddr 1 with
      | .error c => s.jobFails j c r.scaleAddr
      | .ok p =>
        if p.2 = 0xFF then p.1.setJob (j.fails 0x20 j.recAddr)
        else p.1.setJob { j with scale := p.2, block := 2 }
    | .store =>
      match s.jobWrite j r.scaleAddr 1 (tScale (s.tile j.core j.tile)) 255 with
      | .error c => s.jobFails j c r.scaleAddr
      | .ok s1 => s1.setJob { j with block := 2 }
    | _ => s.setJob { j with block := 2 }

/-- Whether a job's data is BP planes: a load or a store of a BP tile. -/
def Job.planar (j : Job) (r : Shape) : Bool := (j.kind == .load || j.kind == .store) && fmtPlanes r.format != 0

/-- Bytes of a plane. -/
def Shape.planeBytes (r : Shape) : Nat := r.side * r.side / 8

/-- Steps of a plane: an 8-byte unit of memory each, of which a block that is not aligned meets one more. -/
def Shape.planeSteps (r : Shape) : Nat := r.planeBytes / 8 + 1

/-- The piece of memory of a step of a plane (R246, R292): plane, address and bytes. -/
def Shape.piece (r : Shape) (k : Nat) : Nat × Nat × Nat :=
  let q := k / r.planeSteps
  let p := (unitsOf (r.block q) r.planeBytes).getD (k % r.planeSteps) (r.block q, 0)
  (q, p.1, p.2)

/-- Bits of a piece of a plane that belong to valid elements. -/
def Shape.pieceMask (r : Shape) (q a n : Nat) : Nat := r.blockMask / 256 ^ (a - r.block q) % 256 ^ n

/-- The next bits of a job's tile read: the 8-byte units that are whole now are to be written (R288). -/
def Job.take (j : Job) (v bits : Nat) : Job :=
  let acc := j.acc + v * 2 ^ j.pos
  let pos := j.pos + bits
  let us := (List.range (pos / 64 - j.pos / 64)).map (fun i => (j.pos / 64 + i, acc / 2 ^ (64 * (j.pos / 64 + i)) % 2 ^ 64))
  { j with acc := acc, pos := pos, units := if j.kind = .load then j.units ++ us else j.units, block := j.block + 1 }

/-- Whether a read of scratchpad bytes meets an uncorrectable word (R297, R414). -/
def State.spadBad (s : State) (core a n : Nat) : Bool := s.badWords.any (fun w => w.core == core && !w.row && overlap w.addr 8 a n)

/-- The bits an MXDR element stores (R303), from the 32 bits of its lane. -/
def drainBits (add i32 : Bool) (fmt v : Nat) : Nat :=
  if add || i32 then v
  else
    match fmt with
    | 1 => (Fmt.bf16.roundTo .rne false (Fmt.fp32.decode v)).bits
    | 2 => (Fmt.fp16.roundTo .rne false (Fmt.fp32.decode v)).bits
    | _ => (Fmt.fp32.roundTo .rne false (Fmt.fp32.decode v)).bits

/-- The size code of an element of `n` bytes. -/
def codeOfBytes (n : Nat) : Nat := if n = 4 then 2 else if n = 2 then 1 else 0

/-- One element of an MXDR as a posted operation of its strand (R304). -/
def Job.element (j : Job) (s : State) (r : Shape) (add i32 : Bool) (i c v : Nat) : Store :=
  let e := r.elem i c
  let b := drainBits add i32 r.format v
  { uid := s.nextUid, ord := j.uid, strand := j.strand, seq := j.seq, origin := .mxdr, core := j.core,
    launch := j.launch, sup := j.sup, addr := e.1, raw := BitVec.ofNat 64 e.1, data := BitVec.ofNat 64 b
    code := codeOfBytes e.2.1, size := e.2.1, val := b, mask := fullMask e.2.1, base := e.1, span := e.2.1
    scope := j.scope, job := j.uid, inj := s.nextUid, cls := (s.reqJob j e.1).cls
    clock := (s.die (dieOf j.core)).clock,
    atomic := if add then some (if i32 then 0 else 10, BitVec.ofNat 64 b) else none }

/-- An element of an MXDR posted (R304). -/
def State.drainElem (s : State) (j : Job) (r : Shape) (add i32 : Bool) (i c v : Nat) : State :=
  let x := j.element s r add i32 i c v
  let ps := if add then [x] else x.pieces s.nextUid
  { s with stores := s.stores ++ ps, nextUid := s.nextUid + ps.length }

/-! ### Quantising (R296) -/

/-- The smallest s from `s` on with m * 2^e at most c * 2^s. -/
def scaleFrom (m : Nat) (e : Int) (c : Nat) (s : Int) : Nat → Int
  | 0 => s
  | n + 1 =>
    let lo := min e s
    if m * 2 ^ (e - lo).toNat ≤ c * 2 ^ (s - lo).toNat then s else scaleFrom m e c (s + 1) n

/-- The larger of two finite magnitudes. -/
def bigger (a b : Nat × Int) : Nat × Int :=
  let lo := min a.2 b.2
  if a.1 * 2 ^ (a.2 - lo).toNat < b.1 * 2 ^ (b.2 - lo).toNat then b else a

/-- The scale exponent of a tile's elements (R296). -/
def quantScale (n : Nat) (l : List Num) : Int :=
  let m := l.foldl (fun (a : Nat × Int) x => match x with | .fin _ k e => if k = 0 then a else bigger a (k, e) | _ => a) (0, 0)
  if m.1 = 0 then 0
  else
    let c := 2 ^ (n - 1) - 1
    clampI (scaleFrom m.1 m.2 c (m.2 + Int.ofNat (bitLen m.1) - Int.ofNat (bitLen c) - 1) 8) (-127) 127

/-- One element quantised (R296). -/
def quantElem (n : Nat) (s : Int) (x : Num) : Int :=
  let hi : Int := 2 ^ (n - 1) - 1
  let lo : Int := -(2 ^ (n - 1))
  match x with
  | .nan _ => 0
  | .inf neg => if neg then lo else hi
  | .fin neg m e => clampI (roundInt .rne neg m (e - s)).1 lo hi

/-- Plane `q` of BPn elements (R83). -/
def planeBits (n q : Nat) (l : List Int) : Nat :=
  l.reverse.foldl (fun (a : Nat) v => 2 * a + wrapI v n / 2 ^ (n - 1 - q) % 2) 0

/-- A CPYQ that has read its last element (R288, R296): its scale, and the 8-byte units of its planes that are to be written. -/
def Job.quantised (j : Job) (r : Shape) (e : Word) : Job :=
  let n := fmtPlanes (tFormat e)
  let f := if r.format = 0 then Fmt.fp32 else Fmt.bf16
  let w := fmtBits r.format
  let xs := (List.range (r.side * r.side)).map (fun k => f.decode (j.acc / 2 ^ (w * k) % 2 ^ w))
  let sc := quantScale n xs
  let qs := xs.map (quantElem n sc)
  let per := r.side * r.side / 64
  let us := (List.range n).flatMap (fun q =>
    let b := planeBits n q qs
    (List.range per).map (fun u => (q * per + u, b / 2 ^ (64 * u) % 2 ^ 64)))
  { j with units := us, scale := (sc + 127).toNat }

/-- A job whose element has been read; a CPYQ is quantised after its last (R296). -/
def State.jobTaken (s : State) (j : Job) (r : Shape) (v w : Nat) : State :=
  let x := j.take v w
  s.setJob (if j.kind = .quant ∧ r.side * r.side + 2 ≤ x.block then x.quantised r (s.tile j.core j.tile) else x)

/-- One element of a job whose data is no BP plane (R292). `old` is as in `State.spadUnit`. -/
def State.jobElem (s : State) (j : Job) (r : Shape) (k old : Nat) : State :=
  let i := k / r.side
  let c := k % r.side
  let e := r.elem i c
  let w := fmtBits r.format
  let sh := if r.format = 0x0A ∨ r.format = 0x0B then w * e.2.2 else 0
  let ok := r.valid i c
  let next := { j with block := j.block + 1 }
  match j.kind with
  | .drain add i32 rows =>
    (if ok then s.drainElem j r add i32 i c (laneOf (rows.getD i 0) 32 c) else s).setJob next
  | .store =>
    let at' := tBase (s.tile j.core j.tile) + k * w / 64 * 8
    let v := s.spadEngine j.core at' 8 j.uid old / 2 ^ (k * w % 64)
      + s.spadEngine j.core (at' + 8) 8 j.uid old * 2 ^ (64 - k * w % 64)
    if !ok then s.setJob next
    else if s.rebuilding j.core at' ((k * w % 64 + w + 7) / 8) then s
    else if s.spadSoft j.core at' ((k * w % 64 + w + 7) / 8) then s.findSoft j.core at' ((k * w % 64 + w + 7) / 8)
    else if s.spadBad j.core at' ((k * w % 64 + w + 7) / 8) then s.jobFails j Cause.uncorrectable e.1
    else
      match s.jobWrite j e.1 e.2.1 (v % 2 ^ w * 2 ^ sh) ((2 ^ w - 1) * 2 ^ sh) with
      | .error n => s.jobFails j n e.1
      | .ok s1 => s1.setJob next
  | _ =>
    if !ok then s.jobTaken j r 0 w
    else
      match s.jobRead j e.1 e.2.1 with
      | .error n => s.jobFails j n e.1
      | .ok p => p.1.jobTaken j r (p.2 / 2 ^ sh % 2 ^ w) w

/-- One step of a job on a BP tile (R292): an 8-byte unit of a plane; the address of a fault is that of its first byte with a
valid element. -/
def State.jobPiece (s : State) (j : Job) (r : Shape) (k old : Nat) : State :=
  let p := r.piece k
  let a := p.2.1
  let n := p.2.2
  let m := r.pieceMask p.1 a n
  let first := a + ((List.range n).find? (fun i => m / 256 ^ i % 256 != 0)).getD 0
  let at' := tBase (s.tile j.core j.tile) + p.1 * r.planeBytes + (a - r.block p.1)
  let next := { j with block := j.block + 1 }
  match j.kind with
  | .load =>
    if m = 0 then s.setJob (j.take 0 (8 * n))
    else
      match s.jobRead j a n with
      | .error c => s.jobFails j c first
      | .ok q => q.1.setJob (j.take (q.2 &&& m) (8 * n))
  | _ =>
    if m = 0 then s.setJob next
    else if s.rebuilding j.core at' n then s
    else if s.spadSoft j.core at' n then s.findSoft j.core at' n
    else if s.spadBad j.core at' n then s.jobFails j Cause.uncorrectable first
    else
      match s.jobWrite j a n (s.spadEngine j.core at' n j.uid old) m with
      | .error c => s.jobFails j c first
      | .ok s1 => s1.setJob next

/-- Steps of a job after the record and the scale. -/
def State.jobSteps (s : State) (j : Job) (r : Shape) : Nat :=
  if j.planar r then tPlanes (s.tile j.core j.tile) * r.planeSteps else r.side * r.side

/-- Whether a job's last element is done, or it has stopped (R297). -/
def State.jobRead? (s : State) (j : Job) : Bool :=
  j.fault.isSome || (match j.shape with | some r => s.jobSteps j r + 2 ≤ j.block | none => false)

/-- Whether a job is over: nothing is left to read, or to write into its tile. -/
def State.jobOver (s : State) (j : Job) : Bool := s.jobRead? j && j.units.isEmpty

/-- The address of the element that a job does next (R297). -/
def State.jobAt (s : State) (j : Job) : Nat :=
  match j.shape with
  | none => j.recAddr
  | some r =>
    if j.block < 2 then (if r.scales = 0 then j.recAddr else r.scaleAddr)
    else
      let k := if s.jobSteps j r + 2 ≤ j.block then s.jobSteps j r - 1 else j.block - 2
      if j.planar r then (r.piece k).2.1 else (r.elem (k / r.side) (k % r.side)).1

/-- Whether the engines of a core's octet stand still: frozen (R428), or their cluster not in RUN (R134). -/
def State.octetFrozen (s : State) (core : Nat) : Bool :=
  s.coreFrozen core || decide (core < 4096) && (s.cluster (clusterOf core)).power != 0

/-- One step of a job: its record, its scale byte, or an element. -/
def State.jobStep (s : State) (j : Job) (old : Nat) : State :=
  match j.shape with
  | none => s.jobRecord j
  | some r =>
    if j.block = 1 then s.jobScale j r
    else if j.planar r then s.jobPiece j r (j.block - 2) old
    else s.jobElem j r (j.block - 2) old

/-- `n` steps of the oldest job of a core, up to its end or its first wait. -/
def State.jobSteps? (s : State) (core old : Nat) : Nat → State
  | 0 => s
  | n + 1 =>
    match s.jobs.find? (fun j => j.core == core) with
    | none => s
    | some j => if s.jobRead? j then s else (s.jobStep j old).jobSteps? core old n

/-- A unit of a tile that a job has read is written into the scratchpad, whole (R288). -/
def State.jobUnit (s : State) (j : Job) (k : Nat) : State :=
  match j.units[k]? with
  | none => s
  | some u =>
    if s.rebuilding j.core (tBase (s.tile j.core j.tile) + 8 * u.1) 8 then s
    else (s.spadPut j.core (tBase (s.tile j.core j.tile) + 8 * u.1) 8 u.2 (fullMask 8)).setJob { j with units := j.units.eraseIdx k }

/-- All the units of a tile that a job has read are written, in order. -/
def State.jobUnits (s : State) (j : Job) : State :=
  if j.units.any (fun u => s.rebuilding j.core (tBase (s.tile j.core j.tile) + 8 * u.1) 8) then s
  else (j.units.foldl (fun (s : State) u =>
    s.spadPut j.core (tBase (s.tile j.core j.tile) + 8 * u.1) 8 u.2 (fullMask 8)) s).setJob { j with units := [] }

/-- COPY_JOB_ELEMENT_BLOCK (R288, R289): elements of the oldest job of a core, after its record and its scale byte; or units
of its tile are written, between which nothing is promised (R288). Pick 0 is the core. Where pick 1 is 0, pick 2 is the number
of steps, 0 for a whole tile's, and pick 3 the number of stores that no FENCESP covers which a read of the scratchpad looks
behind (R69). Where pick 1 is 1, pick 2 is the unit's place, and where pick 1 is 2 all of them are written. -/
def execCopyJobElementBlock (s : State) : Host.Outcome State Fault Refusal :=
  match s.jobs.find? (fun j => j.core == s.arg 0) with
  | none => .next s
  | some j =>
    if s.octetFrozen j.core || s.jobOver j || !s.releaseReady j.strand j.uid 1 j.core then .next s
    else
      match s.arg 1 with
      | 0 => .next (s.jobSteps? j.core (s.arg 3) (if s.arg 2 = 0 then 2048 else s.arg 2))
      | 1 => .next (s.jobUnit j (s.arg 2))
      | _ => .next (s.jobUnits j)

/-! ### Completion -/

/-- A mailbox word written (R291). -/
def State.mailSet (s : State) (core id : Nat) (v : Word) : State :=
  s.onCore core (fun c => { c with mail := (id, v) :: c.mail.filter (fun p => p.1 != id) })

/-- The mailbox word of a completed job (R291). -/
def mailWord (f : Option (Nat × Nat)) : Word :=
  match f with
  | none => 0x8000000000000000
  | some p => BitVec.ofNat 64 (2 ^ 63 + p.1 * 2 ^ 52 + p.2 % 2 ^ 52)

/-- The entry of a load or CPYQ that completes without fault (R286, R294, R296). -/
def State.jobFilled (s : State) (j : Job) (r : Shape) : State :=
  let e := s.tile j.core j.tile
  (s.setTile j.core j.tile (tNextGen (tSetState (putBits e 48 8 j.scale) 2))).onUse j.core j.tile (fun u =>
    { u with job := j.id, origin := BitVec.ofNat 64 (r.origin1 * 2 ^ 32 + r.origin0) })

/-- The record of an MXDR that failed before or between its elements (R304). -/
def Job.badStore (j : Job) (a : Nat) : Store :=
  { strand := j.strand, seq := j.seq, origin := .mxdr, raw := BitVec.ofNat 64 a, code := 2 }

/-- What a job's end does to its tile (R286, R297). -/
def State.jobTile (s : State) (j : Job) : State :=
  let e := s.tile j.core j.tile
  match j.kind with
  | .store => s.setTile j.core j.tile (tSetState e 2)
  | .drain _ _ _ =>
    match j.fault, j.told with
    | some f, false => s.sendRecord (j.badStore f.2) f.1
    | _, _ => s
  | _ =>
    match j.fault, j.shape with
    | none, some r => s.jobFilled j r
    | _, _ => s.setTile j.core j.tile (tNextGen (tSetState e 0))

/-- Whether a job's completion, its release at its scope, may come (R290, R323): its queue is released, and no owner can still
refuse a write of it (R297). -/
def State.jobReleased (s : State) (j : Job) : Bool :=
  s.agentReleased (copyAgent j.core) j.scope j.core && !s.stores.any (fun x => x.job == j.uid && x.stage != .applied)

/-- COPY_JOB_COMPLETE (R286, R290, R291, R297): the oldest job of a core ends: its tile, its mailbox word, and
its release at its scope; a LEASE_BREACH ends its strand's work (R276). Pick 0 is the core. -/
def execCopyJobComplete (s : State) : Host.Outcome State Fault Refusal :=
  match s.jobs.find? (fun j => j.core == s.arg 0) with
  | none => .next s
  | some j =>
    if s.octetFrozen j.core || !s.jobOver j || !j.isDrain && !s.jobReleased j then .next s
    else
      let s1 := s.jobTile j
      let s2 := { s1 with jobs := s1.jobs.filter (fun k => k.uid != j.uid) }
      let s3 := if j.isDrain then s2 else s2.mailSet j.core j.id (mailWord j.fault)
      match j.isDrain, j.fault, s3.byUid j.strand with
      | false, some f, some t => .next (if f.1 = Cause.leaseBreach then s3.leaseBreachOf t f.2 else s3)
      | _, _, _ => .next s3

end Sys2Proof.Machine
end

