-- ==== Sys2Proof/Machine/Matrix.lean ====
section
/-! DEFINITION. The matrix engine (R83 to R89, R298 to R302, R305) and the numerical audit engine (R306 to
R314). -/

namespace Sys2Proof.Machine

/-! ### Elements and sums -/

/-- Element `b` of a tile from its planes, by R85: `n` bits stored, `k` declared, plane 0 the sign. -/
def nested (n k : Nat) (planes : List Nat) (b : Nat) : Int :=
  let bits := (planes.take k).foldl (fun (x : Nat) p => 2 * x + p / 2 ^ b % 2) 0
  let a := sext bits k * 2 ^ (n - k)
  if k = n then a else a + 2 ^ (n - k - 1)

/-- Rows of a tile's elements. -/
def tileElems (t n k : Nat) (planes : List Nat) : List (List Int) :=
  (List.range t).map (fun i => (List.range t).map (fun j => nested n k planes (t * i + j)))

/-- The columns of a square matrix. -/
def columns (t : Nat) (m : List (List Int)) : List (List Int) :=
  (List.range t).map (fun c => m.map (fun r => r.getD c 0))

/-- A product of a row and a column (R87). -/
def dotInt (a b : List Int) : Int := (List.zipWith (· * ·) a b).sum

/-- P_p of every element, row by row (R87). -/
def matProduct (t : Nat) (a b : List (List Int)) : List Int :=
  let cs := columns t b
  (a.map (fun r => cs.map (dotInt r))).flatten

/-- S_p of a pair (R86, R87). -/
def pairScale (p : TileCap × TileCap) : Int := Int.ofNat (p.1.scale + p.2.scale) - 254

/-- The least S_p of a chain. -/
def minScale (ps : List (TileCap × TileCap)) : Int := (ps.map pairScale).min?.getD 0

/-- The largest S_p of a chain. -/
def maxScale (ps : List (TileCap × TileCap)) : Int := (ps.map pairScale).max?.getD 0

/-- An exact sum with one pair's product added, as multiples of 2^lo (R87). -/
def addPair (lo : Int) (sums : List Int) (p : TileCap × TileCap) (prod : List Int) : List Int :=
  let f := fun (x : Int) => x * 2 ^ (pairScale p - lo).toNat
  if sums.isEmpty then prod.map f else List.zipWith (fun x y => x + f y) sums prod

/-! ### The operand cache (R302) -/

/-- The blocks of an engine that 64 KiB hold, the latest used first. -/
def keepCache (octet : Nat) : Nat → List OpBlock → List OpBlock
  | _, [] => []
  | room, x :: xs =>
    if x.octet == octet then
      (if x.bytes ≤ room then x :: keepCache octet (room - x.bytes) xs else keepCache octet 0 xs)
    else x :: keepCache octet room xs

/-- How a read of planes goes, as the schedule has it (R302): plane q is read from the scratchpad though the operand cache holds
it where bit q of `fresh` is set, and its unit u looks behind as many stores that no FENCESP covers as digit 16 q + u of `old`,
to base 65536, says. `uid` is the number of the work. -/
structure PlaneRead where
  uid : Nat := 0
  fresh : Nat := 0
  old : Nat := 0
  deriving DecidableEq, Repr

/-- A plane block in the scratchpad, each unit of 8 bytes whole, as it stands or as it stood (R249, R288). -/
def State.planeBytes (s : State) (core a n : Nat) (r : PlaneRead) (q : Nat) : Nat :=
  (List.range (n / 8)).foldl (fun (v : Nat) u =>
    v + s.spadEngine core (a + 8 * u) 8 r.uid (r.old / 65536 ^ (16 * q + u) % 65536) * 256 ^ (8 * u)) 0

/-- A plane block of a tile as a chain reads it (R302): from the operand cache under its GEN, or from the scratchpad. -/
def State.readPlane (s : State) (core t : Nat) (c : TileCap) (q : Nat) (r : PlaneRead) : State × Nat :=
  let key := fun (x : OpBlock) =>
    x.octet == octetOf core && x.core == core && x.tile == c.tile && x.gen == c.gen && x.plane == q
  let n := t * t / 8
  let b : OpBlock :=
    match s.opCache.find? key with
    | some x => if r.fresh.testBit q then { x with val := s.planeBytes core (c.base + q * n) n r q } else x
    | none =>
      { octet := octetOf core, core := core, tile := c.tile, gen := c.gen, plane := q, bytes := n,
        val := s.planeBytes core (c.base + q * n) n r q }
  ({ s with opCache := keepCache (octetOf core) 65536 (b :: s.opCache.filter (fun x => !key x)) }, b.val)

/-- The first `k` planes of a tile. -/
def State.readPlanes (s : State) (core t : Nat) (c : TileCap) (r : PlaneRead) (q : Nat) : Nat → State × List Nat
  | 0 => (s, [])
  | k + 1 =>
    let p := s.readPlane core t c q r
    let rest := p.1.readPlanes core t c r (q + 1) k
    (rest.1, p.2 :: rest.2)

/-- The product of a pair with `ka` and `kb` planes read (R85, R87), the planes of A as `ra` says and those of B as `rb`. -/
def State.pairProduct (s : State) (core t ka kb : Nat) (ra rb : PlaneRead) (p : TileCap × TileCap) : State × List Int :=
  let a := s.readPlanes core t p.1 ra 0 ka
  let b := a.1.readPlanes core t p.2 rb 0 kb
  (b.1, matProduct t (tileElems t p.1.n ka a.2) (tileElems t p.2.n kb b.2))

/-! ### MXQ at issue -/

/-- Whether e5 breaks its layout, or the chain runs past t31 (R300, R301 step 2). -/
def mxqBad (e a b : Nat) : Bool :=
  let ka := e / 2 ^ 12 % 16
  let kb := e / 2 ^ 8 % 16
  let j := e % 256
  e / 2 ^ 16 != 0 || ka == 0 || 8 < ka || kb == 0 || 8 < kb || j == 0 || 16 < j || 31 < a + j - 1 || 31 < b + j - 1

/-- The tiles of a chain in the order of R301: A before B within each pair, with the plane count declared. -/
def chainTiles (a b j ka kb : Nat) : List (Nat × Nat) :=
  ((List.range j).map (fun p => [(a + p, ka), (b + p, kb)])).flatten

/-- The tiles of a chain, each once. -/
def distinctTiles (ps : List (TileCap × TileCap)) : List Nat :=
  (ps.map (fun p => [p.1.tile, p.2.tile])).flatten.eraseDups

/-- Whether a tile fails step 4 of R301. -/
def tileUnfit (side : Nat) (e : Word) (k : Nat) : Bool :=
  fmtPlanes (tFormat e) == 0 || tSide e != side || tPlanes e < k

/-- A tile as an MXQ captures it (R301). -/
def capOf (n : Nat) (e : Word) : TileCap :=
  { tile := n, base := tBase e, n := fmtPlanes (tFormat e), planes := tPlanes e, scale := tScale e, gen := tGen e }

/-- Whether the scales of a chain fail step 5 of R301. -/
def scalesBad (i32 : Bool) (ps : List (TileCap × TileCap)) : Bool :=
  if i32 then ps.any (fun p => p.1.scale != 0x7F || p.2.scale != 0x7F) else 48 < maxScale ps - minScale ps

/-- A step of the audit LFSR (R306). -/
def lfsrStep (x : Nat) : Nat :=
  let y := x * 2 % 2 ^ 32
  if x / 2 ^ 31 % 2 = 1 then y ^^^ 0x00400007 else y

/-- Whether AUDIT_RATE selects a chain, after the step (R306). -/
def rateSelects (rate lfsr : Nat) : Bool := rate != 0 && lfsr % 2 ^ (rate - 1) == 0

/-- The reduced tensors of a chain in increasing number, each with its lowest reduced tile (R307, R313). -/
def State.reducedOf (s : State) (core launch ka kb : Nat) (ps : List (TileCap × TileCap)) : List (Nat × Nat) :=
  let ts := (ps.map (fun p => [(p.1, ka), (p.2, kb)])).flatten
  let tens := fun (c : TileCap) =>
    let e := s.tile core c.tile
    if tVal e && ((s.tensors launch).getD (tTensor e) { }).audit != 0 then [(tTensor e, c.tile)] else []
  let all := (ts.map (fun p => if p.2 < p.1.planes then tens p.1 else [])).flatten
  (List.range 1024).filterMap (fun n =>
    match ((all.filter (fun x => x.1 == n)).map (·.2)).min? with
    | some t => some (n, t)
    | none => none)

/-- The address of a tensor's audit record. -/
def State.auditAddr (s : State) (launch tensor : Nat) : Nat := ((s.tensors launch).getD tensor { }).audit

/-- An atomic add of 1 to a doubleword, performed by an audit engine at the owner (R312): the new value and the
state after, or nothing where it faults. As AADD.D does (R317, R338), it comes after what the slices of the owner die hold. -/
def State.auditAdd (s : State) (core launch a : Nat) : Option (State × Nat) :=
  let q := s.reqOf core launch false false a
  let s := s.touch q.cls a
  match s.keys q .rw a 8 with
  | .error _ => none
  | .ok ks =>
    if s.uncorrectable ks || a % 8 != 0 then none
    else
      let s1 := s.flushLines (ownerOf a) a 8
      let v := (s1.ownRead ks + 1) % 2 ^ 64
      some (s1.ownerWrite a v ks, v)

/-- The clock of what a read of a doubleword at its owner acquires: of the add that has just been performed there (R313). -/
def State.addClock (s : State) (core launch a : Nat) : List Nat :=
  match s.keys (s.reqOf core launch false false a) .r a 8 with
  | .ok ks => lastClock s.lastW ks
  | .error _ => []

/-- Whether that add waits: the owner has yet to apply a write causally before it (R329), or its page is in FINAL (R282). -/
def State.auditStalls (s : State) (core launch a : Nat) (clock : List Nat) : Bool :=
  !s.covers (ownerOf a) clock
    || (match s.keys (s.reqOf core launch false false a) .rw a 8 with
      | .ok ks => s.mustStall 0 (s.reqOf core launch false false a).cls a ks
      | .error _ => false)

/-- 1 is to be added to ABANDONED of every reduced tensor (R311). -/
def State.countAbandoned (s : State) (core launch : Nat) (ts : List (Nat × Nat)) : State :=
  { s with
    auditAdds := s.auditAdds ++ ts.map (fun t =>
      { octet := octetOf core, core := core, launch := launch, addr := s.auditAddr launch t.1 + 0x18
        clock := (s.die (dieOf core)).clock }) }

/-- An add to ABANDONED performed, once it may be. -/
def State.doAuditAdd (s : State) (x : AuditAdd) : State :=
  if s.auditStalls x.core x.launch x.addr x.clock then s
  else
    let s1 := { s with auditAdds := s.auditAdds.erase x }
    match s1.auditAdd x.core x.launch x.addr with
    | some r => r.1
    | none => s1

/-- Samples of an octet's audit engine (R308). -/
def State.octetSamples (s : State) (octet : Nat) : List Sample := s.samples.filter (fun x => x.octet == octet)

/-- Every tile of a list held, or released, by one user more. -/
def State.onUses (s : State) (core : Nat) (ts : List Nat) (f : TileUse → TileUse) : State :=
  ts.foldl (fun (s : State) n => s.onUse core n f) s

/-- A chain that issues becomes a sample, is abandoned at once, or is not sampled (R307, R308): the state, and
the sample's number. -/
def State.takeSample (s : State) (i32 : Bool) (t ka kb : Nat) (ps : List (TileCap × TileCap)) (lfsr : Nat) :
    State × Option Nat :=
  let core := s.cur.core
  let red := s.reducedOf core s.cur.launch ka kb ps
  if !(s.cur.audx || rateSelects (s.core core).auditRate lfsr) || red.isEmpty then (s, none)
  else if 4 ≤ (s.octetSamples (octetOf core)).length then (s.countAbandoned core s.cur.launch red, none)
  else
    let x : Sample :=
      { uid := s.nextUid, octet := octetOf core, core := core, launch := s.cur.launch, i32 := i32,
        audx := s.cur.audx, t := t, pairs := ps, reduced := red }
    ((({ s with samples := s.samples ++ [x] }).fresh).onUses core (distinctTiles ps) (fun u => { u with pins := u.pins + 1 }),
      some s.nextUid)

/-- Whether a core's command queue is full (R298). -/
def State.mxFull (s : State) (core : Nat) : Bool :=
  16 ≤ (s.mxCmds.filter (fun c => c.core == core && decide (c.next < c.pairs.length))).length

/-- MXQ (R300, R301). -/
def mxqOp (i32 : Bool) (a b : BitVec 5) (s : State) : Host.Outcome State Fault Refusal :=
  issue s { fields := [rowsField], mem := true } (fun s' =>
    let core := s.cur.core
    let e := (s.cur.ext 5).toNat
    let ka := e / 2 ^ 12 % 16
    let kb := e / 2 ^ 8 % 16
    let j := e % 256
    if s.mxFull core || s.cur.audx && decide (4 ≤ (s.octetSamples (octetOf core)).length) then stall s
    else if mxqBad e a.toNat b.toNat then trap s Cause.protection (s.cur.ext 5)
    else
      let ts := chainTiles a.toNat b.toNat j ka kb
      let side := tSide (s.tile core a.toNat)
      match ts.find? (fun x => tState (s.tile core x.1) != 2) with
      | some x => if tState (s.tile core x.1) = 0 then trap s Cause.protection (BitVec.ofNat 64 x.1) else stall s
      | none =>
        match ts.find? (fun x => tileUnfit side (s.tile core x.1) x.2) with
        | some x => trap s Cause.protection (BitVec.ofNat 64 x.1)
        | none =>
          let cap := fun (n : Nat) => capOf n (s.tile core n)
          let ps := (List.range j).map (fun p => (cap (a.toNat + p), cap (b.toNat + p)))
          if scalesBad i32 ps then trap s Cause.scaleWindow 0
          else
            let lfsr := lfsrStep (s.core core).lfsr
            let r := (s'.onCore core (fun c => { c with lfsr := lfsr })).takeSample i32 side ka kb ps lfsr
            let m : MxCmd :=
              { uid := r.1.nextUid, core := core, strand := s.cur.uid, launch := s.cur.launch, i32 := i32, t := side,
                ka := ka, kb := kb, pairs := ps, sample := r.2 }
            let p : Pend := { uid := r.1.nextUid, strand := s.cur.uid, core := core, op := .mxq }
            let s1 := r.1.onUses core (distinctTiles ps) (fun u => { u with holds := u.holds + 1 })
            finish ({ s1 with mxCmds := s1.mxCmds ++ [m], pends := s1.pends ++ [p] }).fresh 4 (fun t =>
              { t.rowsWait with audx := false }))

/-- MXQ.f32 (R300). -/
def execMxqF32 (a b : BitVec 5) (s : State) : Host.Outcome State Fault Refusal := mxqOp false a b s

/-- MXQ.i32 (R300). -/
def execMxqI32 (a b : BitVec 5) (s : State) : Host.Outcome State Fault Refusal := mxqOp true a b s

/-- MXZ (R305). -/
def execMxz (s : State) : Host.Outcome State Fault Refusal :=
  issue s { fields := [{ rowsField with src := false }], mem := true } (fun s' =>
    finish s' 4 (fun t => (List.range 32).foldl (fun (t : Strand) i => t.setV i 0) t))

/-- AUDX (R314). -/
def execAudx (s : State) : Host.Outcome State Fault Refusal :=
  issue s { mem := true } (fun s' => finish s' 4 (fun t => { t with audx := true }))

/-! ### Pairs -/

/-- The tiles of a pair that no later pair of the chain names. -/
def lastTiles (c : MxCmd) (p : TileCap × TileCap) : List Nat :=
  let later := distinctTiles (c.pairs.drop (c.next + 1))
  (distinctTiles [p]).filter (fun n => !later.contains n)

/-- How the schedule reads the planes of a pair of some work: picks `i` to `i + 2` are the planes read from the scratchpad, those
of B from bit 8 on, and the units read as they stood, of A and of B. -/
def State.planePicks (s : State) (uid i : Nat) : PlaneRead × PlaneRead :=
  ({ uid := uid, fresh := s.arg i % 256, old := s.arg (i + 1) }, { uid := uid, fresh := s.arg i / 256, old := s.arg (i + 2) })

/-- The next pair of a core's oldest command performed (R298, R301); it takes three picks of the schedule. -/
def State.doPair (s : State) (core : Nat) : State :=
  match s.mxCmds.find? (fun c => c.core == core && decide (c.next < c.pairs.length)) with
  | none => s
  | some c =>
    match c.pairs[c.next]? with
    | none => s
    | some p =>
      let rd := s.planePicks c.uid 1
      let r := State.pairProduct { s with pick := s.pick.take 1 ++ s.pick.drop 4 } core c.t c.ka c.kb rd.1 rd.2 p
      let c1 := { c with next := c.next + 1, sums := addPair (minScale c.pairs) c.sums p r.2 }
      ({ r.1 with mxCmds := r.1.mxCmds.map (fun (x : MxCmd) => if x.uid == c.uid then c1 else x) }).onUses core (lastTiles c p)
        (fun u => { u with holds := u.holds - 1 })

/-- Up to `n` pairs of a core (R298). -/
def State.doPairs (s : State) (core : Nat) : Nat → State
  | 0 => s
  | n + 1 => (s.doPair core).doPairs core n

/-- The cores of an octet, in order of their position in the cluster row (R13, R298). -/
def octetCores (o : Nat) : List Nat :=
  let c := o / 8
  let d := c / 16
  let y := 32 * (d / 2) + 8 * (c % 16 / 4) + o % 8
  let x := 32 * (d % 2) + 8 * (c % 4)
  (List.range 8).map (fun i => 64 * y + x + i)

/-- Whether a sample's deadline has passed (R311). -/
def State.late? (s : State) (x : Sample) : Bool :=
  match x.doneAt with
  | some t => decide (t + (s.die (dieOf x.core)).auditDeadline ≤ s.timeNs)
  | none => false

/-- Whether an AUDX sample's deadline has passed, so that its pairs come before every command pair (R311). -/
def State.overdue (s : State) (x : Sample) : Bool := x.audx && s.late? x

/-- The planes that the chains and the samples of an octet have yet to read: core, address, bytes. -/
def State.octetReads (s : State) (octet : Nat) : List (Nat × Nat × Nat) :=
  let planes := fun (core t : Nat) (p : TileCap × TileCap) =>
    [(core, p.1.base, p.1.n * (t * t / 8)), (core, p.2.base, p.2.n * (t * t / 8))]
  (s.mxCmds.filter (fun c => octetOf c.core == octet)).flatMap (fun (c : MxCmd) => (c.pairs.drop c.next).flatMap (planes c.core c.t))
    ++ (s.samples.filter (fun x => x.octet == octet)).flatMap (fun (x : Sample) =>
      (x.pairs.drop x.next).flatMap (planes x.core x.t))

/-- Whether a plane that an octet has to read meets a word that shows an error, or a column group under rebuild: the read waits
(R413). -/
def State.octetSoft (s : State) (octet : Nat) : Bool :=
  !s.softErrs.isEmpty
    && (s.octetReads octet).any (fun r => s.spadSoft r.1 r.2.1 r.2.2 || s.rebuilding r.1 r.2.1 r.2.2)

/-- The reads of an octet's engine find the errors of the words that they meet (R413). -/
def State.octetFind (s : State) (octet : Nat) : State :=
  (s.octetReads octet).foldl (fun (s : State) r => s.findSoft r.1 r.2.1 r.2.2) s

/-- Whether the engines of an octet stand still (R134, R428), or wait for the rebuild of a word. -/
def State.octetStopped (s : State) (octet : Nat) : Bool :=
  (s.cluster (octet / 8)).frozen || (s.cluster (octet / 8)).power != 0 || s.octetSoft octet

/-- MATRIX_ROUND (R298): a round of an octet's engine: each core with a command receives up to MX_WEIGHT
pairs, after those of an overdue sample (R311). Pick 0 is the octet; of the picks after it, each pair takes three, which say how its planes
are read (R302). -/
def execMatrixRound (s : State) : Host.Outcome State Fault Refusal :=
  if s.octetStopped (s.arg 0) || (s.octetSamples (s.arg 0)).any (fun x => s.overdue x && decide (x.next < x.pairs.length)) then
    .next (if s.octetSoft (s.arg 0) then s.octetFind (s.arg 0) else s)
  else
    .next ((octetCores (s.arg 0)).foldl (fun (s' : State) core => s'.doPairs core (s.core core).mxWeight) s)

/-- One accumulator element of an FP32 chain (R87). -/
def accF32 (old : Nat) (lo sum : Int) : FOut :=
  match Fmt.fp32.decode old with
  | .nan sig => ⟨Fmt.fp32.canon, nvIf sig⟩
  | .inf _ => ⟨old, 0⟩
  | .fin n m e =>
    if sum = 0 then ⟨old, 0⟩
    else Fmt.fp32.roundTo .rne false (sumFinite false [.fin n m e, .fin (decide (sum < 0)) sum.natAbs lo])

/-- One accumulator element of an INT32 chain (R89). -/
def accI32 (old : Nat) (sum : Int) : Nat := wrapI (clampI (sext old 32 + sum) (-(2 ^ 31)) (2 ^ 31 - 1)) 32

/-- Row `i` of the accumulators after a chain: its row and its flags (R301). -/
def accRow (c : MxCmd) (i : Nat) (row : Row) : Row × Word :=
  let lo := minScale c.pairs
  let out := (List.range 32).map (fun k =>
    let old := laneOf row 32 k
    if i < c.t ∧ k < c.t then
      (if c.i32 then ⟨accI32 old (c.sums.getD (c.t * i + k) 0), 0⟩ else accF32 old lo (c.sums.getD (c.t * i + k) 0))
    else ⟨old, 0⟩)
  (outRow 32 out, outFlags out)

/-- A chain's results written, and v0 to v31 full (R87, R89, R301). -/
def Strand.accumulate (t : Strand) (c : MxCmd) : Strand :=
  (List.range 32).foldl (fun (t : Strand) i =>
    let r := accRow c i (t.vreg i).val
    (t.setV i r.1).orFlags r.2) t

/-- MXQ_COMPLETE (R301): the oldest command of a core, its pairs all performed, completes. Pick 0 is the
core. -/
def execMxqComplete (s : State) : Host.Outcome State Fault Refusal :=
  match s.mxCmds.find? (fun c => c.core == s.arg 0) with
  | none => .next s
  | some c =>
    if c.next < c.pairs.length ∨ s.octetFrozen c.core = true then .next s
    else
      let note := fun (x : Sample) => if c.sample == some x.uid then { x with u := c.sums, doneAt := some s.timeNs } else x
      .next ({ s with
        mxCmds := s.mxCmds.filter (fun (y : MxCmd) => y.uid != c.uid)
        pends := s.pends.filter (fun (p : Pend) => p.uid != c.uid)
        samples := s.samples.map note }.onUid c.strand (fun t => t.accumulate c))

/-! ### The audit engine -/

/-- A sample gone: its slot and its pins are free (R311, R312). -/
def State.dropSample (s : State) (x : Sample) : State :=
  let s1 := { s with samples := s.samples.filter (fun y => y.uid != x.uid) }
  if x.unpinned then s1 else s1.onUses x.core (distinctTiles x.pairs) (fun u => { u with pins := u.pins - 1 })

/-- A sample abandoned (R311); one whose re-execution has ended is no longer. -/
def State.abandon (s : State) (x : Sample) : State :=
  if x.ended.isSome then s else (s.dropSample x).countAbandoned x.core x.launch x.reduced

/-- Whether a tile's GEN is still the one a chain captured (R310). -/
def State.sameGen (s : State) (core : Nat) (c : TileCap) : Bool := tGen (s.tile core c.tile) == c.gen

/-- The next pair of a sample re-executed with every stored plane (R309); what the audit engine reads is no MXQ's read, and does
not enter the operand cache. -/
def State.auditPair (s : State) (x : Sample) (p : TileCap × TileCap) : State :=
  let rd := s.planePicks x.uid 1
  let q := s.pairProduct x.core x.t p.1.planes p.2.planes rd.1 rd.2 p
  let x1 := { x with next := x.next + 1, f := addPair (minScale x.pairs) x.f p q.2 }
  { s with samples := s.samples.map (fun y => if y.uid == x.uid then x1 else y) }

/-- d of an element as a fraction (R312): F and U are multiples of 2^lo. -/
def divergence (lo f u : Int) : Nat × Nat :=
  let k := max 126 (-lo).toNat
  ((f - u).natAbs * 2 ^ (lo + Int.ofNat k).toNat, f.natAbs * 2 ^ (lo + Int.ofNat k).toNat + 2 ^ (k - 126))

/-- The larger of two fractions. -/
def fracMax (a b : Nat × Nat) : Nat × Nat := if a.1 * b.2 < b.1 * a.2 then b else a

/-- D over all elements (R312). -/
def divergenceMax (lo : Int) (fs us : List Int) : Nat × Nat :=
  (List.zipWith (divergence lo) fs us).foldl fracMax (0, 1)

/-- floor(log2 (n / d)) of a fraction above 0. -/
def log2Frac (n d : Nat) : Int :=
  let e := Int.ofNat (bitLen n) - Int.ofNat (bitLen d)
  if d * 2 ^ e.toNat ≤ n * 2 ^ (-e).toNat then e else e - 1

/-- The bin of a divergence (R312). -/
def binOf (f : Nat × Nat) : Nat := if f.1 = 0 then 0 else (clampI (log2Frac f.1 f.2 + 31) 0 31).toNat

/-- A message of an octet's audit engine (R115, R313), which leaves once its release at package scope is complete (R334). -/
def State.auditMessage (s : State) (x : Sample) (cls : Nat) (key : Word) (payload : List Word) (clock : List Nat) : State :=
  let seq := match s.auditSeqs.find? (fun p => p.1 == x.octet) with | some p => p.2 | none => 0
  let m : Msg :=
    { uid := s.nextUid, launch := x.launch, die := dieOf x.core, core := 4096 + x.octet
      stage := .queued, w := BitVec.ofNat 64 (2 ^ 51 + 0xFFFF * 2 ^ 32 + cls * 2 ^ 16 + 1)
        :: BitVec.ofNat 64 (seq % 65536 * 2 ^ 48 + s.timeNs % 2 ^ 48) :: key :: payload, clock := clock }
  ({ s with
    msgs := s.msgs ++ [m]
    auditSeqs := (x.octet, seq + 1) :: s.auditSeqs.filter (fun p => p.1 != x.octet) }).fresh

/-- Payload word 0 of the audit message (R313). -/
def auditWord (logical job tile gen bin tensor : Nat) : Word :=
  BitVec.ofNat 64 (logical % 65536 * 2 ^ 48 + job * 2 ^ 40 + tile * 2 ^ 32 + gen * 2 ^ 24 + bin * 2 ^ 16 + tensor)

/-- A sample changed. -/
def State.onSample (s : State) (u : Nat) (f : Sample → Sample) : State :=
  { s with samples := s.samples.map (fun y => if y.uid == u then f y else y) }

/-- The histogram of one reduced tensor updated, and its message made ready (R97, R312, R313). -/
def State.auditTensor (s : State) (x : Sample) (d : Nat × Nat) (t : Nat × Nat) : State :=
  let a := s.auditAddr x.launch t.1
  let s := s.touch (s.reqOf x.core x.launch false false a).cls a
  let fail := fun (at' : Nat) => s.report (dieOf x.core) x.launch 6 [BitVec.ofNat 64 t.1, BitVec.ofNat 64 at']
  match s.keys (s.reqOf x.core x.launch false false a) .r a 64 with
  | .error _ => fail a
  | .ok ks =>
    if s.uncorrectable ks then fail a
    else
      let r := s.viewRead (dieOf x.core) a ks
      let bin := binOf d
      let c := fieldOf r 0 8 + 8 * bin
      match s.auditAdd x.core x.launch c with
      | none => fail c
      | some p =>
        let th := fieldOf r 8 4
        let cls := fieldOf r 0xC 2
        let known := cls == 0xFFFF || (match s.launch? x.launch with
          | some l => l.m.classes.any (fun c => c.cls == cls)
          | none => false)
        if th = 0 ∨ p.2 ≠ th then p.1
        else if !known then
          p.1.report (dieOf x.core) x.launch 6 [BitVec.ofNat 64 t.1, BitVec.ofNat 64 a]
        else
          let gen := match (x.pairs.map (fun q => [q.1, q.2])).flatten.find? (fun q => q.tile == t.2) with
            | some q => q.gen
            | none => 0
          let u := s.use x.core t.2
          let w4 := quotRound Fmt.fp32 .rtz true false d.1 0 d.2 0
          let m := (cls, BitVec.ofNat 64 (fieldOf r 0x10 8),
            [auditWord (s.logicalOf x.core) u.job t.2 gen bin t.1, u.origin, BitVec.ofNat 64 p.2,
             BitVec.ofNat 64 (if d.1 = 0 then 0 else w4.bits)], p.1.addClock x.core x.launch c)
          p.1.onSample x.uid (fun y => { y with due := y.due ++ [m] })

/-- A sample ends (R312, R313): its messages leave, with the time of its end, and its pins and its slot are free. -/
def State.endSample (s : State) (u : Nat) : State :=
  match s.samples.find? (fun y => y.uid == u) with
  | none => s
  | some x =>
    (x.due.foldl (fun (s : State) m =>
      s.auditMessage x m.1 m.2.1 (m.2.2.1 ++ [BitVec.ofNat 64 (s.timeNs % 2 ^ 48)]) m.2.2.2) s).dropSample x

/-- Whether the updates of a sample's next reduced tensor wait for a page on the move (R282). -/
def State.tensorStalls (s : State) (x : Sample) (d : Nat × Nat) (n : Nat) : Bool :=
  let a := s.auditAddr x.launch n
  match s.keys (s.reqOf x.core x.launch false false a) .r a 64 with
  | .error _ => false
  | .ok ks => s.readStalls a 64
      || s.auditStalls x.core x.launch (fieldOf (s.viewRead (dieOf x.core) a ks) 0 8 + 8 * binOf d) (x.ended.getD [])

/-- AUDIT_SAMPLE_COMPLETE (R309 to R312): the next pair of an octet's oldest sample, or of its oldest overdue AUDX sample, is
re-executed, in a cycle in which no command of the octet has a pair ready or ahead of them all; and, all its pairs done, the
histogram of its next reduced tensor is updated, after the last of which it ends. A sample whose tile has another GEN, or one
selected by AUDIT_RATE alone whose deadline has passed before that, is abandoned. Pick 0 is the octet; picks 1 to 3 are as for
MATRIX_ROUND. Where pick 4 is 1, the octet's oldest add to ABANDONED is performed. -/
def execAuditSampleComplete (s : State) : Host.Outcome State Fault Refusal :=
  let mine := s.octetSamples (s.arg 0)
  if s.arg 4 = 1 then
    match s.auditAdds.find? (fun x => x.octet == s.arg 0) with
    | none => .next s
    | some x => .next (s.doAuditAdd x)
  else
  match (mine.find? s.overdue).or mine.head? with
  | none => .next s
  | some x =>
    let busy := s.mxCmds.any (fun c => octetOf c.core == x.octet && decide (c.next < c.pairs.length))
    if x.doneAt.isNone || s.octetStopped x.octet then .next s
    else if !x.audx && s.late? x && x.ended.isNone then .next (s.abandon x)
    else
      match x.pairs[x.next]? with
      | some p =>
        if busy && !s.overdue x then .next s
        else if !s.sameGen x.core p.1 || !s.sameGen x.core p.2 then .next (s.abandon x)
        else .next (s.auditPair x p)
      | none =>
        let d := divergenceMax (minScale x.pairs) x.f x.u
        if x.ended.isNone then .next (s.onSample x.uid (fun y => { y with ended := some (s.die (dieOf x.core)).clock }))
        else
          match x.reduced with
          | [] => .next (s.endSample x.uid)
          | t :: ts =>
            if s.tensorStalls x d t.1 then .next s
            else
              let s1 := s.auditTensor x d t
              if ts.isEmpty then .next (s1.endSample x.uid)
              else .next (s1.onSample x.uid (fun y => { y with reduced := ts }))

/-- AUDIT_DEADLINE (R311): a sample selected by AUDIT_RATE alone has not completed when its deadline has
passed. Pick 0 is its place. Where pick 1 is not 0, the drover core of die pick 0 sets AUDIT_DEADLINE to so many
microseconds. -/
def execAuditDeadline (s : State) : Host.Outcome State Fault Refusal :=
  if s.arg 1 ≠ 0 then
    .next (if s.arg 1 ≤ 10000 then s.onDie (s.arg 0) (fun d => { d with auditDeadline := 1000 * s.arg 1 }) else s)
  else
    match s.samples[s.arg 0]? with
    | none => .next s
    | some x => .next (if !x.audx && s.late? x && !s.octetStopped x.octet then s.abandon x else s)

end Sys2Proof.Machine
end

