-- ==== Sys2Proof/Machine/Pipes.lean ====
section
/-! DEFINITION. Pipes (R382 to R388): PSEND, EOS, PRECV, and the steps by which items and credits travel. -/

namespace Sys2Proof.Machine

/-! ### Channels -/

/-- A pipe of a launch. -/
def State.pipe? (s : State) (launch p : Nat) : Option PipeD :=
  match s.launch? launch with
  | some l => l.m.pipes[p]?
  | none => none

/-- A channel (R382); one nothing has been sent on is not listed. -/
def State.channel (s : State) (launch p i : Nat) : Channel :=
  (s.channels.find? (fun c => c.launch == launch && c.p == p && c.i == i)).getD
    { launch := launch, p := p, i := i
      credits := match s.pipe? launch p with | some d => d.slots | none => 0 }

/-- A channel set. -/
def State.setChannel (s : State) (c : Channel) : State :=
  { s with
    channels := c :: s.channels.filter (fun x => !(x.launch == c.launch && x.p == c.p && x.i == c.i)) }

/-- The index of a team in its kernel (R99). -/
def State.teamIndex (s : State) (h : Hold) : Nat :=
  match s.kernelOf h.launch h.kernel with
  | some kd => h.convoy * kd.teams + h.idx
  | none => 0

/-- Teams of the kernels before kernel `k` (R99). -/
def Manifest.teamsBefore (m : Manifest) (k : Nat) : Nat := ((m.kernels.take k).map (fun x => x.convoys * x.teams)).sum

/-- The team of a kernel by its index, while it holds a core. -/
def State.teamAt (s : State) (launch k i : Nat) : Option Hold :=
  s.holds.find? (fun h => h.launch == launch && h.kernel == k && s.teamIndex h == i)

/-- Whether team `i` of a kernel has ended (R440). -/
def State.teamGone (s : State) (launch k i : Nat) : Bool :=
  (s.teamAt launch k i).any (·.ended)
    || (match s.launch? launch with
        | some l => l.endedTeams.contains (l.m.teamsBefore k + i)
        | none => true)

/-- The narrowest scope that holds both cores of a channel (R388): 2 a convoy, 3 a die, 4 the package. -/
def scopeBetween (a b : Nat) : Nat :=
  if clusterOf a = clusterOf b then 2 else if dieOf a = dieOf b then 3 else 4

/-! ### PSEND and EOS -/

/-- The team that the issuing strand belongs to; a handler or creator belongs to none (R384 step 2). -/
def State.pipeTeam (s : State) : Option Hold :=
  if s.cur.isHandler then none else s.holdOf s.cur.core s.cur.launch

/-- Whether another strand of the team stands in a PSEND or EOS on the pipe that issued earlier: items are numbered in
the order in which their instructions issue (R382). Two that issued in one cycle count by slot. -/
def State.pipeAhead (s : State) (p : Nat) : Bool :=
  s.all.any (fun t => t.uid != s.cur.uid && t.core == s.cur.core && t.launch == s.cur.launch && !t.isHandler
    && t.wait.kind == .psend && t.wait.n == p
    && (s.cur.wait.kind != .psend || decide (t.wait.since < s.cur.wait.since)
      || t.wait.since == s.cur.wait.since && decide (t.slot < s.cur.slot)))

/-- What a pipe instruction needs: its pipe, its team, and the channel's index, or PROTECTION (R384 steps 1
and 2). -/
def pipeCheck (a : BitVec 6) (producer : Bool) (s : State)
    (k : Nat → PipeD → Nat → Host.Outcome State Fault Refusal) : Host.Outcome State Fault Refusal :=
  let v := (s.cur.val a).toNat
  match s.pipe? s.cur.launch v, s.pipeTeam with
  | some d, some h =>
    if 64 ≤ v ∨ h.kernel ≠ (if producer then d.producer else d.consumer) then trap s Cause.protection (s.cur.val a)
    else k v d (s.teamIndex h)
  | _, _ => trap s Cause.protection (s.cur.val a)

/-- The address of a PSEND or PRECV (R384 step 3). -/
def pipeAddr (b : BitVec 6) (d : PipeD) (s : State) (k : Host.Outcome State Fault Refusal) :
    Host.Outcome State Fault Refusal :=
  let v := s.cur.val b
  if v.toNat % 8 ≠ 0 then trap s Cause.misaligned v
  else if Config.spadBytes < v.toNat + d.slotSize then trap s Cause.protection v
  else k

/-- A PSEND or EOS that stalls; it is tested again each time its strand is chosen (R385). -/
def pipeStall (s : State) (p : Nat) : Host.Outcome State Fault Refusal :=
  let since := if s.cur.wait.kind = .psend then s.cur.wait.since else s.cycles
  .next { s.onCur (fun t => { t with wait := { kind := .psend, n := p, since := since } }) with stalled := true }

/-- A PSEND or EOS complete. -/
def pipeDone (s : State) : Host.Outcome State Fault Refusal :=
  finish s 4 (fun t => { t.unpark with wait := { } })

/-- An item or token sent on a channel (R385). -/
def State.sendItem (s : State) (c : Channel) (strand core dst kind data scope : Nat) : State :=
  let it : PipeItem :=
    { uid := s.nextUid, strand := strand, core := core, dst := dst, launch := c.launch, p := c.p, i := c.i, k := c.sent,
      kind := kind, data := data, scope := scope }
  ({ s.setChannel { c with credits := c.credits - 1, sent := c.sent + 1, token := c.token || kind != 0 } with
    pipeItems := s.pipeItems ++ [it] }).fresh

/-- PSEND and EOS after their checks (R382, R385, R386); a full flow stalls them as any packet (R141). -/
def pipePlace (s s' : State) (p : Nat) (d : PipeD) (i kind data : Nat) : Host.Outcome State Fault Refusal :=
  let c := s.channel s.cur.launch p i
  if s.teamGone s.cur.launch d.consumer i then
    if c.reported then pipeDone s'
    else
      pipeDone ((s'.setChannel { c with reported := true }).report (dieOf s.cur.core) s.cur.launch 7
        [BitVec.ofNat 64 p, BitVec.ofNat 64 i])
  else
    match s.teamAt s.cur.launch d.consumer i with
    | none => pipeStall s p
    | some h =>
      if !h.started || c.credits == 0 || s.pipeAhead p then pipeStall s p
      else if s.nFlowFull s.cur.core h.core then stall s
      else pipeDone (s'.sendItem c s.cur.uid s.cur.core h.core kind data (scopeBetween s.cur.core h.core))

/-- PSEND (R384, R385). -/
def execPsend (x : AB) (s : State) : Host.Outcome State Fault Refusal :=
  issue s { fields := [.s x.a x.pa 14, .s x.b x.pb 21], mem := true } (fun s' =>
    pipeCheck x.a true s (fun p d i =>
      pipeAddr x.b d s
        (if (s.channel s.cur.launch p i).token then trap s Cause.protection (s.cur.val x.a)
        else pipePlace s s' p d i 0 (s.spadRead s.cur.core (s.cur.val x.b).toNat d.slotSize))))

/-- EOS (R384, R385). -/
def execEos (x : A1) (s : State) : Host.Outcome State Fault Refusal :=
  issue s { fields := [.s x.a x.pa 14], mem := true } (fun s' =>
    pipeCheck x.a true s (fun p d i =>
      if (s.channel s.cur.launch p i).token then trap s Cause.protection (s.cur.val x.a)
      else pipePlace s s' p d i 1 0))

/-- PRECV (R384, R387). -/
def execPrecv (x : A3) (s : State) : Host.Outcome State Fault Refusal :=
  issue s { fields := [.s x.a x.pa 14, .s x.b x.pb 21, .d x.d 7], mem := true } (fun s' =>
    pipeCheck x.a false s (fun p d _ =>
      pipeAddr x.b d s
        (finish (s'.pendOn x.d.toNat true (.precv p (s.cur.val x.b).toNat)) 4 (fun t =>
          { t with lastAt := some ⟨s.cur.pc, s'.nextUid, t.emptiedCells s.cur⟩ }))))

/-! ### Items and credits on their way -/

/-- The device places its token behind the items of a producer team that ended without one, once a slot is
free (R386). -/
def State.placeAbort (s : State) (c : Channel) : State :=
  if c.abort && !c.token && c.credits != 0 then s.sendItem c 0 0 0 2 0 1 else s

/-- The channels a team that has ended was the producer of: their tokens of KIND 2 (R386). -/
def State.abortChannels (s : State) (launch k i : Nat) : State :=
  match s.launch? launch with
  | none => s
  | some l =>
    (List.range l.m.pipes.length).foldl (fun (s : State) p =>
      let c := s.channel launch p i
      if (l.m.pipes.getD p { }).producer = k ∧ c.token = false then
        let c1 := { c with abort := true }
        (s.setChannel c1).placeAbort c1
      else s) s

/-- PIPE_ITEM_ARRIVAL (R383, R388): an item or a token lands at its consumer core, in the order of its
channel, once its release has completed; where the consumer team has ended it is discarded. The device's own token (R386) releases
nothing. Pick 0 is its place. -/
def execPipeItemArrival (s : State) : Host.Outcome State Fault Refusal :=
  match s.pipeItems[s.arg 0]? with
  | none => .next s
  | some x =>
    let same := fun (y : PipeItem) => y.launch == x.launch && y.p == x.p && y.i == x.i && y.k < x.k
    if s.pipeItems.any same || !s.releaseReady x.strand x.uid x.scope x.core then .next s
    else
      let s1 := { s with pipeItems := s.pipeItems.eraseIdx (s.arg 0) }
      match s.pipe? x.launch x.p with
      | none => .next s1
      | some d =>
        if s.teamGone x.launch d.consumer x.i then .next s1
        else
          match s.teamAt x.launch d.consumer x.i with
          | none => .next s
          | some h =>
            if h.away then .next s
            else
              let c := s.channel x.launch x.p x.i
              let s2 := s1.setChannel { c with landed := c.landed ++ [(x.k, x.kind, if x.strand = 0 then [] else (s.die (dieOf x.core)).clock)] }
              if s.rebuilding h.core (d.buf + x.k % d.slots * d.slotSize) d.slotSize then .next s
              else if x.kind = 0 then
                .next (s2.spadPut h.core (d.buf + x.k % d.slots * d.slotSize) d.slotSize x.data (fullMask d.slotSize))
              else .next s2

/-- PIPE_CREDIT_RETURN (R383): a slot's credit is back at its producer. Pick 0 is its place. -/
def execPipeCreditReturn (s : State) : Host.Outcome State Fault Refusal :=
  match s.pipeCredits[s.arg 0]? with
  | none => .next s
  | some r =>
    let c := s.channel r.1 r.2.1 r.2.2
    let c1 := { c with credits := c.credits + 1 }
    .next (({ s with pipeCredits := s.pipeCredits.eraseIdx (s.arg 0) }.setChannel c1).placeAbort c1)

/-- A PRECV answered: its strand acquires what was released with the item or the token (R388). -/
def State.precvDone (s : State) (p : Pend) (v : Nat) (c : List Nat) : State :=
  (s.answerVal p v).onUid p.strand (fun t => t.acquire c)

/-- A PRECV's turn (R387): it is the oldest of its channel, and the channel is closed or its next item has
landed. -/
def State.doPrecv (s : State) (p : Pend) (n addr : Nat) : State :=
  let mine := fun (q : Pend) => q.launch == p.launch && q.core == p.core
    && (match q.op with | .precv m _ => m == n | _ => false)
  match s.pends.find? mine, s.holdOf p.core p.launch, s.pipe? p.launch n with
  | some o, some h, some d =>
    if o.uid ≠ p.uid then s
    else
      let i := s.teamIndex h
      let c := s.channel p.launch n i
      match c.closed with
      | some kind => s.precvDone p (kind * 2 ^ 32 + c.taken % 2 ^ 32) c.clock
      | none =>
        match c.landed.find? (fun x => x.1 == c.taken) with
        | none => s
        | some x =>
          let slot := d.buf + c.taken % d.slots * d.slotSize
          if s.rebuilding p.core slot d.slotSize || s.rebuilding p.core addr d.slotSize then s
          else if s.spadSoft p.core slot d.slotSize then s.findSoft p.core slot d.slotSize
          else
          let c1 : Channel :=
            { c with
              taken := c.taken + 1, landed := c.landed.filter (fun y => y.1 != c.taken)
              closed := if x.2.1 = 0 then none else some x.2.1, clock := x.2.2 }
          let s1 := { s.setChannel c1 with pipeCredits := s.pipeCredits ++ [(p.launch, n, i)] }
          let s2 :=
            if x.2.1 = 0 then
              s1.spadPut p.core addr d.slotSize (s.spadRead p.core slot d.slotSize) (fullMask d.slotSize)
            else s1
          s2.precvDone p (x.2.1 * 2 ^ 32 + c.taken % 2 ^ 32) x.2.2
  | _, _, _ => s

end Sys2Proof.Machine
end

