-- ==== Sys2Proof/Machine/Mesh.lean ====
section
/-! DEFINITION. The mesh as instructions see it: MCAST and its tree (R147 to R151), the receive queue and
NETRX (R152, R153), and the occupancy counts of the routers (R143). -/

namespace Sys2Proof.Machine

/-! ### The multicast tree -/

/-- Whether a core is a destination of a multicast packet as it is issued (R149, R150). -/
def State.isDest (s : State) (m : Mcast) (core : Nat) : Bool :=
  m.x0 ≤ core % 64 && core % 64 < m.x0 + m.w && m.y0 ≤ core / 64 && core / 64 < m.y0 + m.h
    && core != m.src && !s.dead.contains core && !s.isFenced core
    && (m.sup || (s.holdOf core m.launch).any (fun h => !h.ended))

/-- The destinations of a packet as it is issued, row by row (R149). -/
def State.destsOf (s : State) (m : Mcast) : List Nat :=
  (List.range m.h).flatMap (fun r => ((List.range m.w).map (fun c => 64 * (m.y0 + r) + m.x0 + c)).filter (fun c => s.isDest m c))

/-- The spine row of a packet (R147). -/
def Mcast.spine (m : Mcast) : Nat := max m.y0 (min (meshPlace m.src / 64) (m.y0 + m.h - 1))

/-- The tree branches that leave a router (R147): 0 north, 1 east, 2 south, 3 west. -/
def Mcast.links (m : Mcast) : List Nat :=
  let x := m.router % 64
  let y := m.router / 64
  let sx := meshPlace m.src % 64
  let r := m.spine
  let x1 := m.x0 + m.w - 1
  let y1 := m.y0 + m.h - 1
  if y = r then
    (if sx ≤ x ∧ x < x1 then [1] else []) ++ (if x ≤ sx ∧ m.x0 < x then [3] else [])
      ++ (if m.x0 ≤ x ∧ x ≤ x1 ∧ m.y0 < y then [0] else []) ++ (if m.x0 ≤ x ∧ x ≤ x1 ∧ y < y1 then [2] else [])
  else if y < m.y0 then [2]
  else if y1 < y then [0]
  else if y < r then (if m.y0 < y then [0] else [])
  else (if y < y1 then [2] else [])

/-- Every branch of a packet at its router; 4 is the core's own receive queue. -/
def Mcast.branches (m : Mcast) : List Nat := m.links ++ (if m.dests.contains m.router then [4] else [])

/-- The destinations that lie on a branch of the tree (R147): on the spine all beyond it, in a column those up or down it, and
before the rectangle all. -/
def Mcast.beyond (m : Mcast) (b : Nat) : List Nat :=
  let x := m.router % 64
  let y := m.router / 64
  let inside := decide (m.y0 ≤ y) && decide (y < m.y0 + m.h)
  m.dests.filter (fun c => match b with
    | 0 => !inside || decide (c % 64 = x) && decide (c / 64 < y)
    | 1 => decide (x < c % 64)
    | 2 => !inside || decide (c % 64 = x) && decide (y < c / 64)
    | 3 => decide (c % 64 < x)
    | _ => decide (c = m.router))

/-- The router a link leads to. -/
def linkTo (router d : Nat) : Nat :=
  match d with
  | 0 => router - 64
  | 1 => router + 1
  | 2 => router + 64
  | _ => router - 1

/-- Whether a packet of the same core to a core is before this one (R141): it is to be delivered first. -/
def State.mcastBefore (s : State) (m : Mcast) (core : Nat) : Bool :=
  s.mcasts.any (fun x => x.src == m.src && decide (x.uid < m.uid) && x.dests.contains core)

/-- The input that stands for the reorder buffer of a core's network interface (R141). -/
def reorder : Nat := 6

/-- Whether a branch has room (R139, R148, R152): two packets of three flits in the eight of a channel; or a place in the receive
queue, or, of a packet that comes before an earlier one of its flow, in the reorder buffer of 32 (R141). -/
def State.branchRoom (s : State) (m : Mcast) (b : Nat) : Bool :=
  if b = 4 then
    if s.mcastBefore m m.router then
      m.inp != reorder && decide ((s.mcasts.filter (fun x => x.router == m.router && x.inp == reorder)).length < 32)
    else decide ((s.rxq.filter (fun x => x.core == m.router)).length < Config.rxDepth)
  else
    decide ((s.mcasts.filter (fun x => x.router == linkTo m.router b && x.inp == (b + 2) % 4 && x.left.isNone)).length < 2)

/-- A packet sent into a branch (R148); a core that is fenced or retired by then receives nothing (R151, R157), and an early packet
waits in its reorder buffer (R141). -/
def State.sendBranch (s : State) (m : Mcast) (b : Nat) : State :=
  if b = 4 then
    (if s.mcastBefore m m.router then
      { s with mcasts := s.mcasts ++ [{ m with inp := reorder, left := some [4], dests := m.dests.filter (· == m.router) }] }
    else if m.dests.contains m.router && !s.dead.contains m.router && !s.isFenced m.router then
      { s with rxq := s.rxq ++ [{ core := m.router, src := m.src, tag := m.tag, data := m.data }] }
    else s)
  else
    { s with mcasts := s.mcasts ++ [{ m with router := linkTo m.router b, inp := (b + 2) % 4, left := none, dests := m.beyond b }] }

/-- A packet sent into every branch of a list that has room; the rest stays untaken. -/
def State.forkInto (s : State) (k : Nat) (m : Mcast) (bs : List Nat) : State :=
  let go := bs.filter (fun b => s.branchRoom m b)
  let left := bs.filter (fun b => !s.branchRoom m b)
  let s1 := if left.isEmpty then { s with mcasts := s.mcasts.eraseIdx k } else 
    { s with mcasts := s.mcasts.set k { m with left := some left, dests := (left.flatMap m.beyond).eraseDups } }
  go.foldl (fun (s : State) b => s.sendBranch m b) s1

/-- MULTICAST_FORK (R148): the head of a packet is at a router whose residue buffer for the channel is empty,
and no packet is before it there. Pick 0 is its place. -/
def execMulticastFork (s : State) : Host.Outcome State Fault Refusal :=
  match s.mcasts[s.arg 0]? with
  | none => .next s
  | some m =>
    let here := fun (x : Mcast) => x.router == m.router && x.inp == m.inp
    if m.left.isSome || (s.mcasts.take (s.arg 0)).any here || s.mcasts.any (fun x => here x && x.left.isSome) then .next s
    else .next (s.forkInto (s.arg 0) m m.branches)

/-- RESIDUE_BRANCH_SEND (R148): the residue buffer sends its packet into the untaken branches that have room.
Pick 0 is its place. -/
def execResidueBranchSend (s : State) : Host.Outcome State Fault Refusal :=
  match s.mcasts[s.arg 0]? with
  | none => .next s
  | some m =>
    match m.left with
    | none => .next s
    | some bs => .next (s.forkInto (s.arg 0) m bs)

/-! ### MCAST and NETRX -/

/-- The packet an MCAST describes (R149); a drover core's enters by the sixth port of the router at its die's corner (R136). -/
def State.packetOf (s : State) (v data : Nat) : Mcast :=
  { uid := s.nextUid, src := s.cur.core, launch := s.cur.launch, sup := s.cur.mode == .supervisor,
    tag := v / 2 ^ 48 % 2 ^ 16, data := data, x0 := v % 256, y0 := v / 2 ^ 8 % 256, w := v / 2 ^ 16 % 256,
    h := v / 2 ^ 24 % 256, router := meshPlace s.cur.core, inp := if s.cur.core < 4096 then 4 else 5 }

/-- Whether a rectangle holds a destination of a packet (R150). -/
def State.anyDest (s : State) (m : Mcast) : Bool :=
  (List.range m.h).any (fun r => (List.range m.w).any (fun c => s.isDest m (64 * (m.y0 + r) + m.x0 + c)))

/-- Whether R141 holds a packet back: 32 of the core's packets to one of its destinations are in the network. -/
def State.mcastHeld (s : State) (m : Mcast) : Bool :=
  (s.destsOf m).any (fun c => decide (32 ≤ (s.mcasts.filter (fun x => x.src == m.src && x.dests.contains c)).length))

/-- MCAST (R149 to R151). -/
def execMcast (x : AB) (s : State) : Host.Outcome State Fault Refusal :=
  issue s { fields := [.s x.a x.pa 14, .s x.b x.pb 21], mem := true } (fun s' =>
    let v := (s.cur.val x.a).toNat
    let b := (s.cur.val x.b).toNat
    let m := s.packetOf v (s.spadRead s.cur.core b 128)
    if m.w = 0 ∨ m.h = 0 then finish s' 4 (fun t => t)
    else if 64 < m.x0 + m.w ∨ 64 < m.y0 + m.h then trap s Cause.protection (s.cur.val x.a)
    else if b % 128 ≠ 0 then trap s Cause.misaligned (s.cur.val x.b)
    else if Config.spadBytes ≤ b then trap s Cause.protection (s.cur.val x.b)
    else if !s.anyDest m then finish s' 4 (fun t => t)
    else if s.mcastHeld m then stall s
    else finish ({ s' with mcasts := s'.mcasts ++ [{ m with dests := s.destsOf m }] }).fresh 4 (fun t => t))

/-- A core has taken a packet: the corner's time is kept (R262). -/
def State.cornerTook (s : State) (core : Nat) : State :=
  if core = cornerOf (dieOf core) then s.onDie (dieOf core) (fun d => { d with cornerAt := s.timeNs }) else s

/-- NETRX (R153): it does not issue while the receive queue is empty. -/
def execNetrx (x : A2) (s : State) : Host.Outcome State Fault Refusal :=
  issue s { fields := [.s x.a x.pa 14, .d x.d 7], mem := true } (fun s' =>
    let a := (s.cur.val x.a).toNat
    match s.rxq.find? (fun p => p.core == s.cur.core) with
    | none => stall s
    | some p =>
      if a % 128 ≠ 0 then trap s Cause.misaligned (s.cur.val x.a)
      else if Config.spadBytes ≤ a then trap s Cause.protection (s.cur.val x.a)
      else
        let s1 := { s' with rxq := s'.rxq.eraseP (fun q => q.core == s.cur.core) }
        finish ((s1.cornerTook s.cur.core).spadStore a 128 p.data (fullMask 128)) 4 (fun t =>
          t.setG x.d (BitVec.ofNat 64 (p.tag * 2 ^ 48 + meshPlace p.src / 64 * 2 ^ 8 + meshPlace p.src % 64))))

/-! ### Occupancy counts (R143) -/

/-- The count of a region that a router holds. -/
def State.occOf (s : State) (router region : Nat) : Nat :=
  match s.occ.find? (fun x => x.1 == router && x.2.1 == region) with
  | some x => x.2.2
  | none => 0

/-- A count set. -/
def setOcc (l : List (Nat × Nat × Nat)) (router region n : Nat) : List (Nat × Nat × Nat) :=
  let rest := l.filter (fun x => !(x.1 == router && x.2.1 == region))
  if n = 0 then rest else (router, region, n) :: rest

/-- Hops from a router to the nearest router of a region. -/
def regionDist (router region : Nat) : Nat :=
  let x := router % 64
  let y := router / 64
  let d := region / 16
  let rx := 32 * (d % 2) + 8 * (region % 4)
  let ry := 32 * (d / 2) + 8 * (region % 16 / 4)
  (rx - x) + (x - (rx + 7)) + (ry - y) + (y - (ry + 7))

/-- The neighbours of a router (R136). -/
def neighboursOf (router : Nat) : List Nat :=
  (if 64 ≤ router then [router - 64] else []) ++ (if router % 64 < 63 then [router + 1] else [])
    ++ (if router < 4032 then [router + 64] else []) ++ (if router % 64 ≠ 0 then [router - 1] else [])

/-- The counts of a router passed to one neighbour, which keeps what it hears from nearer the region. -/
def State.passOcc (s : State) (router n : Nat) : State :=
  (List.range 64).foldl (fun (s : State) q =>
    if regionDist router q < regionDist n q then { s with occ := setOcc s.occ n q (s.occOf router q) } else s) s

/-- OCCUPANCY_PROPAGATE (R143): a router counts its own region and passes its counts to its neighbours. Pick 0
is the router, pick 1 the count of its region, which the flits in the buffers decide. Where pick 2 is not 0, the drover core
of the router's die writes IMBALANCE_LIMIT instead: pick 1 is from 0 to 15. -/
def execOccupancyPropagate (s : State) : Host.Outcome State Fault Refusal :=
  let r := s.arg 0
  if 4096 ≤ r then .next s
  else if s.arg 2 ≠ 0 then
    .next (if s.arg 1 ≤ 15 then s.onDie (dieOf r) (fun d => { d with imbalance := s.arg 1 }) else s)
  else
    let s1 := { s with occ := setOcc s.occ r (clusterOf r) (min 15 (s.arg 1)) }
    .next ((neighboursOf r).foldl (fun (s : State) n => s.passOcc r n) s1)

end Sys2Proof.Machine
end

