-- ==== Sys2Proof/Machine/Actors.lean ====
section
/-! DEFINITION. Actors: the key hash (R158, R159), the flow table (R160 to R170), twin execution (R172 to
R174, R423 to R425), the profile table (R176, R177), and SEND, SENDC and DONE (R178 to R182). -/

namespace Sys2Proof.Machine

/-! ### The key hash -/

/-- H of a class and a key (R158). -/
def keyHash (cls : Nat) (key : Word) : Word :=
  let x := key ^^^ BitVec.ofNat 64 (cls % 65536 * 2 ^ 48) ^^^ 0x9E3779B97F4A7C14
  let x := x ^^^ (x >>> 32)
  let x := x ^^^ (x >>> 16)
  let x := x ^^^ (x >>> 8)
  let x := x ^^^ (x >>> 4)
  let x := x ^^^ (x >>> 2)
  let x := x * 0xD6E8FEB86659FD95
  let x := x ^^^ (x <<< 23)
  let x := x * 0x94D049BB133111ED
  x ^^^ (x <<< 31)

/-- The home die of an actor (R159). -/
def homeDie (cls : Nat) (key : Word) : Nat := (keyHash cls key).toNat % 4

/-- The port of an actor at its home die (R160). -/
def portOf (cls : Nat) (key : Word) : Nat := (keyHash cls key).toNat / 2 ^ 46 % 4

/-- The set of an actor (R160). -/
def setOf (cls : Nat) (key : Word) : Nat := (keyHash cls key).toNat / 2 ^ 48

/-- CLASS of a message (R115). -/
def Msg.cls (m : Msg) : Nat := (m.w.headD 0).toNat / 2 ^ 16 % 2 ^ 16
/-- SELECTOR of a message. -/
def Msg.sel (m : Msg) : Nat := (m.w.headD 0).toNat % 2 ^ 16
/-- SENDER of a message. -/
def Msg.sender (m : Msg) : Nat := (m.w.headD 0).toNat / 2 ^ 32 % 2 ^ 16
/-- The key of a message. -/
def Msg.key (m : Msg) : Word := m.w.getD 2 0
/-- The send timestamp of a message. -/
def Msg.time (m : Msg) : Nat := (m.w.getD 1 0).toNat % 2 ^ 48

/-- The package an actor lives on, as the table of a die has it (R175). -/
def State.packageOf (s : State) (d cls : Nat) (key : Word) : Nat := (s.die d).routes.getD ((keyHash cls key).toNat / 2 ^ 56) 0

/-- Whether a message to an actor leaves its die for another package (R175). -/
def State.leaves (s : State) (m : Msg) : Bool :=
  !m.isCounter && m.cls != 0xFFFF && s.packageOf m.die m.cls m.key != (s.die m.die).package

/-- Whether two messages of one core follow one path (R141): to a comparator, a host ring, another package, a counter's
die, or a port. -/
def State.sameFlow (s : State) (m o : Msg) : Bool :=
  m.core == o.core && m.isItem == o.isItem &&
    (if m.isItem then m.entry == o.entry
    else if m.isCounter || o.isCounter then m.isCounter && o.isCounter && m.key.toNat / 4096 % 4 == o.key.toNat / 4096 % 4
    else if m.cls = 0xFFFF ∨ o.cls = 0xFFFF then m.cls == o.cls && m.key.toNat % 64 == o.key.toNat % 64
    else
      s.packageOf m.die m.cls m.key == s.packageOf o.die o.cls o.key && homeDie m.cls m.key == homeDie o.cls o.key
        && portOf m.cls m.key == portOf o.cls o.key)

/-! ### SEND and SENDC -/

/-- Whether a launch declares a class. -/
def State.classOf (s : State) (launch cls : Nat) : Option ClassD :=
  match s.launch? launch with
  | some l => l.m.classes.find? (fun c => c.cls == cls)
  | none => none

/-- The free slots of a host receive ring, if it is registered (R123). -/
def State.ringRoom (s : State) (r : Nat) : Option Nat :=
  match s.link.rings[r]? with
  | some x => if x.size = 0 then none else some (x.size - (x.prod + 2 ^ 32 - x.cons) % 2 ^ 32)
  | none => none

/-- Whether the holding buffer of a message's host ring is full (R123): of the messages on their way to the ring, 32 find no slot of
it free. -/
def State.holdingFull (s : State) (m : Msg) : Bool :=
  let r := m.key.toNat % 64
  match s.ringRoom r with
  | none => false
  | some n => decide (32 + n ≤ (s.msgs.filter (fun o => (o.stage == .sent || o.stage == .queued) && !o.isCounter
    && o.cls == 0xFFFF && o.key.toNat % 64 == r)).length)

/-- Whether R141 or R123 holds a message back: 32 of its flow in the network, or a full holding buffer. -/
def State.cannotInject (s : State) (m : Msg) : Bool :=
  let on := fun (o : Msg) => o.isItem || o.stage == .sent || o.stage == .queued
  if !m.isCounter && m.cls == 0xFFFF && s.holdingFull m then true
  else if !m.isItem && !m.isCounter && m.cls == 0xFFFF then false
  else decide (32 ≤ (s.msgs.filter (fun o => on o && s.sameFlow m o)).length)

/-- The message a SEND sends (R179). -/
def State.sendMsg (s : State) (a key : Word) : Msg :=
  let t := s.cur
  { uid := s.nextUid, launch := t.launch, die := dieOf t.core, strand := some t.uid, core := t.core,
    stage := if t.twin.isSome then .twin else .queued, entry := t.entry
    w := [BitVec.ofNat 64 (s.logicalOf t.core * 2 ^ 32 + a.toNat % 2 ^ 32),
      BitVec.ofNat 64 (t.seq * 2 ^ 48 + s.timeNs % 2 ^ 48), key, t.e[0], t.e[1], t.e[2], t.e[3], t.e[4]] }

/-- SEND, and SENDC with its destination (R178 to R180); a twin's messages go to the comparator (R173). DEDUCED (log entry 66):
where the holding buffer of R123 is full, which R123 says stalls a SENDC too, a SENDC writes 0, as R179 says of that condition. -/
def sendOp (fs : List Field) (a b : BitVec 6) (d : Option (BitVec 6)) (s : State) : Host.Outcome State Fault Refusal :=
  issue s { fields := fs, mem := true } (fun s' =>
    let cls := (s.cur.val a).toNat / 2 ^ 16 % 2 ^ 16
    let m := s.sendMsg (s.cur.val a) (s.cur.val b)
    if cls = 0 ∨ cls ≠ 0xFFFF ∧ (s.classOf s.cur.launch cls).isNone = true then
      trap s Cause.protection (BitVec.ofNat 64 cls)
    else if s.cur.twin.isSome && decide (32 ≤ s.cur.twinSends) then trap s Cause.protection 33
    else if s.cannotInject m then
      (match d with
       | none => stall s
       | some r => finish s' 4 (fun t => t.setG r 0))
    else
      finish ({ s' with msgs := s'.msgs ++ [m] }).fresh 4 (fun t =>
        let t1 : Strand := match d with | none => t | some r => t.setG r 1
        { t1 with seq := (t.seq + 1) % 65536, twinSends := t.twinSends + 1 }))

/-- SEND (R178). -/
def execSend (x : AB) (s : State) : Host.Outcome State Fault Refusal :=
  sendOp [.s x.a x.pa 14, .s x.b x.pb 21] x.a x.b none s

/-- SENDC (R178). -/
def execSendc (x : A3) (s : State) : Host.Outcome State Fault Refusal :=
  sendOp [.s x.a x.pa 14, .s x.b x.pb 21, .d x.d 7] x.a x.b (some x.d) s

/-- REPORT of a message (R115). -/
def Msg.isReport (m : Msg) : Bool := (m.w.headD 0).getLsbD 52

/-- Whether the release of a message has completed (R180, R313, R332): a strand's, or that of the die whose unit sends it; a
report releases nothing. -/
def State.msgReleased (s : State) (m : Msg) : Bool :=
  match m.strand with
  | some u => s.releaseReady u m.uid (if !m.isCounter && m.cls == 0xFFFF then 5 else 4) m.core
  | none => m.isReport || s.dieAtOwners m.die

/-- MESSAGE_INJECT (R175, R179, R180, R313, R347): once its release has completed, a message leaves its core, in the order
of its flow, with the clock of what it releases. Pick 0 is its place. -/
def execMessageInject (s : State) : Host.Outcome State Fault Refusal :=
  match s.msgs[s.arg 0]? with
  | none => .next s
  | some m =>
    let before := (s.msgs.take (s.arg 0)).any (fun o => o.stage == .queued && s.sameFlow m o)
    if m.stage ≠ .queued ∨ before = true ∨ s.msgReleased m = false then .next s
    else
      let m1 : Msg := { m with stage := if s.leaves m then .away else .sent, clock := joinClock m.clock (s.die m.die).clock }
      .next { s with msgs := s.msgs.set (s.arg 0) m1 }

/-! ### Entries -/

/-- An entry by its number. -/
def State.entry? (s : State) (u : Nat) : Option Entry := s.entries.find? (fun e => e.uid == u)

/-- The entry of an actor (R160). -/
def State.entryOf (s : State) (launch cls : Nat) (key : Word) : Option Entry :=
  s.entries.find? (fun e => e.launch == launch && e.cls == cls && e.key == key)

/-- A change of an entry. -/
def State.onEntry (s : State) (u : Nat) (f : Entry → Entry) : State :=
  { s with entries := s.entries.map (fun e => if e.uid == u then f e else e) }

/-- Whether an entry's record is in use: it holds one in every state but waiting. -/
def Entry.placed (e : Entry) : Bool :=
  match e.st with
  | .waiting => false
  | _ => true

/-- The messages of an entry's waystation, in order: the buffer's and then the ring's (R164). -/
def Entry.allHeld (e : Entry) : List Msg := e.held ++ e.ring

/-- Whether an entry is being evicted. -/
def Entry.leaving (e : Entry) : Bool :=
  match e.st with
  | .evicting _ => true
  | _ => false

/-- The state area of a class on a core (R162). -/
def State.area? (s : State) (launch cls core : Nat) : Option AreaD :=
  s.areas.find? (fun a => a.launch == launch && a.cls == cls && a.core == core)

/-- Records of a state area (R162). -/
def recordsOf (d : ClassD) (a : AreaD) : Nat := if d.stateSize = 0 then 0 else min 4096 (a.size / d.stateSize)

/-- Whether a record of a class on a core is in use. -/
def State.recordUsed (s : State) (launch cls core n : Nat) : Bool :=
  s.entries.any (fun e => e.launch == launch && e.cls == cls && e.placed
    && (e.core == core && e.slot == n || e.twin && e.core2 == core && e.slot2 == n))

/-- The free records of a class on a core, lowest first. -/
def State.freeRecords (s : State) (d : ClassD) (launch : Nat) (a : AreaD) : List Nat :=
  (List.range (recordsOf d a)).filter (fun n => !s.recordUsed launch d.cls a.core n)

/-- Whether a core is in RUN, live and outside every fenced rectangle (R134, R166). -/
def State.coreUp (s : State) (core : Nat) : Bool :=
  (s.cluster (clusterOf core)).power == 0 && !s.dead.contains core && !s.isFenced core

/-- The candidate areas of a class on a die (R166 step 1). -/
def State.candidates (s : State) (launch cls die : Nat) : List AreaD :=
  s.areas.filter (fun a => a.launch == launch && a.cls == cls && dieOf a.core == die && s.coreUp a.core)

/-- The better of two candidates with their free records: more free records, then the lower logical index
(R166 step 2). -/
def State.betterArea (s : State) (x y : AreaD × List Nat) : AreaD × List Nat :=
  if x.2.length < y.2.length ∨ x.2.length = y.2.length ∧ s.logicalOf y.1.core < s.logicalOf x.1.core then y else x

/-- The core and the record a new activation takes, if one is free (R166 step 2). -/
def State.freeRecord (s : State) (d : ClassD) (launch die : Nat) : Option (Nat × Nat) :=
  match (s.candidates launch d.cls die).map (fun a => (a, s.freeRecords d launch a)) with
  | [] => none
  | x :: xs =>
    let b := xs.foldl s.betterArea x
    match b.2 with
    | [] => none
    | n :: _ => some (b.1.core, n)

/-- Whether two cores may host a twin pair (R172). -/
def twinApart (a b : Nat) : Bool :=
  let dx := (a % 64 - b % 64) + (b % 64 - a % 64)
  let dy := (a / 64 - b / 64) + (b / 64 - a / 64)
  3 ≤ dx + dy && dx != 0 && dy != 0

/-- The partner of a primary record (R172): the lowest-indexed eligible core with a free record. -/
def State.partnerOf (s : State) (d : ClassD) (launch die core : Nat) : Option (Nat × Nat) :=
  let l := ((s.candidates launch d.cls die).filter (fun a => twinApart core a.core)).filterMap (fun a =>
    match s.freeRecords d launch a with
    | n :: _ => some (a.core, n)
    | [] => none)
  match l with
  | [] => none
  | x :: xs =>
    some (xs.foldl (fun (a : Nat × Nat) b => if s.logicalOf b.1 < s.logicalOf a.1 then b else a) x)

/-- Whether a handler of an entry is in a slot or saved out of one. -/
def State.handlerRuns (s : State) (u core : Nat) : Bool :=
  s.all.any (fun t => t.isHandler && t.entry == u && t.core == core)
    || s.saved.any (fun v => v.t.isHandler && v.t.entry == u && v.t.core == core)

/-- Whether COMPARE_WINDOW of an entry stands still (R423): a strand of its pair is saved, swapped out, PARKED or HALTED, or has
yet to start, or has been removed by the fence of its core. -/
def State.pairStops (s : State) (e : Entry) : Bool :=
  s.isFenced e.core || s.isFenced e.core2 || s.saved.any (fun v => v.t.isHandler && v.t.entry == e.uid)
    || s.all.any (fun t => t.isHandler && t.entry == e.uid && t.run != RunState.run)
    || s.inq.any (fun i => i.entry == e.uid && i.msg.map (·.uid) == e.running.map (·.uid))

/-- Time that passes for an entry's COMPARE_WINDOW (R423). -/
def State.pairPass (s : State) (dn : Nat) (e : Entry) : Entry :=
  if !e.twin || s.pairStops e then e else { e with ran := e.ran + dn }

/-- Whether an actor is idle (R166 step 4), and may be a victim. -/
def State.idle (s : State) (e : Entry) : Bool :=
  e.st == .live && e.allHeld.isEmpty && !e.barred && e.running.isNone && !s.inq.any (fun i => i.entry == e.uid)
    && !s.handlerRuns e.uid e.core && !(e.twin && s.handlerRuns e.uid e.core2)

/-- The better victim of two (R166 step 3). -/
def State.betterVictim (s : State) (x y : Entry) : Entry :=
  if y.lastDone < x.lastDone then y
  else if x.lastDone < y.lastDone then x
  else if s.logicalOf y.core < s.logicalOf x.core then y
  else if s.logicalOf x.core < s.logicalOf y.core then x
  else if y.slot < x.slot then y else x

/-- The victim of an activation (R166 step 3). -/
def State.victimOf (s : State) (launch cls die : Nat) : Option Entry :=
  match s.entries.filter (fun e => e.launch == launch && e.cls == cls && e.die == die && s.idle e && s.coreUp e.core
    && (!e.twin || s.coreUp e.core2)) with
  | [] => none
  | x :: xs => some (xs.foldl s.betterVictim x)

/-- Whether an activation may choose: after the second failure of a message, once the first pair's rectangles are fenced,
so that the third pair is chosen among unfenced cores (R425). -/
def State.mayChoose (s : State) (e : Entry) : Bool :=
  e.fails != 2 || (s.isFenced e.pair1.1 && s.isFenced e.pair1.2)

/-- An activation chooses its record (R166): a free one, else a victim, which is evicted; else it waits. -/
def State.choose (s : State) (e : Entry) : State :=
  match (if s.mayChoose e then s.classOf e.launch e.cls else none) with
  | none => s
  | some d =>
    let evict := fun (s : State) =>
      match s.victimOf e.launch e.cls e.die with
      | none => s
      | some v => (s.onEntry v.uid (fun x => { x with st := .evicting none })).onEntry e.uid (fun x => { x with victim := some v.uid })
    match s.freeRecord d e.launch e.die with
    | none => evict s
    | some p =>
      if e.twin then
        match s.partnerOf d e.launch e.die p.1 with
        | none => evict s
        | some q =>
          s.onEntry e.uid (fun x => { x with st := .probing, core := p.1, slot := p.2, core2 := q.1, slot2 := q.2 })
      else s.onEntry e.uid (fun x => { x with st := .probing, core := p.1, slot := p.2 })

/-- Credits of a core's input queue that are free (R162). -/
def State.inputCredits (s : State) (core : Nat) : Nat :=
  Config.inputDepth - ((s.inq.filter (fun i => i.core == core && i.msg.isSome)).length
    + (s.inqRets.filter (· == core)).length)

/-- Whether a message may be forwarded to an entry's core, or to both of a twin pair. -/
def State.mayForward (s : State) (e : Entry) : Bool :=
  e.st == .live && s.inputCredits e.core != 0 && (!e.twin || s.inputCredits e.core2 != 0)

/-- A message forwarded to the core input queue (R163), or to both (R172). DEDUCED (log entry 54): it enters there after the
creator's run, which therefore counts as transit, as R176 defines t_in; the end of R176 counts that run as wait. -/
def State.forward (s : State) (e : Entry) (m : Msg) : State :=
  let one := fun (c : Nat) => ({ core := c, entry := e.uid, msg := some m, tIn := s.timeNs } : InItem)
  { s with inq := s.inq ++ (one e.core :: if e.twin then [one e.core2] else []) }

/-- The first message of an entry's waystation gone (R164). -/
def Entry.popHeld (e : Entry) : Entry :=
  match e.held with
  | [] => { e with ring := e.ring.drop 1 }
  | _ :: ms => { e with held := ms }

/-- An entry's held messages released in order while credits last (R163, R164). -/
def State.release (s : State) (u : Nat) : Nat → State
  | 0 => s
  | n + 1 =>
    match s.entry? u with
    | none => s
    | some e =>
      match e.allHeld with
      | [] => s
      | m :: _ => if s.mayForward e then State.release ((s.onEntry u Entry.popHeld).forward e m) u n else s

/-- Release of all a table could hold. -/
def State.releaseAll (s : State) (u : Nat) : State :=
  match s.entry? u with
  | some e => s.release u e.allHeld.length
  | none => s

/-- Entries of a set of a die (R160, R165). -/
def State.setCount (s : State) (die set : Nat) : Nat :=
  (s.entries.filter (fun e => e.die == die && setOf e.cls e.key == set)).length

/-- Messages that a die's waystation buffer holds (R164). -/
def State.bufUsed (s : State) (die : Nat) : Nat :=
  ((s.entries.filter (fun e => e.die == die)).map (fun e => e.held.length)).sum

/-- Message slots of a die's waystation buffer (R164). -/
def bufSlots : Nat := 16384

/-- Messages that lie in a die's waystation ring (R164, R165). -/
def State.ringUsed (s : State) (die : Nat) : Nat :=
  ((s.entries.filter (fun e => e.die == die)).map (fun e => e.ring.length)).sum
    + (s.msgs.filter (fun m => m.stage == .deferred && homeDie m.cls m.key == die)).length

/-- Message slots of a die's waystation ring (R165). -/
def ringSlots : Nat := 4194304

/-- Whether an entry's next held message has a place in the buffer (R164): the entry holds fewer than 32 there and none in the
ring, and the die's buffer is not full. -/
def State.inBuffer (s : State) (e : Entry) : Bool :=
  e.ring.isEmpty && decide (e.held.length < 32) && decide (s.bufUsed e.die < bufSlots)

/-- A message held for an entry, behind those it holds (R164). -/
def State.holdMsg (s : State) (e : Entry) (m : Msg) : State :=
  if s.inBuffer e then s.onEntry e.uid (fun x => { x with held := x.held ++ [m] })
  else s.onEntry e.uid (fun x => { x with ring := x.ring ++ [m] })

/-- WSCOUNT, WSMEM and the rest of word 1 of a 16-byte entry (R161); word 0 is the key. -/
def State.entryWord (s : State) (e : Entry) : Word :=
  let st := match e.st with | .live => 2 | .evicting _ => 3 | _ => 1
  BitVec.ofNat 64 (e.cls % 2 ^ 16 * 2 ^ 48 + st * 2 ^ 46 + e.twin.toNat * 2 ^ 45 + s.logicalOf e.core % 1024 * 2 ^ 35
    + (if e.twin then s.logicalOf e.core2 % 1024 else 0) * 2 ^ 25 + e.slot % 4096 * 2 ^ 13 + min 32 e.held.length * 2 ^ 7
    + (!e.ring.isEmpty).toNat * 2 ^ 6)

/-- A port by die and number. -/
def portKey (m : Msg) : Nat := 4 * homeDie m.cls m.key + portOf m.cls m.key

/-- A port stops for want of a slot of the ring (R165), or is stopped: the launch whose message waits there is noted. -/
def State.portStops (s : State) (p launch : Nat) : State :=
  match s.wsFull.find? (fun x => x.1 == p) with
  | none => { s with wsFull := s.wsFull ++ [(p, s.timeNs, [launch])] }
  | some x =>
    if x.2.2.contains launch then s
    else { s with wsFull := s.wsFull.map (fun y => if y.1 == p then (y.1, y.2.1, y.2.2 ++ [launch]) else y) }

/-- A message that reaches an entry that exists (R163, R164). -/
def State.toEntry (s : State) (e : Entry) (m : Msg) : State :=
  if e.allHeld.isEmpty && s.mayForward e then s.forward e m else s.holdMsg e m

/-- A message that finds no entry (R163): the entry is made, the message held, and activation begins. -/
def State.newEntry (s : State) (d : ClassD) (m : Msg) : State :=
  let e : Entry :=
    { uid := s.nextUid, die := homeDie m.cls m.key, launch := m.launch, cls := m.cls, key := m.key, twin := d.twin }
  let s1 := ({ s with entries := s.entries ++ [e] }.fresh).holdMsg e m
  match s1.entry? e.uid with
  | some x => s1.choose x
  | none => s1

/-- Whether a message waits on the list of its set (R165). -/
def Msg.deferredIn (die set : Nat) (o : Msg) : Bool :=
  o.stage == .deferred && homeDie o.cls o.key == die && setOf o.cls o.key == set

/-- What the flow table does with the message at place `k` (R163 to R165): it goes to its entry, or to a new one, or joins the
list of its full set; or it stays: while its port is stopped, while the ring has no slot for it, or until the messages
before it on the list of its set have been tried again. -/
def State.flowArrival (s : State) (k : Nat) (d : ClassD) (m : Msg) : State :=
  let die := homeDie m.cls m.key
  let set := setOf m.cls m.key
  let s1 := { s with msgs := s.msgs.eraseIdx k }
  let full := decide (ringSlots ≤ s.ringUsed die)
  let listed := s.msgs.any (Msg.deferredIn die set)
  let room := decide (s.setCount die set < 72)
  let fresh := m.stage != .deferred
  let wait := s.portStops (portKey m) m.launch
  let defer := if full then wait else { s1 with msgs := s1.msgs ++ [{ m with stage := .deferred }] }
  let same := fun (o : Msg) => o.stage == .deferred && o.launch == m.launch && o.cls == m.cls && o.key == m.key
  if fresh && s.wsFull.any (fun x => x.1 == portKey m) then wait
  else if fresh && listed && room then s
  else
    match s.entryOf m.launch m.cls m.key with
    | some e =>
      if fresh && s.msgs.any same then defer
      else if !(e.allHeld.isEmpty && s.mayForward e) && !s.inBuffer e && full && fresh then wait
      else s1.toEntry e m
    | none =>
      if !room then (if fresh then defer else s)
      else if decide (bufSlots ≤ s.bufUsed die) && full && fresh then wait
      else s1.newEntry d m

/-- FLOW_MESSAGE_ARRIVAL (R163, R165): a message reaches its port, in the order of its flow, and its entry; or a
deferred one is tried again, in order of arrival among those of its set, and, once its actor has an entry, among those of its
actor. Pick 0 is its place. -/
def execFlowMessageArrival (s : State) : Host.Outcome State Fault Refusal :=
  match s.msgs[s.arg 0]? with
  | none => .next s
  | some m =>
    let list := Msg.deferredIn (homeDie m.cls m.key) (setOf m.cls m.key)
    let same := fun (o : Msg) => o.launch == m.launch && o.cls == m.cls && o.key == m.key
    let waits := (s.entryOf m.launch m.cls m.key).isNone
    let before := (s.msgs.take (s.arg 0)).any (fun o =>
      if m.stage = .deferred then list o && (waits || same o) else o.stage == .sent && s.sameFlow m o)
    if (m.stage ≠ .sent ∧ m.stage ≠ .deferred) ∨ m.isCounter = true ∨ m.cls = 0xFFFF ∨ before = true then .next s
    else
      match s.classOf m.launch m.cls with
      | none => .next { s with msgs := s.msgs.eraseIdx (s.arg 0) }
      | some d =>
        if s.ending m.launch then .next ({ s with msgs := s.msgs.eraseIdx (s.arg 0) }.discard m.launch 1)
        else .next (s.flowArrival (s.arg 0) d m)

/-- WAYSTATION_FULL (R165, R181): the ring has a free slot again and a stopped port resumes; the episode is reported to the
owner of each launch whose message waited. Pick 0 is the port, 4 * die + its number. -/
def execWaystationFull (s : State) : Host.Outcome State Fault Refusal :=
  match s.wsFull.find? (fun x => x.1 == s.arg 0) with
  | none => .next s
  | some x =>
    let die := x.1 / 4
    if ringSlots ≤ s.ringUsed die then .next s
    else
      let n := s.wsCount.getD die 0 + 1
      let s1 := { s with wsFull := s.wsFull.filter (fun y => y.1 != x.1), wsCount := s.wsCount.set die n }
      .next (x.2.2.foldl (fun (s : State) l =>
        s.report die l 0x10 [BitVec.ofNat 64 die, BitVec.ofNat 64 (s.timeNs - x.2.1), BitVec.ofNat 64 n]) s1)

/-! ### The heap (R167) -/

/-- Bytes of a heap slot. -/
def ClassD.slotBytes (d : ClassD) : Nat := 64 + (d.stateSize + 63) / 64 * 64

/-- The address of probe `i` of an actor's sequence. -/
def ClassD.probe (d : ClassD) (key : Word) (i : Nat) : Nat :=
  let n := d.heapSize / d.slotBytes
  d.heapBase + ((keyHash d.cls key).toNat / 2 ^ 32 + i) % n * d.slotBytes

/-- `n` bytes read by a unit at their owner. -/
def State.engineRead (s : State) (a n : Nat) : Nat :=
  match s.keys (s.reqOwner a) .r a n with
  | .ok ks => s.ownRead ks
  | .error _ => 0

/-- `n` bytes written by a unit at their owner. -/
def State.engineWrite (s : State) (a n v : Nat) : State := s.devWrite (ownerOf a) a n v

/-- Whether a unit's write of `n` bytes at their owner would stall there (R282). -/
def State.engineStalls (s : State) (a n : Nat) : Bool :=
  match s.keys (s.reqOwner a) .w a n with
  | .ok ks => s.mustStall 0 (s.ownerClass a) a ks
  | .error _ => false

/-- What a search of the heap finds: the actor's slot, or the first slot with VALID = 0, or neither. -/
inductive Found where
  | slot (a version : Nat)
  | free (a : Nat)
  | none
  deriving DecidableEq, Repr

/-- The search from probe `i` on. -/
def State.searchFrom (s : State) (d : ClassD) (key : Word) (i : Nat) : Nat → Found
  | 0 => .none
  | n + 1 =>
    let a := d.probe key i
    let h := s.engineRead a 16
    let w1 := h / 2 ^ 64
    if w1 / 2 ^ 32 % 2 = 0 then .free a
    else if h % 2 ^ 64 = key.toNat ∧ w1 / 2 ^ 48 = d.cls then .slot a (w1 % 2 ^ 32)
    else s.searchFrom d key (i + 1) n

/-- The addresses that the search reads from probe `i` on. -/
def State.probesFrom (s : State) (d : ClassD) (key : Word) (i : Nat) : Nat → List Nat
  | 0 => []
  | n + 1 =>
    let a := d.probe key i
    let h := s.engineRead a 16
    let w1 := h / 2 ^ 64
    if w1 / 2 ^ 32 % 2 = 0 ∨ (h % 2 ^ 64 = key.toNat ∧ w1 / 2 ^ 48 = d.cls) then [a]
    else a :: s.probesFrom d key (i + 1) n

/-- What the translations of a search leave (R269, R273). -/
def State.touchSearch (s : State) (d : ClassD) (key : Word) : State :=
  (s.probesFrom d key 0 64).foldl (fun (s : State) a => s.touch (s.ownerClass a) a) s

/-- At most 64 probes. -/
def State.search (s : State) (d : ClassD) (key : Word) : Found := s.searchFrom d key 0 64

/-- The scratchpad address of a record (R162). -/
def State.recordAddr (s : State) (d : ClassD) (launch core slot : Nat) : Nat :=
  match s.area? launch d.cls core with
  | some a => a.base + slot * d.stateSize
  | none => slot * d.stateSize

/-- A record's bytes. -/
def State.recordRead (s : State) (d : ClassD) (launch core slot : Nat) : Nat :=
  s.spadRead core (s.recordAddr d launch core slot) d.stateSize

/-- A record's bytes written, in both records of a twin pair. -/
def State.recordFill (s : State) (d : ClassD) (e : Entry) (v : Nat) : State :=
  let one := fun (s : State) (core slot : Nat) =>
    s.spadPut core (s.recordAddr d e.launch core slot) d.stateSize v (fullMask d.stateSize)
  let s1 := one s e.core e.slot
  if e.twin then one s1 e.core2 e.slot2 else s1

/-- A state written back with its header (R167): the state first, then the header with the version. -/
def State.writeSlot (s : State) (d : ClassD) (a : Nat) (key : Word) (version bytes : Nat) : State :=
  (s.engineWrite (a + 64) d.stateSize bytes).engineWrite a 64
    (key.toNat + (d.cls * 2 ^ 48 + 2 ^ 32 + version % 2 ^ 32) * 2 ^ 64)

/-- A write-back (R167): the state after, or nothing where the heap has no slot. -/
def State.writeState (s : State) (d : ClassD) (e : Entry) (bytes : Nat) : Option State :=
  match s.search d e.key with
  | .slot a _ => some (s.writeSlot d a e.key (e.version + 1) bytes)
  | .free a => some (s.writeSlot d a e.key (e.version + 1) bytes)
  | .none => none

/-- Whether a write-back stalls, a page of its slot being in FINAL (R282). -/
def State.writeStalls (s : State) (d : ClassD) (key : Word) : Bool :=
  match s.search d key with
  | .slot a _ => s.engineStalls a (64 + d.stateSize)
  | .free a => s.engineStalls a (64 + d.stateSize)
  | .none => false

/-- HEAP_PROBE_DONE (R166 to R168): an activation's search ends: the state is fetched, or created: all zero,
and then by the class's creator, if it has one. An activation that waited for a record tries again. Pick 0
is the entry's place. -/
def execHeapProbeDone (s : State) : Host.Outcome State Fault Refusal :=
  match s.entries[s.arg 0]? with
  | none => .next s
  | some e =>
    match e.st, s.classOf e.launch e.cls with
    | .waiting, some _ => if e.victim.isSome then .next s else .next (s.choose e)
    | .probing, some d =>
      let s := s.touchSearch d e.key
      match s.search d e.key with
      | .slot a v =>
        .next ((s.recordFill d e (s.engineRead (a + 64) d.stateSize)).onEntry e.uid (fun x =>
          { x with st := .fetched, version := v }))
      | _ =>
        let s1 := s.recordFill d e 0
        if d.creator = 0 then .next (s1.onEntry e.uid (fun x => { x with st := .fetched, version := 0 }))
        else
          let one := fun (c : Nat) => ({ core := c, entry := e.uid, tIn := s.timeNs } : InItem)
          let s2 := s1.onEntry e.uid (fun x => { x with st := .creating, version := 0 })
          .next { s2 with inq := s2.inq ++ (one e.core :: if e.twin then [one e.core2] else []) }
    | _, _ => .next s

/-- An entry becomes LIVE and its waystation is released in order (R163). -/
def State.becomeLive (s : State) (u : Nat) : State := (s.onEntry u (fun x => { x with st := .live })).releaseAll u

/-- ACTIVATION_COMPLETE (R163): the record of a fetched state is in place. Pick 0 is the entry's place. -/
def execActivationComplete (s : State) : Host.Outcome State Fault Refusal :=
  match s.entries[s.arg 0]? with
  | none => .next s
  | some e => if e.st = .fetched then .next (s.becomeLive e.uid) else .next s

/-- The activation that chose a victim takes its records (R166 step 3). -/
def State.takeRecord (s : State) (v : Entry) : State :=
  match s.entries.find? (fun e => e.victim == some v.uid) with
  | none => s
  | some w =>
    s.onEntry w.uid (fun x =>
      { x with st := .probing, victim := none, core := v.core, slot := v.slot, core2 := v.core2, slot2 := v.slot2 })

/-- An eviction ends (R163): the entry is gone, or, where messages are held, activates anew. -/
def State.evicted (s : State) (e : Entry) : State :=
  let s1 := (s.onEntry e.uid (fun x => { x with st := .waiting })).takeRecord e
  if e.allHeld.isEmpty then { s1 with entries := s1.entries.filter (fun x => x.uid != e.uid) }
  else match s1.entry? e.uid with | some x => s1.choose x | none => s1

/-- An eviction abandoned for want of a heap slot (R163, R181); of an ending launch its actor counts as unsaved
(R443). -/
def State.abandonEviction (s : State) (d : ClassD) (e : Entry) : State :=
  let s := s.report e.die e.launch 0x0E [BitVec.ofNat 64 e.cls, e.key, BitVec.ofNat 64 e.version, BitVec.ofNat 64 d.heapBase]
  if e.final then
    { s with
      entries := s.entries.filter (fun x => x.uid != e.uid)
      launches := s.launches.map (fun l => if l.id == e.launch then { l with unsaved := l.unsaved + 1 } else l) }
  else
    let s1 := s.onEntry e.uid (fun x => { x with st := .live, barred := true })
    let back := fun (x : Entry) => if x.victim == some e.uid then { x with victim := none } else x
    ({ s1 with entries := s1.entries.map back }).releaseAll e.uid

/-- Whether a record of an entry lies on a fenced core. -/
def State.fencedEntry (s : State) (e : Entry) : Bool := s.isFenced e.core || e.twin && s.isFenced e.core2

/-- EVICTION_WRITEBACK_DONE (R163, R167, R422): the record is read out whole, and then written back; a twin pair
writes nothing. A LIVE actor of an ending launch whose handler has ended begins its eviction (R443), unless a thermal trip ends
it (R442). At a fenced core no read begins or ends. Pick 0 is the entry's place. -/
def execEvictionWritebackDone (s : State) : Host.Outcome State Fault Refusal :=
  match s.entries[s.arg 0]? with
  | none => .next s
  | some e =>
    match e.st, s.classOf e.launch e.cls with
    | .live, some _ =>
      if s.ending e.launch && !(s.launch? e.launch).any (fun l => l.thermal.isSome) && !s.fencedEntry e && e.allHeld.isEmpty && e.running.isNone && !s.inq.any (fun i => i.entry == e.uid)
          && !s.handlerRuns e.uid e.core && !(e.twin && s.handlerRuns e.uid e.core2) then
        .next (s.onEntry e.uid (fun x => { x with st := .evicting none, final := true }))
      else .next s
    | .evicting none, some d =>
      if s.fencedEntry e then .next s
      else if e.twin then .next (s.evicted e)
      else .next (s.onEntry e.uid (fun x => { x with st := .evicting (some (s.recordRead d e.launch e.core e.slot)) }))
    | .evicting (some b), some d =>
      if s.writeStalls d e.key then .next s
      else
        match s.writeState d e b with
        | some s1 => .next (s1.evicted e)
        | none => .next (s.abandonEviction d e)
    | _, _ => .next s

/-- INPUT_QUEUE_CREDIT_RETURN (R162, R163): a credit of a core's input queue is back at the flow table, and
held messages are released in order. Pick 0 is the core. -/
def execInputQueueCreditReturn (s : State) : Host.Outcome State Fault Refusal :=
  if !s.inqRets.contains (s.arg 0) then .next s
  else
    let us := (s.entries.filter (fun e => e.core == s.arg 0 || e.twin && e.core2 == s.arg 0)).map (·.uid)
    .next (us.foldl (fun (s : State) u => s.releaseAll u) { s with inqRets := s.inqRets.erase (s.arg 0) })

/-! ### Across packages -/

/-- Launches by launch slot, lowest first, that declare a class. -/
def State.declarers (s : State) (cls : Nat) : List Launch :=
  (List.range 32).filterMap (fun n => s.launches.find? (fun l =>
    l.slot == n && l.stage == .live && l.m.classes.any (fun c => c.cls == cls)))

/-- What a package sends back of a message whose class no launch of it declares (R180, R181): the report to the owner of the
launch that sent it. Which class and key that owner has, this package does not know: free values. -/
def State.classUnknown (s : State) (m : Msg) (die src : Nat) : State :=
  let d := s.die die
  let w0 : Word := BitVec.ofNat 64 (2 ^ 52 + 0xFFFF * 2 ^ 32 + s.freeWord.toNat % 2 ^ 16 * 2 ^ 16 + 0x0F)
  let w1 : Word := BitVec.ofNat 64 (d.reportSeq % 65536 * 2 ^ 48 + s.timeNs % 2 ^ 48)
  let r : Msg :=
    { uid := s.nextUid, die := die, core := 8192 + die, stage := .away
      w := [w0, w1, Config.freeWord (s.tick + 1), BitVec.ofNat 64 m.cls, m.key, BitVec.ofNat 64 m.sel,
        BitVec.ofNat 64 (m.sender * 2 ^ 16 + src), BitVec.ofNat 64 d.package] }
  ({ s with msgs := s.msgs ++ [r], tick := s.tick + 2 }.fresh).onDie die (fun d => { d with reportSeq := d.reportSeq + 1 })

/-- The report that comes back from another package, no launch of which declares a message's class (R180, R181): its drover core
sends it, so that it arrives with REMOTE = 1, with the number and the time of that package: free values. -/
def State.unknownThere (s : State) (m : Msg) : State :=
  match s.launch? m.launch with
  | none => s
  | some l =>
    let pkg := s.packageOf m.die m.cls m.key
    let r : Msg :=
      { uid := s.nextUid, launch := m.launch, die := homeDie l.m.ownerClass l.m.ownerKey, core := 16384 + pkg
        w := [BitVec.ofNat 64 (2 ^ 52 + 2 ^ 50 + 0xFFFF * 2 ^ 32 + l.m.ownerClass * 2 ^ 16 + 0x0F), s.freeWord, l.m.ownerKey,
          BitVec.ofNat 64 m.cls, m.key, BitVec.ofNat 64 m.sel, BitVec.ofNat 64 (m.sender * 2 ^ 16 + (s.die m.die).package),
          BitVec.ofNat 64 pkg] }
    ({ s with msgs := s.msgs ++ [r], tick := s.tick + 1 }).fresh

/-- A message from package number `src` enters the flow table of its home die with REMOTE = 1 (R175). -/
def State.remoteMessage (s : State) (src : Nat) (w : List Word) : State :=
  let m : Msg := { uid := s.nextUid, w := (w.headD 0 ||| 0x0004000000000000) :: w.drop 1, core := 16384 + src }
  let die := homeDie m.cls m.key
  match s.declarers m.cls with
  | [] => s.classUnknown m die src
  | l :: _ => { s with msgs := s.msgs ++ [{ m with launch := l.id, die := die }] }.fresh

/-- Records that come from other packages and hold one of the 16 slots of a cluster (R140). -/
def State.remoteRecords (s : State) (c : Nat) : Nat := (s.enqs.filter (fun e => e.origin.isSome && e.cluster == c)).length

/-- A record from package number `src` takes a slot of its cluster's network interface, where one is free (R140, R351): queue,
cluster, RUN, launch, ticket if it has one, and its eight words. -/
def State.remoteRecord (s : State) (src q c run target : Nat) (ticket : Option Nat) (w : List Word) : State :=
  if 16 ≤ s.remoteRecords (c % 64) then s
  else
    let e : EnqMsg :=
      { uid := s.nextUid, core := 16384 + src, target := target, q := q % 16, cluster := c % 64
        body := { w := w, run := run % 2 == 1 }, scope := 0, ticket := ticket, origin := some src }
    { s with enqs := s.enqs ++ [e] }.fresh

/-- REMOTE_MESSAGE_ARRIVAL (R140, R175, R180, R181, R351). Where pick 0 is 0, a message of this package, at the place of
pick 1, reaches its own; where pick 2 is 1 no launch there declares its class, and the report comes back.
Where pick 0 is 1, a message from package number pick 1 arrives, of which pick 2 to pick 9 are the words. Where pick 0 is 2, a
record from package number pick 1 arrives: pick 2 is the queue, pick 3 the cluster, pick 4 RUN, pick 5 the launch, pick 6 its
ticket plus 1 or 0, and pick 7 to pick 14 are the words. -/
def execRemoteMessageArrival (s : State) : Host.Outcome State Fault Refusal :=
  let words := fun (n : Nat) => (List.range 8).map (fun i => BitVec.ofNat 64 (s.arg (i + n)))
  if s.arg 0 = 0 then
    match s.msgs[s.arg 1]? with
    | none => .next s
    | some m =>
      if m.stage ≠ .away ∨ (s.msgs.take (s.arg 1)).any (fun o => o.stage == .away && o.strand == m.strand) = true then .next s
      else
        let s1 := { s with msgs := s.msgs.eraseIdx (s.arg 1) }
        if s.arg 2 = 1 && !m.isReport then
          .next (s1.unknownThere m)
        else .next s1
  else if s.arg 0 = 1 then .next (s.remoteMessage (s.arg 1 % 256) (words 2))
  else
    .next (s.remoteRecord (s.arg 1 % 256) (s.arg 2) (s.arg 3) (s.arg 4) (s.arg 5 % 2 ^ 32)
      (if s.arg 6 = 0 then none else some ((s.arg 6 - 1) % 65536)) (words 7))

/-! ### Handlers -/

/-- The strand of a handler or creator (R24, R168, R171). -/
def handlerStrand (uid core slot : Nat) (l : Launch) (d : ClassD) (e : Entry) (base : Nat) (i : InItem) : Strand :=
  let t : Strand :=
    { live := true, uid := uid, core := core, slot := slot, launch := l.id, trapVector := l.m.trapVector
      actorClass := d.cls, actorKey := e.key, actorBase := base, actorSize := d.stateSize, entry := e.uid, tIn := i.tIn
      twin := if e.twin then some (core != e.core) else none }
  match i.msg with
  | some m =>
    { t with
      kind := .handler, pc := d.handler.setWidth 48, msgSender := m.sender, msgWords := m.w, need := m.clock
      gk := handlerRegs [BitVec.ofNat 64 ((m.w.headD 0).toNat / 2 ^ 48 * 2 ^ 16 + m.sel), m.key, m.w.getD 3 0,
        m.w.getD 4 0, m.w.getD 5 0, m.w.getD 6 0, m.w.getD 7 0, BitVec.ofNat 64 m.time] }
  | none =>
    { t with
      kind := .creator, pc := d.creator.setWidth 48, msgSender := 0xFFFF
      gk := handlerRegs [0x100000000, e.key] }

/-- The cores of an entry's records. -/
def Entry.cores (e : Entry) : List Nat := e.core :: if e.twin then [e.core2] else []

/-- Whether an item of a core input queue may start (R16, R172, R189, R190, R199, R443): no handler of its actor runs
there, a twin's last run is matched, and its launch is neither drained from the core, or from its twin's, nor ending. -/
def State.itemReady (s : State) (i : InItem) : Bool :=
  match s.entry? i.entry with
  | none => false
  | some e =>
    !s.handlerRuns e.uid i.core && !s.ending e.launch
      && !e.cores.any (fun c => (s.holdOf c e.launch).any (fun h => h.drained.isSome)) && s.itemApplied i.core e.launch
      && (if i.core = e.core then !e.doneA else !e.doneB)
      && !s.msgs.any (fun m => m.stage == .twinDone && m.entry == e.uid && m.core == i.core)

/-- The next item of a core's input queue that may start, with its place. -/
def nextReady (s : State) (core : Nat) : Nat → List InItem → Option (Nat × InItem)
  | _, [] => none
  | n, i :: is =>
    if i.core == core && s.itemReady i then some (n, i) else nextReady s core (n + 1) is

/-- Whether a slot may take a handler (R187): it is FREE, or LENT. -/
def State.handlerSlot (s : State) (core slot : Nat) : Bool :=
  decide (slot < 4) && (s.bySlot core slot).isNone
    && (match s.savedAt core slot with | none => true | some v => v.swap)

/-- A handler or creator starts on a slot (R168, R171); the core returns the message's credit (R162). -/
def State.startHandler (s : State) (core slot : Nat) : State :=
  match nextReady s core 0 s.inq with
  | none => s
  | some p =>
    match s.entry? p.2.entry with
    | none => s
    | some e =>
      match s.launch? e.launch, s.classOf e.launch e.cls with
      | some l, some d =>
        let base := s.recordAddr d e.launch core (if core = e.core then e.slot else e.slot2)
        let s1 := { s with inq := s.inq.eraseIdx p.1, inqRets := if p.2.msg.isSome then s.inqRets ++ [core] else s.inqRets }
        ((s1.onEntry e.uid (fun x => { x with running := if e.twin then p.2.msg else none })).addStrand
          (handlerStrand s.nextUid core slot l d e base p.2)).fresh
      | _, _ => s

/-! ### The profile table (R176, R177) -/

/-- One message recorded in an entry. -/
def ProfE.add (p : ProfE) (tr w r : Nat) : ProfE :=
  { p with
    count := min (p.count + 1) (2 ^ 32 - 1), transit := (p.transit + tr) % 2 ^ 64, wait := (p.wait + w) % 2 ^ 64
    run := (p.run + r) % 2 ^ 64 }

/-- The first entry of a core with the smallest COUNT replaced. -/
def replaceMin (core least : Nat) (q : ProfE) : List (Nat × ProfE) → List (Nat × ProfE)
  | [] => []
  | p :: ps => if p.1 == core && p.2.count == least then (core, q) :: ps else p :: replaceMin core least q ps

/-- Three times recorded for a sender in a core's table. -/
def State.profile (s : State) (core sender tr w r : Nat) : State :=
  let mine := s.profiles.filter (fun p => p.1 == core)
  let add := fun (p : Nat × ProfE) => if p.1 == core && p.2.sender == sender then (p.1, p.2.add tr w r) else p
  if mine.any (fun p => p.2.sender == sender) then { s with profiles := s.profiles.map add }
  else
    let q := ({ sender := sender } : ProfE).add tr w r
    if mine.length < 16 then { s with profiles := s.profiles ++ [(core, q)] }
    else { s with profiles := replaceMin core (((mine.map (·.2.count)).min?).getD 0) q s.profiles }

/-- A HANDLER record's payload (R436). -/
def handlerPayload (t : Strand) (tr w r : Nat) : List Word :=
  [BitVec.ofNat 64 (t.actorClass * 2 ^ 32 + (t.msgWords.headD 0).toNat % 2 ^ 16 * 2 ^ 16 + t.msgSender),
   BitVec.ofNat 64 tr, BitVec.ofNat 64 w, BitVec.ofNat 64 r]

/-- The times of a handler that ends (R176), in its core's table and in a HANDLER record; a creator has no
message, and only its record is written. -/
def State.profileDone (s : State) (t : Strand) : State :=
  let sub := fun (a b : Nat) => (a % 2 ^ 48 + 2 ^ 48 - b % 2 ^ 48) % 2 ^ 48
  let send := match t.kind with | .handler => (t.msgWords.getD 1 0).toNat | _ => t.tIn
  let start := t.tStart.getD s.timeNs
  let tr := sub t.tIn send
  let w := sub start t.tIn
  let r := sub s.timeNs start
  let s1 := if t.kind = .handler then s.profile t.core t.msgSender tr w r else s
  s1.traceRecord 5 t.core t.slot (handlerPayload t tr w r)

/-! ### DONE -/

/-- The digest item of a twin's DONE (R173, R182 step 5). -/
def State.doneItem (s : State) (t : Strand) : State :=
  let m : Msg :=
    { uid := s.nextUid, launch := t.launch, die := dieOf t.core, strand := some t.uid, core := t.core,
      stage := .twinDone, entry := t.entry
      w := [Config.digest (2 * s.spadRead t.core t.actorBase t.actorSize + 1)] }
  ({ s with msgs := s.msgs ++ [m] }).fresh

/-- A handler has ended by DONE (R182). -/
def State.handlerDone (s : State) (t : Strand) : State :=
  let s1 := (s.profileDone t).leaveSlot t
  if t.twin.isSome then (s1.onEntry t.entry (fun x => { x with doneAt := s.timeNs })).doneItem t
  else
    let s2 := s1.onEntry t.entry (fun x => { x with lastDone := s.timeNs, barred := false })
    if t.kind = .creator then s2.becomeLive t.entry else s2

/-- DONE and C.DONE (R182): it waits as EXIT waits, and is tested again at each boundary. DEDUCED (log entry 16): outside a
handler in an open capsule ILLEGAL_INSTRUCTION comes before CAPSULE_LIMIT; the manual states no order of the two. -/
def doneOp (i : Instr) (s : State) : Host.Outcome State Fault Refusal :=
  if !s.cur.isHandler then illegal s i
  else issue s { } (fun s' => if s.quiet s.cur.uid then .next (s'.handlerDone s.cur) else stall s)

/-- DONE (R182). -/
def execDone (s : State) : Host.Outcome State Fault Refusal := doneOp .done s

/-- C.DONE (R37). -/
def execCDone (s : State) : Host.Outcome State Fault Refusal := doneOp .cDone s

/-! ### Rolling an actor back (R405, R422) -/

/-- The messages of an entry that wait in the input queue of its core, in order, but the one that a twin's run is of. -/
def State.queuedMsgs (s : State) (e : Entry) : List Msg :=
  ((s.inq.filter (fun i => i.entry == e.uid && i.core == e.core)).filterMap (·.msg)).filter (fun m =>
    !e.running.any (fun r => r.uid == m.uid))

/-- The items of an entry gone from the input queues, whose credits go back (R162, R163). -/
def State.clearInq (s : State) (u : Nat) : State :=
  { s with
    inq := s.inq.filter (fun i => i.entry != u)
    inqRets := s.inqRets ++ (s.inq.filter (fun i => i.entry == u && i.msg.isSome)).map (·.core) }

/-- Messages put in front of those an entry holds (R163, R164): the buffer holds the first 32, as far as its die has `room` slots
for the entry. -/
def Entry.holdFront (e : Entry) (room : Nat) (ms : List Msg) : Entry :=
  { e with held := (ms ++ e.held).take (min 32 room), ring := (ms ++ e.held).drop (min 32 room) ++ e.ring }

/-- A strand stopped at once, with what it waits for. -/
def State.stopStrand (s : State) (u : Nat) : State :=
  { (s.removeStrand u) with
    saved := s.saved.filter (fun v => v.t.uid != u)
    pends := s.pends.filter (fun p => p.strand != u)
    sfu := s.sfu.filter (fun e => e.strand != u)
    recs := s.recs.filter (fun e => e.strand != u)
    waits := s.waits.filter (fun w => w.strand != u)
    syncs := s.syncs.filter (fun q => q.strand != u)
    markers := s.markers.filter (fun m => m.strand != u)
    icinvs := s.icinvs.filter (fun x => x.1 != u)
    fwds := s.fwds.filter (fun f => f.sender != u) }

/-- The handlers of an entry stopped at once; a team of their launch may end with that (R440). -/
def State.stopHandlers (s : State) (u : Nat) : State :=
  let ts := (s.all ++ s.saved.map (·.t)).filter (fun t => t.isHandler && t.entry == u)
  ts.foldl (fun (s : State) t => (s.stopStrand t.uid).teamCheck t.core t.launch) s

/-- A twin's entry with no run under way (R173). -/
def Entry.newRun (e : Entry) : Entry :=
  { e with digA := [], digB := [], timesA := [], timesB := [], outA := [], doneA := false, doneB := false, running := none }

/-- An entry loses its record or records (R422): its queued messages move to the front of the waystation, after
those given, and it becomes ABSENT or activates anew. -/
def State.rollback (s : State) (e : Entry) (front : List Msg) : State :=
  let e1 := e.holdFront (bufSlots - (s.bufUsed e.die - e.held.length)) (front ++ s.queuedMsgs e)
  let back := fun (x : Entry) => if x.victim == some e.uid then { x with victim := none } else x
  let s1 := { (s.clearInq e.uid) with
    msgs := s.msgs.filter (fun (m : Msg) => !(m.isItem && m.entry == e.uid))
    entries := s.entries.map back }
  if e1.allHeld.isEmpty then { s1 with entries := s1.entries.filter (fun x => x.uid != e.uid) }
  else
    let x : Entry := { e1.newRun with st := .waiting, victim := none }
    ((s1.onEntry e.uid (fun _ => x)).choose x)

/-- A pair fails (R174, R425): its handlers stop, its items are dropped, and the message is run again on a new
pair; the second failure contains the first pair, the third drops the message. -/
def State.pairFails (s : State) (e : Entry) : State :=
  let s1 := s.stopHandlers e.uid
  let front := match e.running with | some m => [m] | none => []
  match e.fails with
  | 0 => s1.rollback { e with fails := 1, pair1 := (e.core, e.core2) } front
  | 1 =>
    State.rollback { s1 with notes := s1.notes ++ [{ die := e.die, cause := Cause.twinMismatch, core := e.pair1.1, core2 := some e.pair1.2, info := e.key }] }
      { e with fails := 2 } front
  | _ =>
    let sel := match e.running with | some m => m.sel | none => 0
    (s1.rollback { e with fails := 0 } []).report e.die e.launch 0x0C
      [BitVec.ofNat 64 e.cls, e.key, BitVec.ofNat 64 sel, BitVec.ofNat 64 e.version]

/-- A pair's runs match (R173): one copy of each message is sent, with the primary's sender, and the state is
written back with its version incremented. -/
def State.pairMatches (s : State) (e : Entry) : State :=
  match s.classOf e.launch e.cls with
  | none => s
  | some d =>
    let s1 := (s.writeState d e (s.recordRead d e.launch e.core e.slot)).getD s
    let s2 := { s1 with msgs := s1.msgs ++ e.outA.map (fun (m : Msg) => { m with stage := .queued }) }
    let s3 := s2.onEntry e.uid (fun x =>
      { x.newRun with version := e.version + 1, lastDone := e.doneAt, barred := false, fails := 0 })
    if e.st = .creating then s3.becomeLive e.uid else s3

/-- The digest of an item (R173): class, selector, key, payload and the item's number, or the record's. -/
def itemDigest (m : Msg) (n : Nat) : Word :=
  if m.stage = .twinDone then m.w.headD 0
  else Config.digest (2 * joinWords (n :: (m.w.headD 0).toNat % 2 ^ 32 :: (m.w.drop 2).map (·.toNat)))

/-- An item put with its side (R173). -/
def Entry.addItem (e : Entry) (m : Msg) : Entry :=
  let fin := m.stage == .twinDone
  if m.core = e.core then
    { e with
      digA := e.digA ++ [itemDigest m e.digA.length], timesA := e.timesA ++ [e.ran], doneA := e.doneA || fin
      outA := if fin then e.outA else e.outA ++ [m] }
  else
    { e with digB := e.digB ++ [itemDigest m e.digB.length], timesB := e.timesB ++ [e.ran], doneB := e.doneB || fin }

/-- When the oldest item without a partner came (R174). -/
def Entry.openAt (e : Entry) : Option Nat :=
  let n := min e.timesA.length e.timesB.length
  (e.timesA ++ e.timesB.drop n)[n]?

/-- TWIN_ITEM (R173, R174): an item of a twin's run reaches the comparator, in the order of its run; the digest of a DONE, once the
write-back that follows a match does not stall. Pick 0 is its place among the messages. -/
def execTwinItem (s : State) : Host.Outcome State Fault Refusal :=
  match s.msgs[s.arg 0]? with
  | none => .next s
  | some m =>
    let before := (s.msgs.take (s.arg 0)).any (fun (o : Msg) => o.isItem && o.core == m.core && o.entry == m.entry)
    if !m.isItem || before then .next s
    else
      let s1 := { s with msgs := s.msgs.eraseIdx (s.arg 0) }
      match s.entry? m.entry with
      | none => .next s1
      | some e =>
        let x := e.addItem m
        let s2 := s1.onEntry e.uid (fun _ => x)
        let n := min x.digA.length x.digB.length
        if x.digA.take n ≠ x.digB.take n ∨ (x.doneA && x.doneB && x.digA.length != x.digB.length) = true then .next (s2.pairFails x)
        else if x.doneA && x.doneB then
          .next (if (s.classOf e.launch e.cls).any (fun d => s.writeStalls d e.key) then s else s2.pairMatches x)
        else .next s2

/-- COMPARE_WINDOW (R174, R423): an item's partner has not come within the window. Pick 0 is the entry's place. Where pick 1 is
not 0, a drover core writes the window of die pick 0 instead: pick 1 is in µs, at most 1,000. -/
def execCompareWindow (s : State) : Host.Outcome State Fault Refusal :=
  if s.arg 1 ≠ 0 then
    .next (if s.arg 1 ≤ 1000 then s.onDie (s.arg 0) (fun d => { d with compareWindow := 1000 * s.arg 1 }) else s)
  else
    match s.entries[s.arg 0]? with
    | none => .next s
    | some e =>
      match e.openAt with
      | none => .next s
      | some t => if e.ran < t + (s.die e.die).compareWindow then .next s else .next (s.pairFails e)

/-- A handler's run ends without its DONE (R405): its message is dropped and its actor returns to its last
written-back version; a twin's pair fails (R423), and that of an ending launch is not run again (R443). -/
def State.handlerFails (s : State) (t : Strand) : State :=
  match s.entry? t.entry with
  | none => s
  | some e =>
    if s.ending e.launch then (s.stopHandlers e.uid).rollback e []
    else if e.twin then s.pairFails e
    else s.rollback e []

end Sys2Proof.Machine
end

