-- ==== Sys2Proof/Machine/Life.lean ====
section
/-! DEFINITION. How strands live: the answers of long-latency producers (R26), EXIT (R53), the end of a
strand's work (R395, R397, R405), dispatch (R187 to R190), swap-out (R197, R198), and pre-emption by draining
and forced saves (R199 to R203, R378, R379, R407). -/

namespace Sys2Proof.Machine

/-! ### Long-latency producers -/

/-- The mailbox word a JWAIT waits for, once its DONE is 1 (R291, R344). -/
def State.mailDone (s : State) (core id : Nat) : Option Word :=
  if (s.mailbox core id).getLsbD 63 then some (s.mailbox core id) else none

/-- Whether a strand is saved out of its slot. -/
def State.isSaved (s : State) (u : Nat) : Bool := s.saved.any (fun v => v.t.uid == u)

/-- A load at its turn: of a capsule record at its owner (R366), else a unit of it in the die's view, or in the slice (R317). -/
def State.loadTurn (s : State) (p : Pend) (a code n el scope unit : Nat) : State :=
  if inWindow a && p.sup && (s.reqPend p a).drover then
    let j := p.nextUnit unit
    let u := (unitsOf a n).getD j (a, n)
    State.loadPart { s with tick := s.tick + 1024 } p j (s.windowRead u.1 u.2 * 256 ^ (u.1 - a)) (loadValue code el)
  else if s.inRecord a n then
    (if s.notAtOwner p.strand p.uid a n then s else s.performAtOwner p a n [] (loadValue code el) unit)
  else s.performLdg p a code n el scope unit

/-- LONG_LATENCY_RESULT (R26, R399): a producer in flight is performed where it only reads, and its result or
fault tag is written; its strand acquires what it read of (R324, R325). Pick 0 is its place; of an LDG, pick 1 is the unit
that is read (R246). -/
def execLongLatencyResult (s : State) : Host.Outcome State Fault Refusal :=
  match s.pends[s.arg 0]? with
  | none => .next s
  | some p =>
    let acquires := fun (s : State) (c : List Nat) => if p.acq then s.onUid p.strand (fun t => t.acquire c) else s
    match p.op with
    | .ready v => .next (acquires (s.answerVal p v) (p.clock.getD []))
    | .failed g => .next (s.answerTag p g)
    | .ldg a code n el scope =>
      if s.earlier p.strand p.uid a n || s.readStalls a n then .next s
      else .next (s.loadTurn p a code n el scope (s.arg 1))
    | .ldgCap a n buf =>
      if !s.causal a (p.clock.getD []) || s.notAtOwner p.strand p.uid a n || s.earlier p.strand p.uid a n
          || s.readStalls a n then .next s
      else .next (s.performAtOwner p a n buf (fun v => v) (s.arg 1))
    | .ldh a n =>
      if s.hBefore p.strand p.uid then .next s
      else if s.hostRefuses a n then .next (s.answerTag p ⟨Cause.protection, BitVec.ofNat 64 a⟩)
      else .next (acquires (s.answerVal p (Mem.read s.host a n)) (lastClock s.hostW (keysFrom a n)))
    | .jwait id =>
      match s.mailDone p.core id with
      | none => .next s
      | some w => if s.isSaved p.strand then .next s else .next (s.answerVal p w.toNat)
    | .deq q addr _ held => .next (s.doDeq p q addr held)
    | .precv n addr => if s.isSaved p.strand then .next s else .next (s.doPrecv p n addr)
    | _ => .next s

/-! ### EXIT -/

/-- EXIT and C.EXIT (R53, R397): in a launch-mode trap handler it ends the team; else the strand ends once its
producers, jobs and posted stores are complete. It is tested again at each boundary, so that a STORE_FAULT
trap comes first. -/
def exitOp (i : Instr) (s : State) : Host.Outcome State Fault Refusal :=
  if s.cur.isHandler then illegal s i
  else
    issue s { } (fun s' =>
      if s.cur.mode = .launch ∧ inTrap s.cur.status = true then .next s'.endOnTrap
      else if s.quiet s.cur.uid then .next (s'.endStrand s.cur 0)
      else stall s)

/-- EXIT (R53). -/
def execExit (s : State) : Host.Outcome State Fault Refusal := exitOp .exit s

/-- C.EXIT (R37). -/
def execCExit (s : State) : Host.Outcome State Fault Refusal := exitOp .cExit s

/-! ### The end of a strand's work -/

/-- Whether a producer is one that the end of its strand withdraws (R397). -/
def PendOp.withdrawn (o : PendOp) : Bool :=
  match o with
  | .deq _ _ _ _ => true
  | .precv _ _ => true
  | .jwait _ => true
  | _ => false

/-- What a stopped strand is stalled in is withdrawn (R200, R242, R397). -/
def State.withdraw (s : State) (u : Nat) : State :=
  let cells := (s.fwds.filter (fun f => f.sender == u)).filterMap (·.cell)
  { s with
    waits := s.waits.filter (fun w => w.strand != u)
    syncs := s.syncs.filter (fun q => q.strand != u)
    markers := s.markers.filter (fun m => m.strand != u)
    icinvs := s.icinvs.filter (fun x => x.1 != u)
    fwds := s.fwds.filter (fun f => f.sender != u) }.onUid u (fun t => (cells ++ t.wait.cells).foldl Strand.refill (s.unbook t))

/-- The producers that the end of a strand withdraws; a waiter behind its DEQ may now have its turn (R355). -/
def State.withdrawPends (s : State) (u : Nat) : State :=
  let gone := fun (p : Pend) => p.strand == u && p.op.withdrawn
  let s1 := { s with pends := s.pends.filter (fun p => !gone p) }
  (s.pends.filter gone).foldl (fun (s : State) p =>
    match p.op with
    | .deq q _ _ _ => s.holdHeads p.launch q (clusterOf p.core) hwEntries
    | _ => s) s1

/-- A handler's run ends without its DONE (R405): its report, if a trap ended it, and its actor's state. -/
def State.endHandler (s : State) (t : Strand) : State :=
  let s1 := s.leaveSlot t
  let s2 := if t.endReport.isEmpty then s1 else s1.report (dieOf t.core) t.launch 9 t.endReport
  s2.handlerFails t

/-- The boundary of a strand whose work is ending (R395 step 1, R397): what it is stalled in is withdrawn, an
open capsule is parked (R378), and once everything it waits for is complete it ends. -/
def State.endBoundary (s : State) (code : Nat) : State :=
  let s1 := ((s.withdraw s.cur.uid).withdrawPends s.cur.uid).parkByTrap (if code = 2 then Cause.leaseBreach else 0) s.cur.pc
  let s2 := s1.onCur (fun t => { t with wait := { }, run := RunState.run })
  if s2.quiet s2.cur.uid then
    if s2.cur.isHandler then s2.endHandler s2.cur else s2.endStrand s2.cur code
  else { s2 with stalled := true }

/-! ### Capsules of strands that come back (R379) -/

/-- A holder leaves its slot: its capsule is parked, its buffered stores are discarded (R378). -/
def State.parkLeaving (s : State) (t : Strand) (hstate : Nat) : State × Strand :=
  if t.cap.mode = .opened then
    (s.parkRecord t.cap.l hstate, { t with cap := { t.cap with stores := [] } })
  else (s, t)

/-- The engine's check of a capsule whose holder runs again (R379). -/
def State.resumeCapsule (s : State) (t : Strand) : State × Strand :=
  if t.cap.mode = .opened then
    let r := s.recOf t.cap.l
    if r.state = 1 ∧ r.ticket = t.cap.ticket
        ∧ r.holder / 2 ^ 45 = holderWord (s.logicalOf t.core) t.slot t.cap.viaCapa 0 / 2 ^ 45 then
      let r1 : Rec :=
        { r with
          lock := r.lock &&& (2 ^ 64 - 1 - 2 ^ 61)
          holder := holderWord (s.logicalOf t.core) t.slot t.cap.viaCapa 0 }
      (s.putRec t.cap.l r1,
        { (t.setCregs r.creg).beginStep t.cap with pc := BitVec.ofNat 48 r.resume })
    else (s, { t with cap := { t.cap with mode := .displaced } })
  else (s, t)

/-! ### Swap-out (R197, R198) -/

/-- Whether a strand is stalled in one of the waits of R185, and since when; in a JWAIT or PRECV, where the instruction it offers
could issue but for that. -/
def State.waitSince (s : State) (t : Strand) : Option Nat :=
  match t.wait.kind with
  | .sync => if s.waits.any (fun w => w.strand == t.uid) then some t.wait.since else none
  | .psend => some t.wait.since
  | .ackw => some t.wait.since
  | .none =>
    if s.pends.any (fun p => p.strand == t.uid && t.stallIn.contains p.uid
        && (match p.op with | .jwait _ => true | .precv _ _ => true | _ => false))
    then t.stallSince else none
  | _ => none

/-- SWAP_DELAY (R185): a strand stalled in a wait for 8192 cycles is PARKED. Pick 0 is the core, pick 1 the
slot. -/
def execSwapDelay (s : State) : Host.Outcome State Fault Refusal :=
  match s.bySlot (s.arg 0) (s.arg 1) with
  | none => .next s
  | some t =>
    match s.waitSince t with
    | none => .next s
    | some n =>
      if t.run = .run ∧ n + Config.swapDelay ≤ s.cycles then
        .next (s.onUid t.uid (fun u => { u with run := RunState.parked }))
      else .next s

/-- Whether a producer in flight is the JWAIT or PRECV of a strand. -/
def PendOp.isReceive (o : PendOp) : Bool :=
  match o with
  | .precv _ _ => true
  | .jwait _ => true
  | _ => false

/-- The JWAIT or PRECV that a strand has issued last, while it is in flight. -/
def State.recvOf (s : State) (t : Strand) : Option Pend :=
  t.lastAt.bind (fun l => s.pends.find? (fun p => p.uid == l.uid && p.strand == t.uid))

/-- Whether no producer of a strand is pending but the JWAIT or PRECV that it has issued last, which it executes again (R200). -/
def State.pendsAllow (s : State) (t : Strand) : Bool :=
  !s.pends.any (fun p => p.strand == t.uid && some p.uid != (s.recvOf t).map (·.uid))
    && !s.sfu.any (fun e => e.strand == t.uid) && !s.recs.any (fun e => e.strand == t.uid)

/-- What a save waits for (R200, R317, R352), and, of a capsule, the answer of an issued CAPS or CAPE; a trap that it has met
comes first (R378, R395). -/
def State.mayLeave (s : State) (t : Strand) : Bool :=
  s.pendsAllow t && s.noJobs t.uid && s.drained t.uid && s.writtenBack t.uid
    && !s.nops.any (fun n => n.strand == t.uid) && t.ackPend.isEmpty && t.preTrap.isNone
    && !s.syncs.any (fun q => q.strand == t.uid && (match q.op with | .caps _ _ _ => true | _ => false))

/-- A destination as it was before a JWAIT or PRECV that is withdrawn: an awaited forward is awaited again (R28). -/
def Strand.unpend (t : Strand) (c : Nat) : Strand :=
  t.onReg c (fun r => { r with full := !r.mark, pend := false })

/-- A strand stalled in the JWAIT or PRECV it has issued last is put back to it (R200): the instruction is executed again. -/
def State.rewind (s : State) (t : Strand) : State × Strand × Option Pend :=
  match t.lastAt, s.recvOf t with
  | some l, some p =>
    ({ s with pends := s.pends.filter (fun q => q.uid != p.uid) },
      { l.cells.foldl Strand.refill (t.unpend p.dst) with pc := l.pc, hold := t.hold - 1, lastAt := none }, some p)
  | _, _ => (s, t, none)

/-- The record of a strand that leaves its slot (R201 to R203). One of a displaced team's that is forced-saved lies in that of its
slot among the four that hold the core's tile table, which are written with it. -/
def State.putSaved (s : State) (v : Saved) : State :=
  let t := v.t
  let limit := !v.swap && (s.holdOf t.core t.launch).any (·.limit)
  let recs := if limit then s.tileRecs t.core t.launch else []
  let used := fun (n : Nat) => s.saved.any (fun x => x.record == n && dieOf x.t.core == dieOf t.core)
  let n := match recs[t.slot]? with
    | some k => if used k then s.freeCtx (dieOf t.core) recs else k
    | none => s.freeCtx (dieOf t.core) []
  let tiles := (s.core t.core).tiles
  let s1 := if limit then
      (recs.zipIdx.foldl (fun (s : State) (x : Nat × Nat) => s.writeTilesCtx t.core x.1 (tilesOf tiles x.2)) s).saveTiles t.core t.launch recs
    else s
  { (s1.writeCtx t v.swap n (if v.swap then [] else tilesOf tiles t.slot)) with
    saved := s1.saved ++ [{ v with at' := s.timeNs, record := n }] }

/-- A strand leaves its slot for a record (R197, R200 to R203): what it is stalled in will be executed again, and a wait of it
leaves no waiter record (R341). -/
def State.saveStrand (s : State) (t : Strand) (swap : Bool) : State :=
  let r0 := s.rewind t
  let r := r0.1.parkLeaving r0.2.1 (if swap then 2 else 1)
  let t1 : Strand :=
    { t.wait.cells.foldl Strand.refill r.2 with
      fetchBuf := none, run := RunState.run, stallSince := none, starved := [], stallIn := [] }
  let s1 := { r.1.removeStrand t.uid with waits := r.1.waits.filter (fun w => w.strand != t.uid) }
  s1.putSaved { t := t1, swap := swap, recv := r0.2.2, wait := s.waits.find? (fun w => w.strand == t.uid) }

/-- SWAP_OUT (R197): a handler start waits for a slot of a core, and the PARKED strand of the lowest slot is
swapped out. Pick 0 is the core, pick 1 the slot. -/
def execSwapOut (s : State) : Host.Outcome State Fault Refusal :=
  let core := s.arg 0
  match s.bySlot core (s.arg 1) with
  | none => .next s
  | some t =>
    let lower := s.all.any (fun u => u.core == core && u.slot < t.slot && u.run == RunState.parked)
    let free := [0, 1, 2, 3].any (fun n => s.handlerSlot core n)
    if t.run ≠ .parked ∨ lower = true ∨ free = true ∨ (nextReady s core 0 s.inq).isNone = true
        ∨ s.mayLeave t = false then .next s
    else .next (s.saveStrand t true)

/-- Whether a JWAIT or PRECV, in flight or to be executed again, could answer now. -/
def State.recvReady (s : State) (p : Pend) : Bool :=
  let s1 := if s.pends.any (fun q => q.uid == p.uid) then s else { s with pends := s.pends ++ [p] }
  match p.op with
  | .jwait id => (s.mailDone p.core id).isSome
  | .precv n addr => decide ((s1.doPrecv p n addr).pends.length < s1.pends.length)
  | _ => true

/-- Whether the JWAIT or PRECV that a strand will execute again could answer now (R198). -/
def State.receiveReady (s : State) (v : Saved) : Bool := v.recv.all s.recvReady

/-- Whether a PSEND or EOS on a pipe could go on (R385, R386). -/
def State.psendReady (s : State) (t : Strand) : Bool :=
  match s.holdOf t.core t.launch, s.pipe? t.launch t.wait.n with
  | some h, some d =>
    let i := s.teamIndex h
    s.teamGone t.launch d.consumer i
      || ((s.teamAt t.launch d.consumer i).any (·.started) && (s.channel t.launch t.wait.n i).credits != 0)
  | _, _ => true

/-- Whether the condition a swapped-out strand waits for holds (R198). -/
def State.resumable (s : State) (v : Saved) : Bool :=
  match v.t.wait.kind with
  | .sync => v.wait.all (fun w => w.holds (s.ownRead w.keys))
  | .psend => s.psendReady v.t
  | .ackw => !v.t.ackPend.contains v.t.wait.n
  | _ => s.receiveReady v

/-- The swapped-out strand of a slot that may resume (R189 rule 1, R198): its slot is empty, and its team holds
the core. -/
def State.resumption (s : State) (core slot : Nat) : Option Saved :=
  if (s.bySlot core slot).isSome then none
  else
    s.saved.find? (fun v => v.swap && v.t.core == core && v.t.slot == slot && s.resumable v
      && !(s.holdOf core v.t.launch).any (fun h => h.limit || h.away))

/-- A swapped-out strand resumes at its stalled instruction, which executes its wait again (R198). -/
def State.resume (s : State) (v : Saved) : State :=
  let s1 := { s with saved := s.saved.filter (fun x => x.t.uid != v.t.uid) }
  let r := s1.resumeCapsule (s.readCtx v)
  r.1.addStrand { s1.unbook r.2 with wait := { } }

/-- STRAND_RESUME (R198): a swapped-out strand resumes. Pick 0 is the core, pick 1 the slot. -/
def execStrandResume (s : State) : Host.Outcome State Fault Refusal :=
  match s.resumption (s.arg 0) (s.arg 1) with
  | none => .next s
  | some v => .next (s.resume v)

/-! ### Dispatch (R187 to R190) -/

/-- Whether a slot is open to the records of a launch (R187): FREE, or SAVED for teams that the launch displaced. -/
def State.slotOpen (s : State) (core slot launch : Nat) : Bool :=
  (s.bySlot core slot).isNone
    && s.saved.all (fun v => !(v.t.core == core && v.t.slot == slot)
      || (s.holdOf core v.t.launch).any (fun h =>
        h.drained.isSome && h.displacers.contains launch && (!v.swap || h.limit)))

/-- Whether a launch's records may run on a slot (R187, R199, R443). -/
def State.mayRun (s : State) (core slot : Nat) (l : Launch) : Bool :=
  l.stage == .live && s.coreUp core && !s.octetFrozen core && decide (slot < 4) && s.slotOpen core slot l.id
    && (s.holdOf core l.id).any (fun h => h.started && !h.ended && h.ending.isNone && h.drained.isNone && !h.away)
    && s.itemApplied core l.id

/-- The DEQ continuation of a queue for which a record is held (R355). -/
def State.heldWaiter (s : State) (launch q c : Nat) : Option DeqWaiter :=
  s.deqWaiters.find? (fun w => w.launch == launch && w.q == q && w.cluster == c && w.held.isSome)

/-- Whether a queue in cluster `c` is ready for a slot (R187, R188, R350). -/
def State.queueReady (s : State) (core slot c : Nat) (l : Launch) (q : Nat) : Bool :=
  let d := s.queueD l.id q
  let near := c == clusterOf core || d.scope == 3 && dieOfCluster c == dieOf core || 4 ≤ d.scope
  let head := (s.queue l.id q c).hw.head?
  near && s.mayRun core slot l
    && ((s.heldWaiter l.id q c).isSome || head.any (fun r => r.run) && (s.oldestDeq l.id q c).isNone)

/-- The last winner of a cluster at a level (R189); before the first, the search starts at position 0. -/
def State.pointer (s : State) (c level : Nat) : Nat :=
  match s.pointers.find? (fun p => p.1 == c && p.2.1 == level) with
  | some p => p.2.2
  | none => 511

/-- The queues of a cluster at a level that are ready for a slot: position, launch and queue. -/
def State.readyAt (s : State) (core slot c level : Nat) : List (Nat × Nat × Nat) :=
  (s.launches.filter (fun l => l.m.priority == level)).flatMap (fun l =>
    ((List.range 16).filter (fun q => s.queueReady core slot c l q)).map (fun q => (16 * l.slot + q, l.id, q)))

/-- The winner of a rotating pointer: the first ready position after it (R189). -/
def winnerAfter (p : Nat) (l : List (Nat × Nat × Nat)) : Option (Nat × Nat × Nat) :=
  let far := fun (x : Nat × Nat × Nat) => (x.1 + 511 - p) % 512
  match l with
  | [] => none
  | x :: xs => some (xs.foldl (fun (a : Nat × Nat × Nat) b => if far b < far a then b else a) x)

/-- What a dispatcher takes for a slot. -/
inductive Pick where
  | resume (v : Saved)
  | handler
  /-- the record of a queue: the cluster searched, the level, the position, the launch and the queue -/
  | record (c level pos launch q : Nat)
  deriving DecidableEq, Repr

/-- Rules 3 and 4 of R189 at a level. -/
def State.pickAt (s : State) (core slot level : Nat) : Option Pick :=
  let own := clusterOf core
  let at' := fun (c : Nat) => (winnerAfter (s.pointer c level) (s.readyAt core slot c level)).map
    (fun x => Pick.record c level x.1 x.2.1 x.2.2)
  ((List.range 64).map (fun i => (own + i) % 64)).findSome? at'

/-- The first candidate for a slot (R189). -/
def State.choice (s : State) (core slot : Nat) : Option Pick :=
  match s.resumption core slot with
  | some v => some (.resume v)
  | none =>
    if s.handlerSlot core slot && s.coreUp core && !s.octetFrozen core && (nextReady s core 0 s.inq).isSome then
      some .handler
    else [3, 2, 1, 0].findSome? (fun level => s.pickAt core slot level)

/-- A record starts on a slot (R24, R114, R187); a DEQ's continuation takes the record held for it, and acquires what was
released with both (R331, R355). -/
def State.startQueued (s : State) (core slot c launch q : Nat) : State :=
  match s.launch? launch, s.holdOf core launch with
  | some l, some h =>
    match s.heldWaiter launch q c with
    | some w =>
      let s1 := { s with deqWaiters := s.deqWaiters.filter (fun x => x.uid != w.uid) }
      let u := s1.nextUid
      let c := joinClock w.clock ((w.held.map (·.clock)).getD [])
      (s1.startRecord core slot l h { w := w.body, run := true, clock := c }).onUid u (fun t =>
        { t with heldRec := w.held.map (·.w) })
    | none =>
      match (s.queue launch q c).hw with
      | [] => s
      | r :: _ => ((s.popQueue launch q c).holdHeads launch q c hwEntries).startRecord core slot l h r
  | _, _ => s

/-- A choice carried out. -/
def State.take (s : State) (core slot : Nat) (p : Pick) : State :=
  match p with
  | .resume v => s.resume v
  | .handler => s.startHandler core slot
  | .record c level pos launch q =>
    (State.startQueued { s with
      pointers := (c, level, pos) :: s.pointers.filter (fun x => !(x.1 == c && x.2.1 == level)) } core slot c launch q)

/-- DISPATCH (R187, R189): a dispatcher fills a slot, the lowest of its core that has a candidate. Pick 0 is the
core, pick 1 the slot. -/
def execDispatch (s : State) : Host.Outcome State Fault Refusal :=
  let core := s.arg 0
  let slot := s.arg 1
  if (List.range slot).any (fun n => (s.choice core n).isSome) then .next s
  else
    match s.choice core slot with
    | none => .next s
    | some p => .next (s.take core slot p)

/-- HANDLER_START (R187, R189, R331, R334): a slot that has come to its turn, and has nothing to resume, takes the next
handler of the core input queue. Pick 0 is the core, pick 1 the slot. -/
def execHandlerStart (s : State) : Host.Outcome State Fault Refusal :=
  let core := s.arg 0
  let slot := s.arg 1
  if (List.range slot).any (fun n => (s.choice core n).isSome) || s.choice core slot != some .handler then .next s
  else .next (s.startHandler core slot)

/-! ### Draining and forced saves (R199 to R203) -/

/-- DRAIN_LIMIT (R199): the limit of a displaced launch has passed, and its strands on the core are forced-saved.
Pick 0 is the core, pick 1 the launch. -/
def execDrainLimit (s : State) : Host.Outcome State Fault Refusal :=
  match s.holdOf (s.arg 0) (s.arg 1), s.launch? (s.arg 1) with
  | some h, some l =>
    match h.drained with
    | none => .next s
    | some t0 =>
      if t0 + l.m.drainLimit ≤ s.timeNs
          ∧ s.all.any (fun t => t.launch == l.id && t.run == RunState.halted) = false then
        .next (s.onHold h.core l.id (fun x => { x with limit := true }))
      else .next s
  | _, _ => .next s

/-- Whether a strand must be forced-saved (R172, R199): its launch's limit on the core has passed, or its twin
has been saved. -/
def State.saveDue (s : State) (t : Strand) : Bool :=
  t.mode == .launch
    && ((s.holdOf t.core t.launch).any (fun h => h.limit)
      || t.isHandler && t.twin.isSome
        && s.saved.any (fun v => !v.swap && v.t.isHandler && v.t.entry == t.entry && v.t.uid != t.uid))

/-- A swapped-out strand that must be forced-saved (R199): its record becomes one of KIND 0, and it waits for no event of its own
any more. -/
def State.keepSwapped (s : State) (v : Saved) : State :=
  let t := s.unbook { s.readCtx v with wait := { } }
  State.putSaved { s with saved := s.saved.filter (fun x => x.t.uid != v.t.uid) } { v with t := t, swap := false, wait := none }

/-- FORCED_SAVE (R199 to R201): a strand is saved once everything it waits for is complete; of a slot whose own strand is swapped
out, that one's record is kept as a forced save's. Pick 0 is the core, pick 1 the slot. -/
def execForcedSave (s : State) : Host.Outcome State Fault Refusal :=
  let due := fun (t : Strand) => t.core == s.arg 0 && t.slot == s.arg 1 && s.saveDue t
  match (s.bySlot (s.arg 0) (s.arg 1)).filter due with
  | none =>
    match s.saved.find? (fun v => v.swap && due v.t) with
    | some v => .next (s.keepSwapped v)
    | none => .next s
  | some t =>
    let s1 := s.withdraw t.uid
    match s1.byUid t.uid with
    | none => .next s
    | some u =>
      if !s.saveDue t || t.run == RunState.halted || t.ending.isSome || !s.mayLeave t then .next s
      else .next (s1.saveStrand { u with wait := { } } false)

/-- Whether a saved strand is held back by its twin, which a displaced team's core still keeps (R172). -/
def State.twinHeld (s : State) (v : Saved) : Bool :=
  v.t.isHandler && v.t.twin.isSome
    && s.saved.any (fun w => w.t.isHandler && w.t.entry == v.t.entry && w.t.uid != v.t.uid
      && (s.holdOf w.t.core w.t.launch).any (fun h => h.away || h.drained.isSome))

/-- A restored strand (R203, R379, R407). -/
def State.restoreStrand (s : State) (v : Saved) : State :=
  let s1 := { s with saved := s.saved.filter (fun x => x.t.uid != v.t.uid) }
  let r := s1.resumeCapsule (s.readCtx v)
  let t := r.2
  let away : Word := BitVec.ofNat 64 ((s.timeNs % 2 ^ 48 + 2 ^ 48 - v.at' % 2 ^ 48) % 2 ^ 48)
  let pre := if !inTrap t.status && t.trapVector != 0 then some (Cause.forcedSaveResume, away) else t.preTrap
  r.1.addStrand { t with preTrap := pre }

/-- A tile-table entry restored (R201, R286, R310): GEN is one more, and PIN is 0. -/
def restoreTile (e : Word) : Word := tNextGen (e &&& ~~~0x0000000400000000)

/-- The samples of a core whose tile table changes hands are abandoned, and nothing holds its tiles (R310). -/
def State.dropSamples (s : State) (core : Nat) : State :=
  let s1 := (s.samples.filter (fun x => x.core == core)).foldl (fun (s : State) x => s.abandon x) s
  State.onCore { s1 with samples := s1.samples.map (fun x => if x.core == core then { x with unpinned := true } else x) } core
    (fun c => { c with uses := List.replicate 32 { } })

/-- The tile table of a team comes back to its core (R201): no entry is pinned, and a sample of another GEN will be
abandoned when its tile is read (R310). -/
def State.restoreTiles (s : State) (core launch : Nat) : State :=
  match s.savedTiles.find? (fun x => x.core == core && x.launch == launch) with
  | none => s
  | some x =>
    { (s.onCore core (fun c =>
        { c with tiles := (s.readTiles x).map restoreTile, uses := c.uses.map (fun u => { u with pins := 0 }) })) with
      samples := s.samples.map (fun y => if y.core == core then { y with unpinned := true } else y)
      savedTiles := s.savedTiles.filter (fun y => !(y.core == core && y.launch == launch)) }

/-- The receive buffers of a team's pipes come back to its core (R389). -/
def State.restoreBufs (s : State) (core launch : Nat) : State :=
  let mine := s.savedBufs.filter (fun b => b.1 == core && b.2.1 == launch)
  let put := fun (s : State) (b : Nat × Nat × Nat × Nat) =>
    match s.pipe? launch b.2.2.1 with
    | some d => s.spadPut core d.buf (d.slots * d.slotSize) b.2.2.2 (fullMask (d.slots * d.slotSize))
    | none => s
  mine.foldl put { s with savedBufs := s.savedBufs.filter (fun b => !(b.1 == core && b.2.1 == launch)) }

/-- Whether a core is free for a team that holds it to come back (R201): no other launch's team has it, and none that
displaced it waits to come back itself. -/
def State.coreFree (s : State) (core launch : Nat) : Bool :=
  let above := fun (h : Hold) => (s.holdOf core launch).any (fun m => m.displacers.contains h.launch)
  !s.holds.any (fun h => h.core == core && h.launch != launch && (h.drained.isNone || above h))
    && !s.all.any (fun t => t.core == core && t.launch != launch && !t.isHandler)

/-- The cores on which a launch's displaced team comes back: with a team of a caravan its whole unit (R389). -/
def State.restoredWith (s : State) (core launch : Nat) : List Nat :=
  match s.holdOf core launch, s.launch? launch with
  | some h, some l =>
    if h.drained.isSome && l.m.caravans.any (fun c => c.testBit h.kernel) then
      (s.holds.filter (fun x => x.launch == launch && x.unit == h.unit && x.drained.isSome)).map (·.core)
    else [core]
  | _, _ => [core]

/-- The forced-saved strands of a launch on a core. -/
def State.savedOn (s : State) (core launch : Nat) : List Saved :=
  s.saved.filter (fun v => !v.swap && v.t.core == core && v.t.launch == launch)

/-- Whether a launch's strands may come back to a core (R201). -/
def State.mayRestore (s : State) (launch core : Nat) : Bool :=
  s.coreFree core launch && s.coreUp core
    && !(s.savedOn core launch).any (fun v => (s.bySlot core v.t.slot).isSome || s.twinHeld v)

/-- A launch's team comes back to a core (R201, R389): its tile table and its pipes' buffers first, then its strands. A strand
whose slot a handler of the launch had borrowed is swapped out again (R185). -/
def State.restoreCore (s : State) (launch core : Nat) : State :=
  let mine := s.savedOn core launch
  let lent := fun (v : Saved) => !v.t.isHandler && mine.any (fun w => w.t.isHandler && w.t.slot == v.t.slot)
  let s1 := (s.restoreTiles core launch).restoreBufs core launch
  let s2 := s1.onHold core launch (fun h => { h with drained := none, displacers := [], limit := false, away := false })
  let s3 := { s2 with saved := s2.saved.map (fun v => if v.t.core == core && v.t.launch == launch && lent v then { v with swap := true } else v) }
  (mine.filter (fun v => !lent v)).foldl (fun (s : State) v => s.restoreStrand v) s3

/-- TEAM_RESTORE (R201, R389): the core is free again, and the drover core restores the team; a caravan's unit whole. Pick 0 is
the core, pick 1 the launch. -/
def execTeamRestore (s : State) : Host.Outcome State Fault Refusal :=
  let core := s.arg 0
  let launch := s.arg 1
  let cores := s.restoredWith core launch
  if (s.savedOn core launch).isEmpty && !(s.holdOf core launch).any (fun h => h.drained.isSome)
      || !cores.all (s.mayRestore launch) then .next s
  else .next (cores.foldl (fun (s : State) c => s.restoreCore launch c) s)

/-! ### A team's end in the sequence (R441) -/

/-- The teams a launch has in all (R99). -/
def Manifest.teamCount (m : Manifest) : Nat := m.teamsBefore m.kernels.length

/-- A change of a launch. -/
def State.onLaunch (s : State) (id : Nat) (f : Launch → Launch) : State :=
  { s with launches := s.launches.map (fun l => if l.id == id then f l else l) }

/-- A launch without actor classes ends when every team of it has ended and no unit is pending (R442). -/
def State.launchCheck (s : State) (id : Nat) : State :=
  s.onLaunch id (fun l =>
    if l.stage == .live && l.m.classes.isEmpty && l.pending.isEmpty && l.endedTeams.length == l.m.teamCount then
      { l with stage := .ending, endAt := s.timeNs }
    else l)

/-- A team's end applied (R441, R442, R386): the core is free of it, its pipes are closed, and its launch may
end. -/
def State.applyTeamEnd (s : State) (core launch team code : Nat) : State :=
  let s1 := s.onLaunch launch (fun l =>
    { l with
      endedTeams := if l.endedTeams.contains team then l.endedTeams else l.endedTeams ++ [team]
      abnormal := if 1 ≤ code ∧ code ≤ 3 then l.abnormal + 1 else l.abnormal })
  match s.holdOf core launch with
  | none => s1.launchCheck launch
  | some h =>
    let s2 := (s1.abortChannels launch h.kernel (s.teamIndex h)).onLaunch launch (fun l =>
      { l with pastHolds := l.pastHolds ++ [{ h with started := true }] })
    ({ s2 with holds := s2.holds.filter (fun x => !(x.core == core && x.launch == launch)) }).launchCheck launch

end Sys2Proof.Machine
end

