-- ==== Sys2Proof/Machine/Codes.lean ====
section
/-! DEFINITION. The codes of the memory controllers (R277, R279, R280, R418): Reed–Solomon codes over GF(2^8) and GF(2^32),
their check symbols, and their decoders. -/

namespace Sys2Proof.Machine

/-- A Reed–Solomon code: a field of `2^bits` elements by its polynomial, its symbols, and how many of them check. -/
structure Code where
  bits : Nat
  poly : Nat
  n : Nat
  checks : Nat
  deriving DecidableEq, Repr

/-- The G32 code (R279). -/
def codeG32 : Code := { bits := 8, poly := 0x11D, n := 36, checks := 4 }

/-- The G256 code (R280). -/
def codeG256 : Code := { bits := 32, poly := 0x100400007, n := 96, checks := 32 }

/-! ### The field -/

/-- A product with α = x. -/
def Code.twice (c : Code) (a : Nat) : Nat := if 2 ^ c.bits ≤ 2 * a then (2 * a) ^^^ c.poly else 2 * a

/-- A product. -/
def Code.mul (c : Code) (a b : Nat) : Nat :=
  (List.range c.bits).foldr (fun i r => r ^^^ (if b.testBit i then (List.replicate i 0).foldl (fun x _ => c.twice x) a else 0)) 0

/-- A power. -/
def Code.pow (c : Code) (a : Nat) : Nat → Nat
  | 0 => 1
  | k + 1 => c.mul (c.pow a k) a

/-- The inverse of an element that is not 0: the product of its powers `2^i`, `1 ≤ i < bits`. -/
def Code.inv (c : Code) (a : Nat) : Nat :=
  ((List.range (c.bits - 1)).foldl (fun (r : Nat × Nat) _ => let q := c.mul r.2 r.2; (c.mul r.1 q, q)) (1, a)).1

/-- A power of α. -/
def Code.alpha (c : Code) (k : Nat) : Nat := (List.replicate k 0).foldl (fun x _ => c.twice x) 1

/-! ### Polynomials, the lowest coefficient first -/

/-- A sum. -/
def polyAdd : List Nat → List Nat → List Nat
  | [], q => q
  | p, [] => p
  | a :: p, b :: q => (a ^^^ b) :: polyAdd p q

/-- A product with an element. -/
def Code.scale (c : Code) (a : Nat) (p : List Nat) : List Nat := p.map (c.mul a)

/-- A product of polynomials. -/
def Code.polyMul (c : Code) : List Nat → List Nat → List Nat
  | [], _ => []
  | a :: p, q => polyAdd (c.scale a q) (0 :: c.polyMul p q)

/-- A value. -/
def Code.eval (c : Code) (p : List Nat) (x : Nat) : Nat := p.foldr (fun a r => c.mul r x ^^^ a) 0

/-- The derivative: in characteristic 2 the odd terms. -/
def polyDeriv (p : List Nat) : List Nat := (p.drop 1).zipIdx.map (fun x => if x.2 % 2 = 0 then x.1 else 0)

/-! ### Encoding -/

/-- The generator without its leading coefficient, the highest first: the product of x − α^i (R279, R280). -/
def Code.gen (c : Code) : List Nat :=
  (((List.range c.checks).foldl (fun g i => c.polyMul g [c.alpha i, 1]) [1]).reverse).drop 1

/-- The check symbols of data symbols (R279, R280): the remainder of d(x) · x^checks. -/
def Code.check (c : Code) (data : List Nat) : List Nat :=
  let g := c.gen
  data.foldl (fun (r : List Nat) d =>
    let f := d ^^^ r.headD 0
    List.zipWith (· ^^^ ·) (r.drop 1 ++ [0]) (c.scale f g)) (List.replicate c.checks 0)

/-- The codeword of data symbols: symbol `j` is the coefficient of x^(n − 1 − j). -/
def Code.encode (c : Code) (data : List Nat) : List Nat := data ++ c.check data

/-! ### Decoding -/

/-- The syndromes of a received word: its values at α^0 on. -/
def Code.syndromes (c : Code) (w : List Nat) : List Nat := (List.range c.checks).map (fun i => c.eval w.reverse (c.alpha i))

/-- The state of the search for an error locator: the locator, the one before the last change, its discrepancy, the length
and the steps since. -/
structure Search where
  cur : List Nat := [1]
  old : List Nat := [1]
  disc : Nat := 1
  len : Nat := 0
  gap : Nat := 1
  deriving DecidableEq, Repr

/-- One syndrome more in the search for the shortest locator. -/
def Code.search (c : Code) (s : List Nat) (z : Search) (k : Nat) : Search :=
  let d := ((List.range (z.len + 1)).map (fun i => if i ≤ k then c.mul (z.cur.getD i 0) (s.getD (k - i) 0) else 0)).foldl (· ^^^ ·) 0
  let next := polyAdd z.cur (List.replicate z.gap 0 ++ c.scale (c.mul d (c.inv z.disc)) z.old)
  if d = 0 then { z with gap := z.gap + 1 }
  else if 2 * z.len ≤ k then { cur := next, old := z.cur, disc := d, len := k + 1 - z.len, gap := 1 }
  else { z with cur := next, gap := z.gap + 1 }

/-- The locator of the place of symbol `j`. -/
def Code.place (c : Code) (j : Nat) : Nat := c.alpha (c.n - 1 - j)

/-- The error of a word with the syndromes `s`, some symbols of which are erased: none where it finds no error of at most
(checks − erased) / 2 symbols besides. -/
def Code.errorOf (c : Code) (s : List Nat) (erased : List Nat) : Option (List Nat) :=
  let g := erased.foldl (fun p j => c.polyMul p [1, c.place j]) [1]
  let t := ((c.polyMul g s).take c.checks).drop erased.length
  let z := (List.range t.length).foldl (c.search t) { }
  let loc := c.polyMul g z.cur
  let om := (c.polyMul s loc).take c.checks
  let at' := fun (j : Nat) =>
    let x := c.inv (c.place j)
    if c.eval loc x = 0 then c.mul (c.place j) (c.mul (c.eval om x) (c.inv (c.eval (polyDeriv loc) x))) else 0
  let e := (List.range c.n).map at'
  if 2 * z.len ≤ c.checks - erased.length ∧ c.syndromes e = s then some e else none

/-- The pseudo-channel of a G256 symbol (R280). -/
def channelOf (j : Nat) : Nat := j % 4

/-- What the decoder of a granule takes for the error of a word with the syndromes `s` (R279, R280): at most 2 symbols of a
G32 codeword; of a G256 codeword at most 16, else one pseudo-channel and 4 symbols, where exactly one channel fits. -/
def decodeError (gran : Nat) (s : List Nat) : Option (List Nat) :=
  if gran < 3 then codeG32.errorOf s []
  else
    match codeG256.errorOf s [] with
    | some e => some e
    | none =>
      match (List.range 4).filterMap (fun ch => codeG256.errorOf s ((List.range 96).filter (fun j => channelOf j == ch))) with
      | [e] => some e
      | _ => none

/-- The code of a granule (R277). -/
def granCode (gran : Nat) : Code := if gran < 3 then codeG32 else codeG256

/-- Bytes of data in a codeword of a granule (R277, R279, R280). -/
def codeBytes (gran : Nat) : Nat := if gran < 3 then 32 else 256

/-- The data symbols of a codeword, from the value of its bytes (R279, R280). -/
def dataSymbols (gran v : Nat) : List Nat :=
  if gran < 3 then (List.range 32).map (fun j => v / 2 ^ (8 * j) % 2 ^ 8) else (List.range 64).map (fun j => v / 2 ^ (32 * j) % 2 ^ 32)

/-- The value of data symbols. -/
def symbolValue (gran : Nat) (l : List Nat) : Nat :=
  l.foldr (fun x r => x + (if gran < 3 then 2 ^ 8 else 2 ^ 32) * r) 0

end Sys2Proof.Machine
end

