-- ==== Sys2Proof/Machine/Errors.lean ====
section
/-! DEFINITION. Errors of the arrays (R412 to R418), containment (R419 to R422), and the moves of pages (R281 to
R283). -/

namespace Sys2Proof.Machine

/-! ### SRAM (R412 to R416) -/

/-- One more in a 16-bit saturating counter. -/
def satInc (n : Nat) : Nat := min (n + 1) 65535

/-- An error counted at a bank of an array of a core, cluster, octet or die (R416). -/
def State.countBank (s : State) (unit : SramUnit) (place bank : Nat) (bad : Bool) : State :=
  let here := fun (x : BankCount) => x.unit == unit && x.place == place && x.bank == bank
  let e := (s.banks.find? here).getD { unit := unit, place := place, bank := bank }
  let e1 : BankCount :=
    if bad then { e with uncorrected := satInc e.uncorrected } else { e with corrected := satInc e.corrected }
  { s with banks := e1 :: s.banks.filter (fun x => !here x) }

/-- An SRAM word of a core is uncorrectable (R408, R415, R416): the core's strands stop, and its die's drover core is told. -/
def State.coreFails (s : State) (unit : SramUnit) (core place bank : Nat) (info : Word) : State :=
  let s1 := (s.countBank unit place bank true).onCore core (fun c => { c with uncorrected := c.uncorrected + 1 })
  (s1.onSlots (fun t => t.core == core) (fun t => { t with run := .halted, stopped := true })).note core Cause.uncorrectable info

/-- Whether two records are of words of one column group. -/
def SoftErr.sameGroup (w x : SoftErr) : Bool := w.core == x.core && columnGroup w.addr == columnGroup x.addr

/-- Whether two records are of one word, or of one vertical row. -/
def SoftErr.same (w x : SoftErr) : Bool := w.sameGroup x && w.row == x.row && (w.row || w.addr == x.addr)

/-- A word, or a vertical row, is rebuilt from what stands in the rest of its column group (R413): where bits there have
flipped undetected, the word comes out with those bits flipped, and a row rebuilt agrees with them. -/
def State.rebuild (s : State) (w : SoftErr) (mates : List SoftErr) : State :=
  let x := mates.foldl (fun (n : Nat) m => n ^^^ m.mask) 0
  let gone := { s with softErrs := s.softErrs.filter (fun y => !(y.same w || w.row && y.sameGroup w)) }
  let left : SoftErr := { core := w.core, addr := w.addr, mask := x }
  if w.row || x == 0 then gone else ({ gone with softErrs := gone.softErrs ++ [left] }).flipSpad w.core w.addr x

/-- A read of a word has detected its error (R413, R414): it is rebuilt, unless another word of its column group, or its vertical
row, shows one too or is uncorrectable: then both are. -/
def State.detect (s : State) (w : SoftErr) : State :=
  let mates := s.softErrs.filter (fun y => y.sameGroup w && !y.same w)
  let loud := mates.filter (fun y => !undetected y.mask)
  if loud.isEmpty && !(s.badWords.any (fun y => y.sameGroup w && !y.same w)) then
    (s.rebuild w mates).countBank .scratchpad w.core (w.addr / 16384) false
  else
    State.coreFails
      { s with
        softErrs := s.softErrs.filter (fun y => !(y.same w || loud.contains y))
        badWords := s.badWords ++ (w :: loud).map (fun y => { y with mask := 0, found := false }) }
      .scratchpad w.core w.core (w.addr / 16384) (BitVec.ofNat 64 w.addr)

/-- SRAM_REBUILD_DONE (R413): the recovery engine has rebuilt a word that a read found faulty, or could not. Pick
0 is its place. -/
def execSramRebuildDone (s : State) : Host.Outcome State Fault Refusal :=
  match s.softErrs[s.arg 0]? with
  | none => .next s
  | some w => if w.found then .next (s.detect w) else .next s

/-- PATROL_SCRUB (R416): the scrubber of a bank reads its next row, and with it the vertical row of its column group. Pick 0 is
the core, pick 1 the bank. DESIGN CHOICE (log entry 67): in the arrays whose layout the manual does not give, an error is found as it
comes, so that their scrubbers find nothing more. -/
def execPatrolScrub (s : State) : Host.Outcome State Fault Refusal :=
  let a := s.arg 1 % 16 * 16384 + s.cycles / 4096 % 2048 * 8
  let hit := fun (w : SoftErr) =>
    w.core == s.arg 0 && !undetected w.mask && (if w.row then columnGroup w.addr == columnGroup a else w.addr == a)
  match s.softErrs.find? hit with
  | some w => .next (s.detect w)
  | none => .next s

/-- SOFT_ERROR at a scratchpad word or a vertical row (R412, R414): the bits that now differ from what was written. Flips that no
read detects are what a read finds. -/
def State.softWord (s : State) (core a mask : Nat) (row : Bool) : State :=
  let w : SoftErr := { core := core, addr := if row then a / 512 * 512 else a, row := row, mask := mask % 2 ^ 68 }
  if s.badWords.any (fun y => y.same w) then s
  else
    let old := s.softErrs.find? (fun y => y.same w)
    let was := (old.map (·.mask)).getD 0
    let now := was ^^^ w.mask
    let seen := fun (m : Nat) => if !row && undetected m then m else 0
    let s1 := { s with
      softErrs := s.softErrs.filter (fun y => !y.same w)
        ++ (if now = 0 then [] else [{ w with mask := now, found := (old.map (·.found)).getD false && !undetected now }]) }
    if row then s1 else s1.flipSpad core a (seen was ^^^ seen now)

/-- A dirty line of a slice written back with its check symbols made inconsistent, so that each unit that it covers is
uncorrectable in memory (R415): at once where its die owns it, else when it is applied at its owner. -/
def State.spoilLine (s : State) (c line : Nat) : State :=
  if s.slices.all (fun x => !(x.cluster == c && x.addr / 128 == line)) then s
  else
    let s1 := s.writeBack c line
    if ownerOf (128 * line) = dieOfCluster c then s1.spoilUnits (s1.ownerClass (128 * line)) (128 * line)
    else s1.onStore s.nextUid (fun y => { y with spoils := true })

/-- A line held by a synchronisation engine written back with its units marked uncorrectable (R415). -/
def State.spoilHeld (s : State) (a : Nat) : State := s.spoilUnits (s.recClass (a / 128 * 128)) (a / 128 * 128)

/-- A join counter or a capsule record fails (R415): the owner is told. -/
def State.failObject (s : State) (die launch : Nat) (obj : Word) : State := s.report die launch 0x0D [obj]

/-- A launch that leases an address. -/
def State.lesseeOf (s : State) (a : Nat) : Nat :=
  match s.launches.find? (fun l => l.m.leases.any (fun e => e.base ≤ a && a < e.base + e.len)) with
  | some l => l.id
  | none => 0

/-- The VERSION of an actor's VALID heap slot, or 0 (R422). -/
def State.heapVersion (s : State) (d : ClassD) (key : Word) : Nat :=
  match s.search d key with | .slot _ v => v | _ => 0

/-- An actor rolled back to its last version (R422): the message whose handler ran is dropped, and the owner is told of it
and of `lost` more. -/
def State.rollbackReport (s : State) (d : ClassD) (e : Entry) (lost : Nat) : State :=
  ((s.stopHandlers e.uid).rollback e []).report e.die e.launch 0x0B
    [BitVec.ofNat 64 e.cls, e.key, BitVec.ofNat 64 (s.heapVersion d e.key), BitVec.ofNat 64 lost]

/-- Whether a message's handler runs, which a rollback drops (R422). -/
def State.runsMessage (s : State) (e : Entry) : Bool :=
  e.st == .live && (s.handlerRuns e.uid e.core || e.twin && (s.handlerRuns e.uid e.core2 || e.running.isSome))

/-- A failed flow-table entry or waystation slot (R415): held message `n` is dropped, and the actor is rolled back as its
host core's containment would roll it back (R422). -/
def State.failEntry (s : State) (e : Entry) (n : Nat) : State :=
  match s.classOf e.launch e.cls with
  | none => s
  | some d =>
    let run := s.runsMessage e
    let x : Entry := { e with held := e.held.eraseIdx n, fails := if run then 0 else e.fails }
    let s1 := match e.st with | .evicting (some b) => (s.writeState d e b).getD s | _ => s
    (s1.onEntry e.uid (fun _ => x)).rollbackReport d x (run.toNat + (e.held.length - x.held.length))

/-- The array that a pick names. -/
def sramUnit (n : Nat) : SramUnit :=
  [SramUnit.registers, .tiles, .icache, .slice, .flowTable, .waystation, .sync].getD n .engine

/-- Doubleword `i` of a value with some of its bits flipped. -/
def flipAt (v i m : Nat) : Nat := v ^^^ (m % 2 ^ 64 * 2 ^ (64 * i))

/-- An element of a list changed. -/
def onNth {α : Type} (l : List α) (i : Nat) (f : α → α) : List α :=
  match l[i]? with
  | some x => l.set i (f x)
  | none => l

/-- Flips that no read detects in an array other than the scratchpads (R414): `k` is the array, and `a`, `b`, `i` the place.
0 a g or k register (core, slot, register); 1 a v register (core, slot, 16 times the register and the doubleword); 2 a tile-table
entry (core, tile); 3 a line of an instruction cache and 4 of a slice (its place, doubleword); 5 dirty bytes of a slice (cluster,
address); 6 the operand cache (the plane's place, doubleword); 7 a held message (entry, message, word); 8 an entry's key; 9 a
join counter's count and 10 the words of its record (its place, word); 11 a waiter's operand; 12 a line held by a synchronisation
engine (address); 13 a unit that a copy job has read (job, unit). -/
def State.flipQuiet (s : State) (k a b i m : Nat) : State :=
  let w : Word := BitVec.ofNat 64 m
  match k with
  | 0 => s.onSlots (fun t => t.core == a && t.slot == b) (fun t => t.onReg i (fun r => { r with val := r.val ^^^ w }))
  | 1 => s.onSlots (fun t => t.core == a && t.slot == b) (fun t =>
      t.onV (i / 16) (fun r => { r with val := r.val ^^^ BitVec.ofNat 1024 (flipAt 0 (i % 16) m) }))
  | 2 => s.setTile a (b % 32) (s.tile a (b % 32) ^^^ w)
  | 3 => { s with icache := onNth s.icache a (fun x => { x with val := flipAt x.val (b % 8) m }) }
  | 4 => { s with islices := onNth s.islices a (fun x => { x with val := flipAt x.val (b % 8) m }) }
  | 5 => { s with slices := s.slices.map (fun x =>
      if x.cluster == a && x.addr / 8 == b / 8 then { x with val := x.val ^^^ BitVec.ofNat 8 (m / 256 ^ (x.addr % 8)) } else x) }
  | 6 => { s with opCache := onNth s.opCache a (fun x => { x with val := flipAt x.val b m }) }
  | 7 => { s with entries := onNth s.entries a (fun e =>
      { e with held := onNth e.held b (fun x => { x with w := onNth x.w i (fun v => v ^^^ w) }) }) }
  | 8 => { s with entries := onNth s.entries a (fun e => { e with key := e.key ^^^ w }) }
  | 9 => { s with counters := onNth s.counters a (fun c => { c with count := c.count ^^^ (m % 2 ^ 32) }) }
  | 10 => { s with counters := onNth s.counters a (fun c => { c with body := onNth c.body b (fun v => v ^^^ w) }) }
  | 11 => { s with waits := onNth s.waits a (fun x => { x with c := x.c ^^^ (m % 2 ^ 32) }) }
  | 12 =>
    match s.leaf (s.ownerClass a) (a / 8 * 8) with
    | none => s
    | some l =>
      let key := l.key (s.die (ownerOf a)).startMap (s.ownerClass a) (a / 8 * 8)
      { s with hbm := Mem.write s.hbm key 8 (Mem.read s.hbm key 8 ^^^ (m % 2 ^ 64)) }
  | _ => { s with jobs := onNth s.jobs a (fun j => { j with units := onNth j.units b (fun u => (u.1, u.2 ^^^ (m % 2 ^ 64))) }) }

/-- SOFT_ERROR (R412 to R415): bits of an SRAM word flip. Pick 0 says what and the picks after it where: 0 a scratchpad word (core,
address, the 68 bits flipped); 1 the vertical row of its column group (the same). In the other arrays, whose layout the manual does
not give (DESIGN CHOICE, log entry 67), the pick says what comes of the error. 2 flips that no read detects (the five numbers of
`State.flipQuiet`, its `m` the bits flipped); 3 an error that is rebuilt (the array; its core, cluster, octet or die; the bank). Then
what R415 lists: 4 an instruction-cache line (core, line, bank); 5 a clean line of a slice (cluster, line, bank); 6 the operand cache of
an octet (octet, bank); 7 a dirty line of a slice (cluster, line, bank); 8 the copy-engine buffer of a job (its place, octet, bank);
9 a register file, the tile table or a chain's accumulators of a core (core, array, bank); 10 a flow-table entry or a held message
(the entry's place, the message that is lost, whether it is a message, bank); 11 a waiter record (its place, die, bank); 12 a join
counter (its place, bank); 13 a capsule record (address, bank); 14 a line held by a synchronisation engine (address, bank). -/
def execSoftError (s : State) : Host.Outcome State Fault Refusal :=
  let a := s.arg 1
  let b := s.arg 2
  match s.arg 0 with
  | 0 => .next (s.softWord a (b % Config.spadBytes / 8 * 8) (s.arg 3) false)
  | 1 => .next (s.softWord a (b % Config.spadBytes / 8 * 8) (s.arg 3) true)
  | 2 => if undetected (s.arg 5) then .next (s.flipQuiet a b (s.arg 3) (s.arg 4) (s.arg 5)) else .next s
  | 3 => .next (s.countBank (sramUnit a) b (s.arg 3) false)
  | 4 => .next ({ s with icache := s.icache.filter (fun x => !(x.owner == a && x.line == b)) }.countBank .icache a (s.arg 3) false)
  | 5 => .next ({ s with islices := s.islices.filter (fun x => !(x.owner == a && x.line == b)) }.countBank .slice a (s.arg 3) false)
  | 6 => .next ({ s with opCache := s.opCache.filter (fun x => x.octet != a) }.countBank .engine a b false)
  | 7 => .next ((s.spoilLine a b).countBank .slice a (s.arg 3) true)
  | 8 =>
    match s.jobs[a]? with
    | none => .next s
    | some j =>
      .next ({ s with jobs := s.jobs.set a { j with fault := some (j.fault.getD (Cause.uncorrectable, s.jobAt j)) } }.countBank
        .engine b (s.arg 3) true)
  | 9 =>
    let place := if b ≤ 1 then a else octetOf a
    .next ({ s with tick := s.tick + 1 }.coreFails (if b = 0 then .registers else if b = 1 then .tiles else .engine) a place (s.arg 3)
      (Config.freeWord s.tick))
  | 10 =>
    match s.entries[a]? with
    | none => .next s
    | some e =>
      .next ((s.failEntry e b).countBank (if s.arg 3 = 1 then .waystation else .flowTable) e.die (s.arg 4) true)
  | 11 =>
    match s.waits[a]? with
    | none => .next s
    | some w =>
      .next (({ s with waits := s.waits.eraseIdx a }.failWait w.strand Cause.uncorrectable (BitVec.ofNat 64 w.addr)).countBank .sync b
        (s.arg 3) true)
  | 12 =>
    match s.counters[a]? with
    | none => .next s
    | some c =>
      let h : Word := BitVec.ofNat 64 (c.launch % 2 ^ 16 * 2 ^ 48 + c.index % 4 * 4096 + c.index)
      .next (((s.onCounter c.launch c.index (fun x => { x with failed := true })).failObject (c.index % 4) c.launch h).countBank .sync
        (c.index % 4) b true)
  | 13 =>
    .next (({ s with failedRecs := if s.failedRecs.contains a then s.failedRecs else a :: s.failedRecs }.failObject (ownerOf a)
      (s.lesseeOf a) (BitVec.ofNat 64 a)).countBank .sync (ownerOf a) b true)
  | 14 => .next ((s.spoilHeld a).countBank .sync (ownerOf a) b true)
  | _ => .next s

/-! ### Moves of pages (R281 to R283) -/

/-- The cores that the map of a die numbers, in its order: those neither fused off nor retired (R155). -/
def State.liveOn (s : State) (d : Nat) : List Nat :=
  (List.range 4096).filter (fun c => dieOf c == d && !s.dead.contains c)

/-- Where the map of die `d` lies in the scratchpad of a drover core (R155, R263). DESIGN CHOICE (log entry 50): the four maps
stand one behind the other at SV_MAP_BASE, each with room for 1024 entries. -/
def State.mapAt (s : State) (drover d : Nat) : Nat := ((s.die drover).mapBase.toNat + 2048 * d) % Config.spadBytes

/-- The entries of a map, one behind the other (R155). -/
def mapEntries (l : List Nat) : Nat := l.foldr (fun c v => c / 64 % 32 * 32 + c % 32 + 65536 * v) 0

/-- The drover core of die `p` writes the map of die `d` as it now stands. -/
def State.writeMap (s : State) (p d : Nat) : State :=
  let n := 2 * (s.liveOn d).length
  s.spadWrite (droverCore p) (s.mapAt p d) n (mapEntries (s.liveOn d)) (fullMask n)

/-- A core is retired (R156, R420): the map of its die gets a new version, on every drover core. The LOGICAL_ID of the other
cores stays until the next start (R131). -/
def State.retireCore (s : State) (core : Nat) : State :=
  if s.dead.contains core then s
  else (List.range 4).foldl (fun (s : State) p => s.writeMap p (dieOf core)) { s with dead := core :: s.dead }

/-- A doubleword of a die's tables written by its drover core. -/
def State.setHbmD (s : State) (d a v : Nat) : State := { s with hbm := Mem.write s.hbm (hbmKey d 0 a) 8 v }

/-- A number rounded up to a multiple. -/
def ceilTo (n m : Nat) : Nat := (n + m - 1) / m * m

/-- A retired frame that a range of a die's memory meets; one at a multiple of 2 MiB counts as a whole page (R283). -/
def State.retiredAt (s : State) (k size : Nat) : Option Nat :=
  s.retired.find? (fun r => decide (k ≤ r) && decide (r < k + size) || r % 2 ^ 21 == 0 && decide (r ≤ k) && decide (k < r + 2 ^ 21))

/-- The first place from `a` on that is free of retired frames, in a number of tries. -/
def State.skipRetired (s : State) (d tier size a : Nat) : Nat → Nat
  | 0 => a
  | n + 1 =>
    match s.retiredAt (hbmKey d tier a) size with
    | none => a
    | some r => s.skipRetired d tier size (ceilTo (r % 2 ^ 41 + (if r % 2 ^ 21 = 0 then 2 ^ 21 else 2 ^ 10)) size) n

/-- The check bytes of some bytes at a GRAN (R277). -/
def checkOf (gran n : Nat) : Nat := n / (32 * 2 ^ gran) * [4, 8, 8, 128].getD gran 0

/-- A frame of a tier given out by a die's drover core for pages of a GRAN, if the tier holds one more that is not retired. -/
def State.newFrame (s : State) (d tier cls gran : Nat) : Option (Nat × State) :=
  let size := pageBytes cls
  let at' := s.skipRetired d tier size (ceilTo (if tier = 0 then (s.die d).nextHbm else (s.die d).nextLp) size) (s.retired.length + 1)
  if at' + size ≤ tierBytes tier then
    some (at', s.onDie d (fun x =>
      { x with
        checkBytes := x.checkBytes + checkOf gran size
        nextHbm := if tier = 0 then at' + size else x.nextHbm
        nextLp := if tier = 0 then x.nextLp else at' + size }))
  else none

/-- A leaf entry of a frame (R273). -/
def leafWord (r w x pin mig : Bool) (gran tier frame : Nat) : Nat :=
  2 ^ 63 + r.toNat * 2 ^ 62 + w.toNat * 2 ^ 61 + x.toNat * 2 ^ 60 + gran * 2 ^ 58 + tier * 2 ^ 57 + pin.toNat * 2 ^ 56
    + mig.toNat * 2 ^ 55 + frame

/-- The entry of a leaf. -/
def Leaf.word (l : Leaf) : Nat := leafWord l.r l.w l.x l.pin l.mig l.gran l.tier l.frame

/-- The leaf at a pair. -/
def State.leafAt (s : State) (d pair : Nat) : Option Leaf := leafOf (s.hbmD d pair) (s.hbmD d (pair + 8))

/-- Bytes of a die's HBM cleared for a table. -/
def State.clearHbm (s : State) (d a n : Nat) : State :=
  { s with hbm := s.hbm.filter (fun c => !(decide (hbmKey d 0 a ≤ c.1) && decide (c.1 < hbmKey d 0 a + n))) }

/-- The table that a pointer doubleword names, made where it names none (R272): an aligned one of `n` bytes. -/
def State.tableAt (s : State) (d ptr n : Nat) : Option (Nat × State) :=
  match ptrOf (s.hbmD d ptr) with
  | some t => some (t, s)
  | none =>
    let t := s.skipRetired d 0 n (ceilTo (s.die d).nextHbm n) (s.retired.length + 1)
    if t + n ≤ tierBytes 0 then
      some (t, ((s.clearHbm d t n).onDie d (fun x => { x with nextHbm := t + n })).setHbmD d ptr (2 ^ 63 + t))
    else none

/-- The leaf pair of an offset in the tree of a class, with the tables on its way (R272). -/
def State.pairFor (s : State) (d cls off : Nat) : Option (Nat × State) :=
  if cls = 0 then
    match s.tableAt d ((s.die d).root0 + 8 * (off / 2 ^ 35 % 2 ^ 15)) (2 ^ 18) with
    | none => none
    | some t => some (t.1 + 16 * (off / 2 ^ 21 % 2 ^ 14), t.2)
  else
    match s.tableAt d ((s.die d).root1 + 8 * (off / 2 ^ 35 % 2 ^ 15)) (2 ^ 17) with
    | none => none
    | some t =>
      match t.2.tableAt d (t.1 + 8 * (off / 2 ^ 21 % 2 ^ 14)) (2 ^ 15) with
      | none => none
      | some u => some (u.1 + 16 * (off / 2 ^ 10 % 2 ^ 11), u.2)

/-- The controller reads and writes a frame by its leaf's GRAN (R277). -/
def State.setGran (s : State) (d cls : Nat) (l : Leaf) : State :=
  let k := hbmKey d l.tier l.frame
  let rest := s.grans.filter (fun g => !(decide (k ≤ g.1) && decide (g.1 + g.2.1 ≤ k + pageBytes cls)))
  if l.gran = 0 then (if rest.length = s.grans.length then s else { s with grans := rest })
  else { s with grans := (k, pageBytes cls, l.gran) :: rest }

/-- A leaf pair written by a die's drover core, and invalidated in its TLB (R269). -/
def State.setLeaf (s : State) (d cls off pair w mask : Nat) : State :=
  let s1 := ((s.setHbmD d pair w).setHbmD d (pair + 8) mask).untouch d cls (off / pageBytes cls)
  match leafOf w mask with
  | some l => s1.setGran d cls l
  | none => s1

/-- The leaf of a page whose pair is at hand: its own; else, of a 1 KiB page, the part of the 2 MiB page's frame that holds
the address, if that frame is not retired (R283). -/
def State.leafFor (s : State) (d cls a pair : Nat) : Option Leaf :=
  match s.leafAt d pair with
  | some l => some l
  | none =>
    if cls = 0 then none
    else
      ((s.leaf 0 a).map (fun l => { l with frame := l.frame + a % 2 ^ 21 / 1024 * 1024 })).filter (fun l =>
        (s.retiredAt (hbmKey d l.tier l.frame) 1024).isNone)

/-- The drover core of a die maps a 2 MiB page of its own below the bound that its firmware sets, before the page is used: at
the frame of its own offset, or, where that is retired, at another. -/
def State.mapOwn (s : State) (a x : Nat) : State :=
  let d := ownerOf a
  let off := a % 2 ^ 50
  if 2 ^ 52 ≤ a ∨ (s.die d).startMap = true ∨ (s.die d).idLimit ≤ off ∨ (s.leaf 0 a).isSome = true then s
  else
    let own := off / 2 ^ 21 * 2 ^ 21
    match s.pairFor d 0 off with
    | none => s
    | some p =>
      let put := fun (s : State) (frame : Nat) =>
        s.setLeaf d 0 off p.1 (leafWord true true (x == 1) false false 0 0 frame) (2 ^ 64 - 1)
      if (s.retiredAt (hbmKey d 0 own) (2 ^ 21)).isNone then put p.2 own
      else
        match p.2.newFrame d 0 0 0 with
        | none => s
        | some f => put f.2 f.1

/-- A die's drover core starts to move the page of an address to a GRAN and a TIER (R281, R282): MIG is set. -/
def State.startMove (s0 : State) (cls a gran tier : Nat) : State :=
  let s := s0.mapOwn a 0
  let d := ownerOf a
  match (if (s.die d).startMap || (s.leaf cls a).isNone then none else s.pairFor d cls (a % 2 ^ 50)) with
  | none => s
  | some p =>
    match p.2.leafFor d cls a p.1, p.2.newFrame d tier cls gran with
    | some l, some f =>
      if l.mig then s
      else
        let m : PageMove :=
          { die := d, cls := cls, vpn := a / pageBytes cls, pair := p.1, src := hbmKey d l.tier l.frame,
            dst := hbmKey d tier f.1, gran := gran }
        let s1 := f.2.setLeaf d cls (a % 2 ^ 50) p.1 ({ l with mig := true } : Leaf).word l.mask.toNat
        { s1 with moves := s.moves ++ [m] }
    | _, _ => s

/-- PAGE_MOVE (R281, R282): a die's drover core starts to move a page. Pick 0 is the class, pick 1
an address of the page, pick 2 the new GRAN, pick 3 the new TIER. -/
def execPageMove (s : State) : Host.Outcome State Fault Refusal :=
  .next (s.startMove (s.arg 0 % 2) (s.arg 1) (s.arg 2 % 4) (s.arg 3 % 2))

/-- Whether a byte of memory lies in the source frame of a move. -/
def PageMove.inSrc (m : PageMove) (k : Nat) : Bool := decide (m.src ≤ k) && decide (k < m.src + pageBytes m.cls)

/-- A key of the source frame as the destination holds it. -/
def PageMove.rekey (m : PageMove) (k : Nat) : Nat := if m.inSrc k then m.dst + (k - m.src) else k

/-- The units of the destination that an uncorrectable unit of the source makes uncorrectable there (R281, R283). -/
def PageMove.badUnits (m : PageMove) (b : Nat × Nat) : List (Nat × Nat) :=
  let unit := 32 * 2 ^ m.gran
  let k := m.rekey b.1 / unit * unit
  (List.range ((b.2 + unit - 1) / unit)).map (fun i => (k + i * unit, unit))

/-- The units of the source frame that lost pseudo-channels make uncorrectable (R418). -/
def State.lostUnits (s : State) (m : PageMove) : List (Nat × Nat) :=
  if s.lost.isEmpty then []
  else
    let n := 32 * 2 ^ s.granAt m.src
    (((List.range (pageBytes m.cls / n)).map (fun i => (m.src + n * i, n))).filter (fun u => s.onLost u.1))

/-- The contents of a page at its new frame, with its uncorrectable units and the clocks of what was written there. -/
def State.copyFrame (s : State) (m : PageMove) : State :=
  let size := pageBytes m.cls
  let there := s.hbm.filter (fun c => !(decide (m.dst ≤ c.1) && decide (c.1 < m.dst + size)))
  { s with
    hbm := (s.hbm.filter (fun c => m.inSrc c.1)).foldl (fun (l : List Host.Cell) c => Mem.set l (m.rekey c.1) c.2) there
    badUnits := s.badUnits.filter (fun b => !(decide (m.dst ≤ b.1) && decide (b.1 < m.dst + size)))
      ++ ((s.badUnits.filter (fun b => m.inSrc b.1) ++ s.lostUnits m).flatMap m.badUnits).eraseDups
    lastW := s.lastW ++ (s.lastW.filter (fun x => m.inSrc x.1)).map (fun x => (m.rekey x.1, x.2))
    waits := s.waits.map (fun (w : WaitRec) => { w with keys := w.keys.map m.rekey }) }

/-- A 1 KiB page that has the frame of a 2 MiB page follows it (R272, R281). -/
def State.followPage (s : State) (m : PageMove) (i : Nat) : State :=
  let off := (m.vpn * 2 ^ 21 + i * 1024) % 2 ^ 50
  match s.pairAddr m.die 1 off with
  | none => s
  | some p =>
    match s.leafAt m.die p with
    | none => s
    | some l =>
      if m.inSrc (hbmKey m.die l.tier l.frame) then
        let at' := m.rekey (hbmKey m.die l.tier l.frame)
        s.setLeaf m.die 1 off p
          ({ l with gran := m.gran, tier := at' % 2 ^ 42 / 2 ^ 41, frame := at' % 2 ^ 41 } : Leaf).word l.mask.toNat
      else s

/-- The leaf of a moved page names the new frame, and MIG is clear (R282). -/
def State.renameLeaf (s : State) (m : PageMove) (l : Leaf) : State :=
  s.setLeaf m.die m.cls (m.vpn * pageBytes m.cls % 2 ^ 50) m.pair
    ({ l with mig := false, gran := m.gran, tier := m.dst % 2 ^ 42 / 2 ^ 41, frame := m.dst % 2 ^ 41 } : Leaf).word l.mask.toNat

/-- A page moved: its contents, and the 1 KiB pages that have its frame, their own moves included. -/
def State.movePage (s : State) (m : PageMove) : State :=
  let follow := fun (x : PageMove) => if x.die = m.die ∧ x.cls = 1 then { x with src := m.rekey x.src } else x
  if m.cls = 0 then
    (List.range 2048).foldl (fun (s : State) i => s.followPage m i) { s.copyFrame m with moves := s.moves.map follow }
  else s.copyFrame m

/-- SWITCH (R282): the leaf names the new frame, and the stalled writes go there. -/
def State.switchPage (s : State) (m : PageMove) : State :=
  match s.leafAt m.die m.pair with
  | none => s
  | some l => (s.movePage m).renameLeaf m l

/-- MIGRATION_PHASE_END (R282, R283): the phase of a move ends. Pick 0 is its place; pick 1 is 1 where the
destination frame proved faulty during the copy, and the move is abandoned. -/
def execMigrationPhaseEnd (s : State) : Host.Outcome State Fault Refusal :=
  match s.moves[s.arg 0]? with
  | none => .next s
  | some m =>
    let gone := { s with moves := s.moves.eraseIdx (s.arg 0) }
    let into := fun (p : MovePhase) (marked : List Nat) => { s with moves := s.moves.set (s.arg 0) { m with phase := p, marked := marked } }
    if s.arg 1 = 1 then
      match s.leafAt m.die m.pair with
      | some l =>
        .next ({ gone with retired := m.dst :: gone.retired }.setLeaf m.die m.cls (m.vpn * pageBytes m.cls % 2 ^ 50) m.pair
          ({ l with mig := false } : Leaf).word l.mask.toNat)
      | none => .next gone
    else
      match m.phase with
      | .copy => .next (if m.marked.length ≤ 512 then into .final m.marked else into (.recopy 1) [])
      | .recopy n =>
        .next (if m.marked.length ≤ 512 ∨ 16 ≤ n then into .final m.marked else into (.recopy (n + 1)) [])
      | .final => .next (gone.switchPage m)

/-! ### DRAM (R277 to R280, R417, R418) -/

/-- Positions and values, two by two. -/
def pairsOf : List Nat → List (Nat × Nat)
  | p :: v :: l => (p, v) :: pairsOf l
  | _ => []

/-- The error of a codeword of a granule (R279, R280): at symbol `p` the bits `v`, for each pair. -/
def errorWord (gran : Nat) (l : List (Nat × Nat)) : List Nat :=
  let c := granCode gran
  (List.range c.n).map (fun j => ((l.filter (fun x => x.1 == j)).map (fun x => x.2 % 2 ^ c.bits)).foldl (· ^^^ ·) 0)

/-- A corrected codeword counted at the frame of a page (R418): at 8, the frame is retired, and its page moves to another. -/
def State.countFrame (s : State) (frame cls a : Nat) (l : Leaf) : State :=
  let n := (match s.frameErrs.find? (fun x => x.1 == frame) with | some x => x.2 | none => 0) + 1
  let s1 := { s with frameErrs := (frame, n) :: s.frameErrs.filter (fun x => x.1 != frame) }
  if n = 8 then { s1 with retired := frame :: s1.retired }.startMove cls a l.gran l.tier else s1

/-- Whether a decoder finds an error of a codeword and corrects it (R279, R280, R418): up to 2 bad symbols of a G32 codeword, up
to 16 of a G256 one, or what exactly one of its four pseudo-channels explains. -/
def corrects (gran : Nat) (e : List Nat) : Bool :=
  let bad := (e.filter (fun x => x != 0)).length
  if gran < 3 then decide (bad ≤ 2) else decide (bad ≤ 16) || decodeError gran ((granCode gran).syndromes e) == some e

/-- PSEUDO_CHANNEL_LOSS (R277 to R280, R417, R418). Where pick 0 is 0, it is what the next decode of the codeword of an address
finds: pick 1 is the address, the picks after it are the symbols in error and what they are changed by, two by two; beyond the
code's reach the decoder gives up, or takes the word for another one, whose data it writes back. Where pick 0 is 1, a whole
pseudo-channel is lost, for good: picks 1 to 3 are the die, the tier and its number. -/
def execPseudoChannelLoss (s : State) : Host.Outcome State Fault Refusal :=
  let a := s.arg 1
  if s.arg 0 = 1 then
    let c := (s.arg 1 % 4, s.arg 2 % 2, s.arg 3)
    .next { s with lost := if s.lost.contains c then s.lost else s.lost ++ [c] }
  else
    match s.leaf (s.ownerClass a) a with
    | none => .next s
    | some l =>
      let cls := s.ownerClass a
      let k := l.key (s.die (ownerOf a)).startMap cls a
      let size := 32 * 2 ^ l.gran
      let frame := k / pageBytes cls * pageBytes cls
      let e := errorWord l.gran (pairsOf (s.pick.drop 2))
      if corrects l.gran e then .next (s.countFrame frame cls a l)
      else
        match decodeError l.gran ((granCode l.gran).syndromes e) with
        | some f =>
          let n := codeBytes l.gran
          let b := k / n * n
          let wrong := symbolValue l.gran ((List.zipWith (· ^^^ ·) e f).take (dataSymbols l.gran 0).length)
          .next ({ s with hbm := Mem.write s.hbm b n (Mem.read s.hbm b n ^^^ wrong) }.countFrame frame cls a l)
        | none =>
          let u := (k / size * size, size)
          .next { s with badUnits := if s.badUnits.contains u then s.badUnits else s.badUnits ++ [u] }

/-! ### Containment (R419 to R422) -/

/-- The doubleword of a rectangle (R111). -/
def RectD.word (r : RectD) : Nat := r.kind * 2 ^ 32 + r.h * 2 ^ 24 + r.w * 2 ^ 16 + r.y0 * 2 ^ 8 + r.x0

/-- A core's own cluster as a rectangle (R111). -/
def clusterRect (core : Nat) : RectD :=
  { h := 8, w := 8, y0 := core / 64 / 8 * 8, x0 := core % 64 / 8 * 8 }

/-- The containment rectangle of a launch that holds a core (R111, R419). -/
def Launch.rectOf (l : Launch) (core : Nat) : RectD := (l.m.rects.find? (fun r => r.has core)).getD (clusterRect core)

/-- Whether a launch has a team or a host core on a core. -/
def State.worksOn (s : State) (l : Launch) (core : Nat) : Bool :=
  s.holds.any (fun h => h.launch == l.id && h.core == core) || s.areas.any (fun a => a.launch == l.id && a.core == core)

/-- The rectangles contained for a failing core (R419). -/
def State.containRects (s : State) (core : Nat) : List RectD :=
  let rs := ((s.launches.filter (fun l => s.worksOn l core)).map (fun l => l.rectOf core)).eraseDups
  if rs.isEmpty then [clusterRect core] else rs

/-- Whether a core lies in a list of rectangles. -/
def inRects (rs : List RectD) (core : Nat) : Bool := rs.any (fun r => r.has core)

/-- A forward toward a contained core is stopped: PEER_LOST at its FWD or VFWD, which has changed nothing (R154, R394). -/
def State.nackFwd (s : State) (f : Fwd) : State :=
  (s.onUid f.sender (fun u => f.cell.toList.foldl Strand.refill u)).failWait f.sender Cause.peerLost
    (BitVec.ofNat 64 ((f.from' / 4 + 2) % 4 * 4 + f.slot))

/-- An item or token on its way out of a fenced rectangle is lost (R154): its channel is as before it was sent, so that what the
device places follows what has landed (R386). -/
def State.unsendItem (s : State) (x : PipeItem) : State :=
  let c := s.channel x.launch x.p x.i
  s.setChannel { c with sent := c.sent - 1, credits := c.credits + 1, token := c.token && x.kind == 0 }

/-- What a fence stops (R151, R154): messages and records that have not left a core inside, accesses of sibling scratchpads by the
strands `us` inside, stores and atomics of theirs that no owner has seen, pipe items from a core inside or toward one, and
multicast packets at a router inside or toward a core there. -/
def State.stopTraffic (s : State) (rs : List RectD) (us : List Nat) : State :=
  let out := fun (x : PipeItem) => x.strand != 0 && inRects rs x.core
  let toward := fun (x : PipeItem) =>
    match s.pipe? x.launch x.p with
    | some d => (s.teamAt x.launch d.consumer x.i).any (fun h => inRects rs h.core)
    | none => false
  let s1 := (s.pipeItems.filter out).foldl (fun (s : State) x => s.unsendItem x) s
  let cut := fun (m : Mcast) => { m with dests := m.dests.filter (fun c => !inRects rs c) }
  { s1 with
    msgs := s.msgs.filter (fun m => !(m.stage == .queued && inRects rs m.core))
    enqs := s.enqs.filter (fun e => !(inRects rs e.core && e.strand != 0 && !s.releaseReady e.strand e.uid e.scope e.core))
    nops := s.nops.filter (fun n => !us.contains n.strand)
    stores := s.stores.filter (fun x => !(inRects rs x.core && x.stage == .issued && x.arr == 0))
    pipeItems := s.pipeItems.filter (fun x => !out x && !toward x)
    mcasts := ((s.mcasts.filter (fun m => !inRects rs m.router)).map cut).filter (fun m => !m.dests.isEmpty) }

/-- A boot strand that is stopped before it has exited: step 6 of its die's start cannot pass (R262). -/
def State.loseBoot (s : State) (t : Strand) : State :=
  if t.kind = .boot then s.onDie (dieOf t.core) (fun d => { d with bootLost := true }) else s

/-- The fence and the stop of a containment for failing cores (R420 steps 1 and 2). -/
def State.contain (s : State) (cores : List Nat) : State :=
  let rs := (cores.flatMap s.containRects).eraseDups
  let ts := (s.all ++ s.saved.map (·.t)).filter (fun t => inRects rs t.core)
  let c : Contain :=
    { rects := rs, cores := cores,
      launches := ((s.launches.filter (fun l => (s.holds.any (fun h => h.launch == l.id && inRects rs h.core))
        || s.areas.any (fun a => a.launch == l.id && inRects rs a.core))).map (·.id)),
      running := ((ts.filter (·.isHandler)).map (·.entry)).eraseDups
      holders := ts.filter (fun t => t.cap.mode == .opened) }
  let s1 := ts.foldl (fun (s : State) t => (s.stopStrand t.uid).loseBoot t) (s.stopTraffic rs (ts.map (·.uid)))
  let about := fun (n : DroverNote) => (n.cause == Cause.uncorrectable || n.cause == Cause.twinMismatch)
    && (n.core :: n.core2.toList).all cores.contains
  let s2 := { s1 with
    fenced := s1.fenced ++ rs
    contains := s1.contains ++ [c]
    notes := s1.notes.filter (fun n => !about n)
    jobs := s1.jobs.filter (fun j => !inRects rs j.core)
    mxCmds := s1.mxCmds.filter (fun m => !inRects rs m.core)
    fwds := s1.fwds.filter (fun f => !inRects rs f.core)
    savedTiles := s1.savedTiles.filter (fun x => !inRects rs x.core)
    savedBufs := s1.savedBufs.filter (fun x => !inRects rs x.1) }
  let s3 := (s1.fwds.filter (fun f => inRects rs f.core)).foldl (fun (s : State) f => s.nackFwd f) s2
  (s3.samples.filter (fun x => inRects rs x.core)).foldl (fun (s : State) x => s.dropSample x) s3

/-- CONTAINMENT (R419, R420, R425): the rectangles of a failing core are fenced and their strands stop. Pick 0 is the core. It
is one whose error its drover core has been told of, or one of the first pair of a message that has failed twice, which is
contained with its partner; or, where pick 1 is 1, one that the drover core has decided on. -/
def execContainment (s : State) : Host.Outcome State Fault Refusal :=
  match s.notes.find? (fun n => (n.core == s.arg 0 || n.core2 == some (s.arg 0))
      && (n.cause == Cause.uncorrectable || n.cause == Cause.twinMismatch)) with
  | some n => .next (s.contain (n.core :: n.core2.toList))
  | none => if s.arg 1 == 1 then .next (s.contain [s.arg 0]) else .next s

/-- A core after a containment's reset (R420 step 4): the count of its uncorrectable errors goes on. -/
def Core.contained (c : Core) : Core := { id := c.id, uncorrected := c.uncorrected }

/-- The cores of a list of rectangles reset. -/
def State.resetCores (s : State) (rs : List RectD) : State :=
  { s with
    cores := s.cores.map (fun c => if inRects rs c.id then c.contained else c)
    spad := s.spad.filter (fun x => !inRects rs (x.1 / Config.spadBytes))
    icache := s.icache.filter (fun x => !inRects rs x.owner)
    sfu := s.sfu.filter (fun x => !inRects rs x.core)
    recs := s.recs.filter (fun x => !inRects rs x.core)
    rxq := s.rxq.filter (fun x => !inRects rs x.core)
    profiles := s.profiles.filter (fun x => !inRects rs x.1)
    softErrs := s.softErrs.filter (fun x => !inRects rs x.core)
    badWords := s.badWords.filter (fun x => !inRects rs x.core) }

/-- An actor with a record in a contained rectangle (R422). -/
def State.containActor (s : State) (c : Contain) (e : Entry) : State :=
  match s.classOf e.launch e.cls with
  | none => s
  | some d =>
    let run := e.st == .live && (c.running.contains e.uid || e.twin && e.running.isSome)
    s.rollbackReport d { e with fails := if run then 0 else e.fails } run.toNat

/-- A capsule that a contained strand held open is parked (R378), unless another has taken it meanwhile. -/
def State.parkContained (s : State) (t : Strand) : State :=
  let r := s.recOf t.cap.l
  if r.state = 1 ∧ r.ticket = t.cap.ticket
      ∧ r.holder / 2 ^ 45 = holderWord (s.logicalOf t.core) t.slot t.cap.viaCapa 0 / 2 ^ 45 then s.parkRecord t.cap.l 3
  else s

/-- A team on a contained core ends with code 3, whatever of it has yet to start (R421). -/
def State.containTeam (s : State) (c : Contain) (h : Hold) : State :=
  let rect := (c.rects.find? (fun r => r.has h.core)).getD (clusterRect h.core)
  let failing := (c.cores.find? (fun k => rect.has k)).getD (c.cores.headD 0)
  let rep : List Word := [BitVec.ofNat 64 h.team, 0x10, BitVec.ofNat 64 rect.word, BitVec.ofNat 64 (s.logicalOf failing)]
  (s.onHold h.core h.launch (fun x =>
    { x.strandEnded 3 [] with report := some (x.report.getD (0x0A, rep)) })).teamCheck h.core h.launch

/-- What containment leaves when the launches with work in its rectangle have ended (R416, R421): the fence goes,
and a core with a second error is retired. -/
def State.releaseContain (s : State) (c : Contain) : State :=
  if c.launches.isEmpty && c.resetDone then
    let s1 : State := { s with
      contains := s.contains.filter (fun x => x != c)
      fenced := c.rects.foldl (fun (l : List RectD) r => l.erase r) s.fenced }
    (c.cores.filter (fun k => 2 ≤ (s.core k).uncorrected)).foldl (fun (s : State) k => s.retireCore k) s1
  else s

/-- The effects of a containment once its cores are reset (R420 step 5): capsules are parked, teams end, and the actors fall back
to their last versions. -/
def State.account (s : State) (c : Contain) : State :=
  let inside := fun (e : Entry) => e.placed && (inRects c.rects e.core || e.twin && inRects c.rects e.core2)
  let s1 := c.holders.foldl (fun (s : State) t => s.parkContained t) s
  let s2 := (s1.holds.filter (fun h => inRects c.rects h.core)).foldl (fun (s : State) h => s.containTeam c h) s1
  let s3 := (s2.entries.filter inside).foldl (fun (s : State) e => s.containActor c e) s2
  { s3 with
    inq := s3.inq.filter (fun i => !inRects c.rects i.core)
    inqRets := s3.inqRets.filter (fun n => !inRects c.rects n) }

/-- CONTAINMENT_RESET_DONE (R420 steps 3 to 5): once the eviction write-backs that had read a record of the
rectangle are done, the cores are reset, and the drover core accounts for them. Pick 0 is the containment's place. -/
def execContainmentResetDone (s : State) : Host.Outcome State Fault Refusal :=
  match s.contains[s.arg 0]? with
  | none => .next s
  | some c =>
    let inside := fun (e : Entry) => e.placed && (inRects c.rects e.core || e.twin && inRects c.rects e.core2)
    let writing := fun (e : Entry) => match e.st with | .evicting (some _) => true | _ => false
    if c.resetDone || s.entries.any (fun e => inside e && writing e) then .next s
    else
      let c1 : Contain := { c with resetDone := true }
      let s1 := { s.resetCores c.rects with contains := s.contains.set (s.arg 0) c1 }
      .next ((s1.account c).releaseContain c1)

end Sys2Proof.Machine
end

