-- ==== Sys2Proof/Machine/Manifest.lean ====
section
/-! DEFINITION. The manifest (*Describing work*): its snapshot (R94), its fields, and its validation (R95 to
R111, R144, R271). Each rule is a check: the byte offset of the field it judges, and whether it holds; the
first that fails, in the order of R95, decides. -/

namespace Sys2Proof.Machine

/-! ### The snapshot -/

/-- An 8-byte unit of a manifest as the drover core of die 0 reads it (R94): none where it has no mapping, lacks R,
or is uncorrectable; in a window it reads what stands there (R274 step 0). DESIGN CHOICE (log entry 45): the class that the
firmware names for the read (R270) is that of the lease that holds the address, else 0. -/
def State.manifestUnit (s : State) (a : Nat) : Option Nat :=
  if inWindow a then some (s.windowRead a 8)
  else
  match s.keys (s.reqOwner a) .r a 8 with
  | .error _ => none
  | .ok ks => if s.uncorrectable ks then none else some (s.viewRead 0 a ks)

/-- The units of a manifest from unit `i` on, or the byte offset of the first that cannot be read. -/
def State.manifestUnits (s : State) (base i : Nat) : Nat → Except Nat (List Nat)
  | 0 => .ok []
  | n + 1 =>
    match s.manifestUnit (base + 8 * i) with
    | none => .error (8 * i)
    | some x =>
      match s.manifestUnits base (i + 1) n with
      | .error e => .error e
      | .ok t => .ok (x :: t)

/-- The `n` bytes at a byte offset, which lie in one unit. -/
def fieldAt (w : List Nat) (off n : Nat) : Nat := w.getD (off / 8) 0 / 256 ^ (off % 8) % 256 ^ n

/-- A field as a doubleword. -/
def wordAt (w : List Nat) (off : Nat) : Word := BitVec.ofNat 64 (fieldAt w off 8)

/-- A check: the byte offset of a field, and whether its rule holds. -/
abbrev Check := Nat × Bool

/-- The offset of the first check that fails. -/
def firstBad (cs : List Check) : Option Nat := (cs.find? (fun c => !c.2)).map (·.1)

/-- Reserved bytes (R5, R95): each must be 0. -/
def zeroBytes (w : List Nat) (off n : Nat) : List Check :=
  (List.range n).map (fun i => (off + i, fieldAt w (off + i) 1 == 0))

/-- A legal code address of a manifest field (R96, R99, R101): bit 0 and bits [63:48] are 0. -/
def codeOk (v : Nat) : Bool := v % 2 == 0 && decide (v < 2 ^ 48)

/-- Whether a number lies in a range, its ends included. -/
def between (lo v hi : Nat) : Bool := decide (lo ≤ v) && decide (v ≤ hi)

/-! ### Sections (R93, R98) -/

/-- The sections: the bytes of an entry, and the least and the greatest count. -/
def sections : List (Nat × Nat × Nat) :=
  [(64, 1, 16), (64, 0, 64), (16, 0, 64), (8, 0, 8), (16, 0, 1024), (16, 0, 256), (16, 0, 16), (8, 0, 16), (8, 0, 64)]

/-- TOTAL_SIZE. -/
def totalSize (w : List Nat) : Nat := fieldAt w 8 4

/-- OFFSET of a descriptor. -/
def secOff (w : List Nat) (i : Nat) : Nat := fieldAt w (0x40 + 8 * i) 4

/-- COUNT of a descriptor. -/
def secCount (w : List Nat) (i : Nat) : Nat := fieldAt w (0x44 + 8 * i) 2

/-- The bytes of a section. -/
def secBytes (w : List Nat) (i : Nat) : Nat := secCount w i * (sections.getD i (0, 0, 0)).1

/-- The byte offsets of a section's entries, as they stand: those that lie inside the manifest. -/
def entryOffs (w : List Nat) (i : Nat) : List Nat :=
  let size := (sections.getD i (0, 0, 0)).1
  ((List.range (secCount w i)).map (fun k => secOff w i + size * k)).filter (fun o => decide (o + size ≤ totalSize w))

/-- The checks of a descriptor. DESIGN CHOICE (log entry 8): of two sections that overlap, the later descriptor is reported. -/
def descChecks (w : List Nat) (i : Nat) : List Check :=
  let o := 0x40 + 8 * i
  let off := secOff w i
  let cnt := secCount w i
  let sp := sections.getD i (0, 0, 0)
  let fits := if cnt = 0 then off == 0
    else off % 64 == 0 && decide (0x100 ≤ off) && decide (off + secBytes w i ≤ totalSize w)
      && (List.range i).all (fun j => secCount w j == 0 || !overlap off (secBytes w i) (secOff w j) (secBytes w j))
  [(o, fits), (o + 4, between sp.2.1 cnt sp.2.2), (o + 6, fieldAt w (o + 6) 2 == 0)]

/-! ### Entries, field by field -/

/-- A lease entry (R109). -/
def leaseD (w : List Nat) (o : Nat) : LeaseD :=
  let b := fieldAt w o 8
  { base := b / 2 ^ 10 % 2 ^ 42 * 2 ^ 10, len := fieldAt w (o + 8) 8, gran := b / 2 ^ 56 % 4, tier := b / 2 ^ 58 % 2 }

/-- Whether some lease entry, as it stands, covers `n` bytes from an address (R95). -/
def inLease (w : List Nat) (a n : Nat) : Bool :=
  (entryOffs w 5).any (fun o => decide ((leaseD w o).base ≤ a) && decide (a + n ≤ (leaseD w o).base + (leaseD w o).len))

/-- A kernel entry (R99). -/
def kernelD (w : List Nat) (o : Nat) : KernelD :=
  { entry := wordAt w o, convoys := fieldAt w (o + 8) 2, teams := fieldAt w (o + 10) 1, strands := fieldAt w (o + 11) 1,
    spill := fieldAt w (o + 12) 2 * 64, frameBase := wordAt w (o + 0x10), frameStride := wordAt w (o + 0x18),
    args := (List.range 4).map (fun i => wordAt w (o + 0x20 + 8 * i)) }

/-- A class entry (R101). -/
def classD (w : List Nat) (o : Nat) : ClassD :=
  { cls := fieldAt w o 2, twin := fieldAt w (o + 2) 1 % 2 == 1, stateSize := fieldAt w (o + 4) 4,
    handler := wordAt w (o + 8), creator := wordAt w (o + 0x10), heapBase := fieldAt w (o + 0x18) 8,
    heapSize := fieldAt w (o + 0x20) 8, hostSet := wordAt w (o + 0x28), stateArea := fieldAt w (o + 0x30) 4 }

/-- A pipe entry (R103). -/
def pipeD (w : List Nat) (o : Nat) : PipeD :=
  { producer := fieldAt w o 1, consumer := fieldAt w (o + 1) 1, slots := fieldAt w (o + 2) 1,
    slotSize := fieldAt w (o + 3) 1, buf := fieldAt w (o + 4) 4 }

/-- The kernel mask of a caravan entry (R104). -/
def caravanMask (w : List Nat) (o : Nat) : Nat := fieldAt w o 2

/-- A tensor entry (R105). -/
def tensorD (w : List Nat) (o : Nat) : TensorD := { shape := fieldAt w o 8, audit := fieldAt w (o + 8) 8 }

/-- A queue entry (R110). -/
def queueEntry (w : List Nat) (o : Nat) : QueueD :=
  { q := fieldAt w o 1, scope := fieldAt w (o + 1) 1, ring := fieldAt w (o + 4) 4, ringBase := fieldAt w (o + 8) 8 }

/-- A route region or containment rectangle (R111). -/
def rectD (w : List Nat) (o : Nat) : RectD :=
  { x0 := fieldAt w o 1, y0 := fieldAt w (o + 1) 1, w := fieldAt w (o + 2) 1, h := fieldAt w (o + 3) 1,
    kind := fieldAt w (o + 4) 1 }

/-! ### Validation -/

/-- MAGIC, VERSION and TOTAL_SIZE, which are read first (R94, R96). -/
def magicChecks (w : List Nat) : List Check :=
  [(0, fieldAt w 0 4 == 0x4B4D4E46), (4, fieldAt w 4 2 == 1),
   (8, between 256 (totalSize w) 16777216 && totalSize w % 64 == 0)]

/-- A REGION value (R271): reserved bits 0; of a valid one, LOG2 from 21 to 50, no BASE bit below LOG2, and no overlap
with a valid one before it. -/
def regionOk (w : List Nat) (i : Nat) : Bool :=
  let r := fieldAt w (0x90 + 8 * i) 8
  let lg := fun (v : Nat) => v / 2 ^ 52 % 64
  let meets := fun (v : Nat) => v / 2 ^ 63 == 1
    && v % 2 ^ 52 / 2 ^ max (lg v) (lg r) == r % 2 ^ 52 / 2 ^ max (lg v) (lg r)
  r / 2 ^ 58 % 16 == 0 && r % 2 ^ 21 == 0
    && (r / 2 ^ 63 == 0 || between 21 (lg r) 50 && r % 2 ^ 52 % 2 ^ lg r == 0
      && (List.range i).all (fun j => !meets (fieldAt w (0x90 + 8 * j) 8)))

/-- The header (R96, R97, R98, R271). -/
def headerChecks (w : List Nat) : List Check :=
  let owner := fieldAt w 0x0E 2
  let drain := fieldAt w 0x18 8
  let image := fieldAt w 0x20 8
  let size := fieldAt w 0x28 4
  magicChecks w ++
  [(0x06, fieldAt w 6 2 / 8 == 0), (0x0C, decide (fieldAt w 0x0C 2 ≤ 4096)),
   (0x0E, owner == 0xFFFF || (entryOffs w 1).any (fun o => fieldAt w o 2 == owner)),
   (0x18, drain == 0 || between 1000 drain 1000000000), (0x20, image % 8 == 0 && (size != 0 || image == 0)),
   (0x28, decide (size ≤ 65472) && size % 8 == 0), (0x2C, fieldAt w 0x2C 4 % 1024 == 0
     && (fieldAt w 0x2C 4 != 0 || (entryOffs w 0).all (fun o => (kernelD w o).spill == 0))),
   (0x30, fieldAt w 0x30 8 % 1024 == 0), (0x38, codeOk (fieldAt w 0x38 8))] ++
  (List.range 9).flatMap (descChecks w) ++ [(0x88, fieldAt w 0x88 8 == 0)] ++
  (List.range 4).map (fun i => (0x90 + 8 * i, regionOk w i)) ++ zeroBytes w 0xB0 80

/-- A kernel entry (R99). -/
def kernelChecks (w : List Nat) (o : Nat) : List Check :=
  let k := kernelD w o
  [(o, codeOk k.entry.toNat), (o + 8, between 1 k.convoys 64), (o + 10, between 1 k.teams 64),
   (o + 11, between 1 k.strands 4),
   (o + 12, decide (k.spill ≤ 1024 * 64) && decide (k.strands * k.spill ≤ 131072))] ++ zeroBytes w (o + 14) 2

/-- The live cores of a class's set on a die (R102). -/
def hostCores (dead : List Nat) (d : ClassD) (die : Nat) : List Nat :=
  ((List.range 4096).filter (fun c => dieOf c == die && d.hostSet.getLsbD (clusterOf c))).filter (fun c => !dead.contains c)

/-- Whether a set of cores holds two that can form a twin pair (R172). -/
def pairAmong (l : List Nat) : Bool := l.any (fun a => l.any (fun b => twinApart a b))

/-- HOST_SET (R102): a cluster on each die; of a TWIN class, a twin pair on each. -/
def hostSetOk (dead : List Nat) (d : ClassD) : Bool :=
  (List.range 4).all (fun i => d.hostSet.toNat / 2 ^ (16 * i) % 65536 != 0
    && (!d.twin || pairAmong (hostCores dead d i)))

/-- A class entry (R101, R102). DESIGN CHOICE (log entry 8): a CLASS that occurs twice is reported at the later entry. -/
def classChecks (dead : List Nat) (w : List Nat) (o : Nat) : List Check :=
  let d := classD w o
  [(o, between 1 d.cls 0xFFFE && ((entryOffs w 1).filter (fun p => decide (p < o))).all (fun p => fieldAt w p 2 != d.cls)),
   (o + 2, fieldAt w (o + 2) 2 / 2 == 0), (o + 4, between 8 d.stateSize 65536 && d.stateSize % 8 == 0),
   (o + 8, codeOk d.handler.toNat), (o + 0x10, codeOk d.creator.toNat), (o + 0x18, d.heapBase % 2097152 == 0),
   (o + 0x20, d.heapSize != 0 && d.heapSize % 2097152 == 0 && inLease w d.heapBase d.heapSize),
   (o + 0x28, hostSetOk dead d), (o + 0x30, decide (d.stateSize ≤ d.stateArea) && d.stateArea % d.stateSize == 0)] ++
  zeroBytes w (o + 0x34) 12

/-- A pipe entry (R103, R464). -/
def pipeChecks (w : List Nat) (o : Nat) : List Check :=
  let p := pipeD w o
  let ks := (entryOffs w 0).map (kernelD w)
  let a := ks.getD p.producer { }
  let b := ks.getD p.consumer { }
  let both := (entryOffs w 3).any (fun c => (caravanMask w c).testBit p.producer && (caravanMask w c).testBit p.consumer)
  [(o, decide (p.producer < ks.length)),
   (o + 1, decide (p.consumer < ks.length) && p.consumer != p.producer && a.convoys == b.convoys && a.teams == b.teams && both),
   (o + 2, between 1 p.slots 64), (o + 3, between 8 p.slotSize 128 && p.slotSize % 8 == 0),
   (o + 4, p.buf % 128 == 0 && decide (p.buf + p.slots * p.slotSize + b.strands * b.spill ≤ Config.spadBytes))] ++
  zeroBytes w (o + 8) 8

/-- A caravan entry (R104): at least two of the launch's kernels, none in a caravan before it. DESIGN CHOICE (log entry 8): a kernel
of two caravans is reported at the later entry. -/
def caravanChecks (w : List Nat) (o : Nat) : List Check :=
  let m := caravanMask w o
  let own := (List.range 16).filter (fun k => m.testBit k)
  [(o, decide (2 ≤ own.length) && own.all (fun k => decide (k < secCount w 0))
     && ((entryOffs w 3).filter (fun p => decide (p < o))).all (fun p => own.all (fun k => !(caravanMask w p).testBit k))),
   (o + 2, fieldAt w o 8 / 65536 == 0)]

/-- A tensor entry (R105). -/
def tensorChecks (w : List Nat) (o : Nat) : List Check :=
  let t := tensorD w o
  [(o, t.shape % 64 == 0 && inLease w t.shape 1), (o + 8, t.audit == 0 || t.audit % 64 == 0 && inLease w t.audit 1)]

/-- A lease entry (R109). DESIGN CHOICE (log entry 8): of two that overlap, the later entry is reported. -/
def leaseChecks (w : List Nat) (o : Nat) : List Check :=
  let l := leaseD w o
  let b := fieldAt w o 8
  [(o, b / 2 ^ 59 == 0 && b / 2 ^ 52 % 16 == 0 && b % 1024 == 0), (o + 8, l.len != 0 && l.len % 1024 == 0),
   (o, ((entryOffs w 5).filter (fun p => decide (p < o))).all (fun p =>
     !overlap l.base l.len (leaseD w p).base (leaseD w p).len))]

/-- A queue entry (R110). DESIGN CHOICE (log entry 8): a QUEUE that occurs twice is reported at the later entry. -/
def queueChecks (w : List Nat) (o : Nat) : List Check :=
  let q := queueEntry w o
  [(o, decide (q.q ≤ 15) && ((entryOffs w 6).filter (fun p => decide (p < o))).all (fun p => fieldAt w p 1 != q.q)),
   (o + 1, between 2 q.scope 4)] ++ zeroBytes w (o + 2) 2 ++
  [(o + 4, (List.range 12).any (fun i => q.ring == 2 ^ (i + 5))),
   (o + 8, q.ringBase == 0 || q.ringBase % 64 == 0 && inLease w q.ringBase (64 * q.ring * 64))]

/-- Whether two rectangles share a core. -/
def RectD.meets (a b : RectD) : Bool := overlap a.x0 a.w b.x0 b.w && overlap a.y0 a.h b.y0 b.h

/-- Whether a rectangle lies within one die (R111). -/
def RectD.inDie (r : RectD) : Bool := r.x0 / 32 == (r.x0 + r.w - 1) / 32 && r.y0 / 32 == (r.y0 + r.h - 1) / 32

/-- The limits of a route shape (R144). -/
def RectD.shapeOk (r : RectD) : Bool :=
  if r.kind = 1 then decide (2 ≤ r.w) && decide (2 ≤ r.h) && r.h % 2 == 0
  else if r.kind = 3 then between 2 r.w 32 && between 2 r.h 32
  else true

/-- A rectangle of section `sec` (R111, R144). DESIGN CHOICE (log entry 8): of two that overlap, the later entry is reported. -/
def rectChecks (sec : Nat) (w : List Nat) (o : Nat) : List Check :=
  let r := rectD w o
  [(o, decide (r.x0 ≤ 63)), (o + 1, decide (r.y0 ≤ 63)), (o + 2, decide (1 ≤ r.w)), (o + 3, decide (1 ≤ r.h)),
   (o + 4, if sec = 7 then decide (r.kind ≤ 3) else r.kind == 0), (o + 5, fieldAt w o 8 / 2 ^ 40 == 0),
   (o, r.inDie && ((entryOffs w sec).filter (fun p => decide (p < o))).all (fun p => !r.meets (rectD w p))),
   (o + 4, sec != 7 || r.shapeOk)]

/-- Every check of a snapshot in the order of R95: the header, then the sections in index order, then each section's entries
in order. -/
def manifestChecks (dead : List Nat) (w : List Nat) : List Check :=
  headerChecks w ++ (entryOffs w 0).flatMap (kernelChecks w) ++ (entryOffs w 1).flatMap (classChecks dead w) ++
  (entryOffs w 2).flatMap (pipeChecks w) ++ (entryOffs w 3).flatMap (caravanChecks w) ++
  (entryOffs w 4).flatMap (tensorChecks w) ++ (entryOffs w 5).flatMap (leaseChecks w) ++
  (entryOffs w 6).flatMap (queueChecks w) ++ (entryOffs w 7).flatMap (rectChecks 7 w) ++
  (entryOffs w 8).flatMap (rectChecks 8 w)

/-- A snapshot, field by field. -/
def manifestD (w : List Nat) : Manifest :=
  let drain := fieldAt w 0x18 8
  { coresident := fieldAt w 6 1 % 2 == 1, priority := fieldAt w 6 1 / 2 % 4, joinCount := fieldAt w 0x0C 2,
    ownerClass := fieldAt w 0x0E 2, ownerKey := wordAt w 0x10, drainLimit := if drain = 0 then 2000000 else drain,
    paramImage := fieldAt w 0x20 8, paramSize := fieldAt w 0x28 4, overflowStride := fieldAt w 0x2C 4,
    overflowBase := wordAt w 0x30, trapVector := wordAt w 0x38,
    regions := (List.range 4).map (fun i => wordAt w (0x90 + 8 * i)),
    kernels := (entryOffs w 0).map (kernelD w), classes := (entryOffs w 1).map (classD w),
    pipes := (entryOffs w 2).map (pipeD w), caravans := (entryOffs w 3).map (caravanMask w),
    tensors := (entryOffs w 4).map (tensorD w), leases := (entryOffs w 5).map (leaseD w),
    queues := (entryOffs w 6).map (queueEntry w), routes := (entryOffs w 7).map (rectD w),
    rects := (entryOffs w 8).map (rectD w) }

/-- The manifest at an address, read and validated, or the byte offset that R94 or R95 refuses it at. -/
def State.readManifest (s : State) (base : Nat) : Except Nat Manifest :=
  match s.manifestUnits base 0 32 with
  | .error e => .error e
  | .ok h =>
    match firstBad (magicChecks h) with
    | some e => .error e
    | none =>
      match s.manifestUnits base 0 (totalSize h / 8) with
      | .error e => .error e
      | .ok w =>
        match firstBad (manifestChecks s.dead w) with
        | some e => .error e
        | none => .ok (manifestD w)

end Sys2Proof.Machine
end

