-- ==== Sys2Proof/Machine/Place.lean ====
section
/-! DEFINITION. Placing work (R126, R199, R463, R464): admission units, eligible cores, state areas and carve-outs,
the distribution algorithm, and what a placement does to the cores it takes. -/

namespace Sys2Proof.Machine

/-! ### Admission units (R104, R126) -/

/-- The convoys of a kernel. -/
def Manifest.convoysOf (m : Manifest) (k : Nat) : List (Nat × Nat) :=
  (List.range (m.kernels.getD k { }).convoys).map (fun c => (k, c))

/-- The caravan of a kernel, as its mask. -/
def Manifest.caravanOf (m : Manifest) (k : Nat) : Option Nat := m.caravans.find? (fun c => c.testBit k)

/-- The admission units of a launch, each its convoys in order: a caravan's stands at its lowest kernel. -/
def Manifest.units (m : Manifest) : List (List (Nat × Nat)) :=
  (List.range m.kernels.length).flatMap (fun k =>
    match m.caravanOf k with
    | none => (m.convoysOf k).map (fun c => [c])
    | some mask =>
      let ks := (List.range m.kernels.length).filter (fun i => mask.testBit i)
      if ks.head? = some k then [ks.flatMap m.convoysOf] else [])

/-! ### The holding map -/

/-- The cores of a cluster in logical order (R155). -/
def coresIn (c : Nat) : List Nat := (List.range 64).map (clusterCore c)

/-- Whether a core is eligible for a launch of a priority (R126); `run` asks for a cluster in RUN. -/
def State.eligible (s : State) (holds : List Hold) (id prio : Nat) (run : Bool) (core : Nat) : Bool :=
  !s.dead.contains core && (!run || (s.cluster (clusterOf core)).power == 0)
    && holds.all (fun h => h.core != core
      || h.launch != id && (s.launch? h.launch).all (fun l => !l.m.coresident && decide (l.m.priority < prio)))

/-- A hold whose core a team of launch `id` takes (R199). -/
def Hold.displace (now id : Nat) (h : Hold) : Hold :=
  { h with drained := some (h.drained.getD now), displacers := if h.displacers.contains id then h.displacers else id :: h.displacers }

/-- The teams of a convoy on the cores it takes, and the holding map with them (R126); none where no cluster has
enough eligible cores. -/
def State.placeConvoy (s : State) (id : Nat) (m : Manifest) (unit : Nat) (run : Bool) (kc : Nat × Nat)
    (holds : List Hold) : Option (List Hold) :=
  let kd := m.kernels.getD kc.1 { }
  let free := fun (c : Nat) => (coresIn c).filter (s.eligible holds id m.priority run)
  match (List.range 64).find? (fun c => decide (kd.teams ≤ (free c).length)) with
  | none => none
  | some c =>
    let mine := (free c).take kd.teams
    let team := fun (p : Nat × Nat) =>
      ({ core := p.1, launch := id, kernel := kc.1, convoy := kc.2, idx := p.2,
         team := m.teamsBefore kc.1 + kc.2 * kd.teams + p.2, unit := unit, cluster := c,
         toStart := List.range kd.strands } : Hold)
    some (holds.map (fun (h : Hold) => if mine.contains h.core then h.displace s.timeNs id else h)
      ++ mine.zipIdx.map team)

/-- The convoys of a unit placed one after the other. -/
def State.placeUnit (s : State) (id : Nat) (m : Manifest) (unit : Nat) (run : Bool) :
    List (Nat × Nat) → List Hold → Option (List Hold)
  | [], holds => some holds
  | x :: xs, holds =>
    match s.placeConvoy id m unit run x holds with
    | none => none
    | some hs => s.placeUnit id m unit run xs hs

/-- FitsEmpty (R126): whether a unit could be placed on the live cores with no other launch present. -/
def State.fitsEmpty (s : State) (id : Nat) (m : Manifest) (u : List (Nat × Nat)) : Bool :=
  (s.placeUnit id m 0 false u []).isSome

/-! ### State areas and carve-outs (R102, R464) -/

/-- The teams a core holds at this time: those not displaced, or, where there is none, those that are to come
back. -/
def topHolds (holds : List Hold) (core : Nat) : List Hold :=
  let mine := holds.filter (fun (h : Hold) => h.core == core)
  if mine.any (fun h => h.drained.isNone) then mine.filter (fun h => h.drained.isNone) else mine

/-- The carve-outs on a core: base and bytes (R464). -/
def State.carves (s : State) (holds : List Hold) (core : Nat) : List (Nat × Nat) :=
  (topHolds holds core).filterMap (fun h =>
    match s.kernelOf h.launch h.kernel with
    | some kd => if kd.spill = 0 then none else some (Config.spadBytes - kd.strands * kd.spill, kd.strands * kd.spill)
    | none => none)

/-- Whether two ranges of a scratchpad share a byte. -/
def spansMeet (a b : Nat × Nat) : Bool := overlap a.1 a.2 b.1 b.2

/-- The least multiple of 128 at which a state area overlaps nothing of a list (R464). -/
def areaBase (used : List (Nat × Nat)) (size : Nat) : Option Nat :=
  let tries := 0 :: used.map (fun u => ceilTo (u.1 + u.2) 128)
  (tries.filter (fun b => decide (b + size ≤ Config.spadBytes) && used.all (fun u => !spansMeet (b, size) u))).min?

/-- The state areas present on a core. -/
def areasOn (areas : List AreaD) (core : Nat) : List (Nat × Nat) :=
  (areas.filter (fun (a : AreaD) => a.core == core)).map (fun a => (a.base, a.size))

/-- The areas of a class placed on a list of cores (R464), with those already present. -/
def State.placeAreas (s : State) (id : Nat) (d : ClassD) : List Nat → List AreaD → Option (List AreaD)
  | [], l => some l
  | c :: cs, l =>
    match areaBase (areasOn l c ++ s.carves s.holds c) d.stateArea with
    | none => none
    | some b =>
      s.placeAreas id d cs (l ++ [{ core := c, launch := id, cls := d.cls, base := b, size := d.stateArea }])

/-- The areas of a launch's classes in class-entry order. -/
def State.placeClasses (s : State) (id : Nat) : List ClassD → List AreaD → Option (List AreaD)
  | [], l => some l
  | d :: ds, l =>
    match s.placeAreas id d ((List.range 4).flatMap (hostCores s.dead d)) l with
    | none => none
    | some l' => s.placeClasses id ds l'

/-- The sum of R102 on a core. -/
def State.coreSum (s : State) (areas : List AreaD) (holds : List Hold) (core : Nat) : Nat :=
  ((areasOn areas core).map (·.2)).sum + ((s.carves holds core).map (·.2)).sum

/-- AreasFit (R126): the state areas with those of the launch, if they can be placed and the sum of R102 holds. -/
def State.areasFit (s : State) (l : Launch) : Option (List AreaD) :=
  match s.placeClasses l.id l.m.classes s.areas with
  | none => none
  | some areas =>
    if areas.all (fun a => decide (s.coreSum areas s.holds a.core ≤ 196608)) then some areas else none

/-- The receive buffers of the pipes a team consumes (R103). -/
def State.bufsOf (s : State) (h : Hold) : List (Nat × Nat) :=
  match s.launch? h.launch with
  | some l => (l.m.pipes.filter (fun p => p.consumer == h.kernel)).map (fun p => (p.buf, p.slots * p.slotSize))
  | none => []

/-- Whether the reserved parts of a core keep R102 and R464. -/
def State.coreFits (s : State) (holds : List Hold) (core : Nat) : Bool :=
  let areas := areasOn s.areas core
  decide (s.coreSum s.areas holds core ≤ 196608)
    && (s.carves holds core).all (fun c => areas.all (fun a => !spansMeet a c))
    && ((topHolds holds core).flatMap s.bufsOf).all (fun b => areas.all (fun a => !spansMeet a b))

/-- Whether each class of a launch has a host core in RUN on each die (R126). -/
def State.hostsRun (s : State) (m : Manifest) : Bool :=
  m.classes.all (fun d => (List.range 4).all (fun i =>
    (hostCores s.dead d i).any (fun c => (s.cluster (clusterOf c)).power == 0)))

/-- StateFits (R126). -/
def State.stateFits (s : State) (m : Manifest) (holds : List Hold) : Bool :=
  holds.all (fun h => s.coreFits holds h.core) && s.hostsRun m

/-! ### The distribution algorithm (R126) -/

/-- Distribute (R126) over the units not yet considered: the holding map and the pending units, or the unit
with which the launch is refused. The launch and its areas stand in the state. -/
def State.distribute (s : State) (l : Launch) : List (Nat × List (Nat × Nat)) → List Hold → List Nat →
    Except Nat (List Hold × List Nat)
  | [], holds, pending => .ok (holds, pending)
  | u :: us, holds, pending =>
    if !s.fitsEmpty l.id l.m u.2 then .error u.1
    else if !pending.isEmpty then s.distribute l us holds (pending ++ [u.1])
    else
      match s.placeUnit l.id l.m u.1 true u.2 holds with
      | some trial =>
        if s.stateFits l.m trial then s.distribute l us trial pending
        else if l.m.coresident then .error u.1
        else s.distribute l us holds [u.1]
      | none => if l.m.coresident then .error u.1 else s.distribute l us holds [u.1]

/-- The units of a launch with their numbers. -/
def Manifest.numbered (m : Manifest) : List (Nat × List (Nat × Nat)) := m.units.zipIdx.map (fun p => (p.2, p.1))

/-! ### A placement -/

/-- Whether a core holds work of another live launch (R463). -/
def State.otherWork (s : State) (core id : Nat) : Bool :=
  s.holds.any (fun h => h.core == core && h.launch != id)
    || s.entries.any (fun e => e.launch != id && e.placed && (e.core == core || e.twin && e.core2 == core))
    || s.all.any (fun t => t.core == core && t.launch != id)
    || s.saved.any (fun v => v.t.core == core && v.t.launch != id)
    || s.jobs.any (fun j => j.core == core && j.launch != id)
    || s.mxCmds.any (fun c => c.core == core && c.launch != id)
    || s.samples.any (fun x => x.core == core && x.launch != id && (s.launch? x.launch).isSome)

/-- The audit LFSR a launch finds on a core (R306). -/
def State.seedOf (s : State) (core : Nat) : Nat :=
  let x := (s.die (dieOf core)).auditSeed.toNat % 2 ^ 32 ^^^ (s.logicalOf core % 4096)
  if x = 0 then 1 else x

/-- A launch places work on a core (R463): where no other has work there, the core's registers, tile table, job
identifiers, mailboxes and profile table are reset. -/
def State.placeWork (s : State) (id core : Nat) : State :=
  if s.otherWork core id then s
  else
    let s1 := (s.dropSamples core).onCore core (fun c =>
      { id := c.id, uncorrected := c.uncorrected, lfsr := s.seedOf core })
    { s1 with profiles := s1.profiles.filter (fun p => p.1 != core) }

/-- The REGION registers of a launch on a core (R63, R124). -/
def State.giveRegions (s : State) (l : Launch) (core : Nat) : State :=
  if s.regions.any (fun r => r.core == core && r.launch == l.id) then s
  else { s with regions := s.regions ++ [{ core := core, launch := l.id, regs := l.m.regions }] }

/-- A core prepared for a launch. -/
def State.prepareCore (s : State) (l : Launch) (core : Nat) : State := (s.placeWork l.id core).giveRegions l core

/-- Whether a hold belongs to a caravan's unit. -/
def State.inCaravan (s : State) (h : Hold) : Bool :=
  match s.launch? h.launch with
  | some l => (l.m.caravanOf h.kernel).isSome
  | none => false

/-- Teams placed (R126, R199): the teams of lower priority on their cores, and with a team of a caravan its whole
unit (R389), begin to drain; the cores are prepared; the launch uses their clusters (R110). -/
def State.placeTeams (s : State) (l : Launch) (new : List Hold) : State :=
  let cores := new.map (·.core)
  let hit := s.holds.filter (fun (h : Hold) => cores.contains h.core)
  let unitHit := fun (h : Hold) => s.inCaravan h && hit.any (fun x => x.launch == h.launch && x.unit == h.unit)
  let drop := fun (h : Hold) =>
    if cores.contains h.core || unitHit h then h.displace s.timeNs l.id else h
  let s1 := cores.foldl (fun (s : State) c => s.prepareCore l c) s
  { s1 with holds := s1.holds.map drop ++ new }.onLaunch l.id (fun x =>
    { x with clusters := (x.clusters ++ new.map (fun (h : Hold) => h.cluster)).eraseDups })

/-- The pending units of a launch tried again in order (R126). -/
def State.retryLaunch (s : State) (id : Nat) : Nat → State
  | 0 => s
  | n + 1 =>
    match s.launch? id with
    | none => s
    | some l =>
      match l.pending with
      | [] => s
      | u :: us =>
        if l.stage ≠ .live then s
        else
          match s.placeUnit id l.m u true (l.m.units.getD u []) s.holds with
          | none => s
          | some trial =>
            if s.stateFits l.m trial then
              State.retryLaunch ((s.placeTeams l (trial.filter (fun h => h.launch == id && h.unit == u))).onLaunch id
                (fun x => { x with pending := us })) id n
            else s

/-- The pending units of every launch tried again, in launch order (R126). -/
def State.retryPending (s : State) : State :=
  s.launches.foldl (fun (s : State) l => s.retryLaunch l.id l.pending.length) s

end Sys2Proof.Machine
end

