-- ==== Sys2Proof/Machine/Pages.lean ====
section
/-! DEFINITION. The pages of leases (R109, R272, R273, R275, R409, R446): how the drover cores of the dies map and
pin them, and how they let them go. -/

namespace Sys2Proof.Machine

/-- Whether a lease of another launch than `id` whose pages are mapped and not yet released meets a range of addresses. -/
def State.leasedElse (s : State) (id a n : Nat) : Bool :=
  s.launches.any (fun l => l.id != id && l.mapped && l.m.leases.any (fun e => overlap e.base e.len a n))

/-- Whether a page of another live launch would need the other class (R275): regions are whole 2 MiB pages, so the
launches are compared over the 2 MiB that hold the address. -/
def State.classClash (s : State) (id cls a : Nat) : Bool :=
  let block := a / 2 ^ 21 * 2 ^ 21
  s.launches.any (fun l => l.id != id && l.mapped && classIn l.m.regions a != cls
    && l.m.leases.any (fun e => overlap e.base e.len block (2 ^ 21)))

/-- The code addresses of a manifest (R409). -/
def Manifest.codeAddrs (m : Manifest) : List Nat :=
  m.kernels.map (fun k => k.entry.toNat) ++ m.classes.map (fun c => c.handler.toNat)
    ++ (m.trapVector.toNat :: m.classes.map (fun c => c.creator.toNat)).filter (fun a => a != 0)

/-- Whether a lease contains a code address of the manifest (R409). -/
def Manifest.hasCode (m : Manifest) (e : LeaseD) : Bool :=
  m.codeAddrs.any (fun a => decide (e.base ≤ a) && decide (a < e.base + e.len))

/-- Whether a page is a page of a lease that contains a code address, whichever lease of the manifest maps it (R409). -/
def Manifest.codePage (m : Manifest) (page n : Nat) : Bool :=
  m.leases.any (fun e => m.hasCode e && overlap e.base e.len page n)

/-- The page of an address made resident and pinned for a lease (R275, R409); none where that cannot be. DESIGN CHOICE (log entry
8): of two leases of one manifest that share a page, the later one's GRAN and TIER stand. -/
def State.mapPage (s0 : State) (id : Nat) (m : Manifest) (e : LeaseD) (a : Nat) : Option State :=
  let s := s0.mapOwn a 0
  let d := ownerOf a
  let cls := classIn m.regions a
  let page := a / pageBytes cls * pageBytes cls
  let code := m.codePage page (pageBytes cls)
  let leaf := fun (mig : Bool) (frame : Nat) => leafWord true (!code) code true mig e.gran e.tier frame
  if 2 ^ 52 ≤ a ∨ s.classClash id cls a = true then none
  else
    match s.pairFor d cls (a % 2 ^ 50) with
    | none => none
    | some p =>
      let put := fun (s : State) (v : Nat) => s.setLeaf d cls (a % 2 ^ 50) p.1 v (2 ^ 64 - 1)
      match p.2.leafFor d cls a p.1 with
      | none =>
        match p.2.newFrame d e.tier cls e.gran with
        | none => none
        | some f => some (put f.2 (leaf false f.1))
      | some l =>
        if l.gran = e.gran ∧ l.tier = e.tier then some (put p.2 (leaf l.mig l.frame))
        else if s.leasedElse id page (pageBytes cls) then some p.2
        else
          match p.2.newFrame d e.tier cls e.gran with
          | none => none
          | some f =>
            let mv : PageMove :=
              { die := d, cls := cls, vpn := a / pageBytes cls, pair := p.1, src := hbmKey d l.tier l.frame,
                dst := hbmKey d e.tier f.1, gran := e.gran }
            some (put { f.2.movePage mv with moves := f.2.moves.filter (fun x => x.pair != p.1 || x.die != d) } (leaf false f.1))

/-- The address after the page of a class that holds one. -/
def nextPage (cls a : Nat) : Nat := (a / pageBytes cls + 1) * pageBytes cls

/-- The pages of a lease from an address on (R275). -/
def State.mapPages (s : State) (id : Nat) (m : Manifest) (e : LeaseD) (a : Nat) : Nat → Option State
  | 0 => some s
  | n + 1 =>
    if e.base + e.len ≤ a then some s
    else
      match s.mapPage id m e a with
      | none => none
      | some s' => s'.mapPages id m e (nextPage (classIn m.regions a) a) n

/-- The leases of a launch made resident, or the index of the first that cannot be (R121). -/
def State.mapLeases (s : State) (id : Nat) (m : Manifest) (i : Nat) : List LeaseD → Except Nat State
  | [] => .ok s
  | e :: es =>
    match s.mapPages id m e e.base (e.len / 1024) with
    | none => .error i
    | some s' => s'.mapLeases id m (i + 1) es

/-- PIN of a page cleared, where no other live launch leases it (R446). -/
def State.unpinPage (s : State) (id cls a : Nat) : State :=
  let d := ownerOf a
  let page := a / pageBytes cls * pageBytes cls
  if s.leasedElse id page (pageBytes cls) then s
  else
    match s.pairAddr d cls (a % 2 ^ 50) with
    | none => s
    | some p =>
      match s.leafAt d p with
      | none => s
      | some l => s.setLeaf d cls (a % 2 ^ 50) p ({ l with pin := false } : Leaf).word l.mask.toNat

/-- PIN of the pages of a lease cleared from an address on. -/
def State.unpinPages (s : State) (id : Nat) (m : Manifest) (e : LeaseD) (a : Nat) : Nat → State
  | 0 => s
  | n + 1 =>
    if e.base + e.len ≤ a then s
    else (s.unpinPage id (classIn m.regions a) a).unpinPages id m e (nextPage (classIn m.regions a) a) n

/-- The leases of an ended launch released (R446). -/
def State.unpinLeases (s : State) (l : Launch) : State :=
  l.m.leases.foldl (fun (s : State) e => s.unpinPages l.id l.m e e.base (e.len / 1024)) s

end Sys2Proof.Machine
end

