-- ==== Sys2Proof/Machine/Launch.lean ====
section
/-! DEFINITION. Launches from their command to their end: events (R120), the stages of a launch (R124, R390, R391),
the start of teams (R127, R100), END (R128, R443), and the retirement of a launch (R442 to R447). -/

namespace Sys2Proof.Machine

/-! ### Events (R120) -/

/-- Entries of the device's event buffer (R120). -/
def eventRoom : Nat := 256

/-- An event raised (R120); `intr` is the interrupt that follows it (R129). DESIGN CHOICE (log entry 46): an event that is
raised while the buffer is full, of an agent that R120 does not stop, waits behind its 256 entries. -/
def State.event (s : State) (kind source tag status w1 : Nat) (detail : Word) (intr : List Word) : State :=
  let w0 : Word := BitVec.ofNat 64 (status * 2 ^ 32 + tag % 65536 * 2 ^ 16 + source * 2 ^ 8 + kind)
  { s with link := { s.link with
      events := s.link.events ++ [w0 :: BitVec.ofNat 64 w1 :: detail :: BitVec.ofNat 64 (s.timeNs % 2 ^ 48) :: intr] } }

/-- A COMPLETION event (R120, R121). -/
def State.completion (s : State) (source tag status w1 : Nat) (detail : Word) : State :=
  s.event 1 source tag status w1 detail []

/-- The head of the broadcast sequence and the state without it (R117): none while a start stage of a launch has
not completed (R128), or while the event buffer is full (R120). -/
def State.nextItem (s : State) : Option (Item × State) :=
  if s.launches.any (fun l => l.stage == .leases) || decide (eventRoom ≤ s.link.events.length) then none
  else
    match s.link.items with
    | [] => none
    | i :: is => some (i, { s with link := { s.link with items := is } })

/-! ### LAUNCH (R390, R391) -/

/-- LAUNCH (R390): the checks at issue; then, once its release at package scope is complete, the command enters the
broadcast sequence. -/
def execLaunch (x : AB) (s : State) : Host.Outcome State Fault Refusal :=
  issue s { fields := [.s x.a x.pa 14, .s x.b x.pb 21], mem := true } (fun s' =>
    let a := s.cur.val x.a
    let b := s.cur.val x.b
    if a.toNat % 256 ≠ 0 then trap s Cause.misaligned a
    else if b ≠ 0 ∧ s.badHandle s.cur.launch b.toNat = true then trap s Cause.protection b
    else if !s.releaseReady s.cur.uid s.nextUid 4 s.cur.core then again s 0
    else
      finish (s'.broadcast (16 + dieOf s.cur.core) 0 0
        (.childLaunch a.toNat (if b = 0 then none else some b) s.cur.launch) (s.die (dieOf s.cur.core)).clock) 4
        (fun t => { t with wait := { } }))

/-- The counter message of a child's end or refusal (R391, R115), with the clock of what the child releases. -/
def State.childDone (s : State) (die parent : Nat) (handle : Option Word) (clock : List Nat) : State :=
  match handle with
  | none => s
  | some h =>
    let m : Msg :=
      { uid := s.nextUid, launch := parent, die := die, core := droverCore die, stage := .queued, clock := clock
        w := [counterHead 0xFFFF, BitVec.ofNat 64 ((s.die die).reportSeq % 65536 * 2 ^ 48 + s.timeNs % 2 ^ 48), h, 1,
          0, 0, 0, 0] }
    (({ s with msgs := s.msgs ++ [m] }).fresh).onDie die (fun d => { d with reportSeq := d.reportSeq + 1 })

/-- The clock of what the agents of a launch have written (R391, R444 step 2): that of the dies it had cores on, and of what
these have yet to apply. -/
def State.launchClock (s : State) (l : Launch) : List Nat :=
  let ds := ((l.pastHolds.map (·.core) ++ (s.areas.filter (fun a => a.launch == l.id)).map (·.core)).map dieOf).eraseDups
  (ds.map (fun d => (s.die d).clock) ++ (s.behind.filter (fun b => ds.contains b.die)).map (·.clock)).foldl joinClock []

/-- A device-launched child that declares actor classes lives on when every team of it has ended: its counter message is sent then
(R391). -/
def State.teamsDone (s : State) (id : Nat) : State :=
  match s.launch? id with
  | none => s
  | some l =>
    if l.source < 16 || l.counted || l.m.classes.isEmpty || !l.pending.isEmpty || l.endedTeams.length != l.m.teamCount then s
    else (s.onLaunch id (fun x => { x with counted := true })).childDone (l.source - 16) l.parent l.counter (s.launchClock l)

/-- TEAM_END (R441): the item at the head of the sequence, a team's end, is applied; pending units are tried again
(R126). -/
def execTeamEnd (s : State) : Host.Outcome State Fault Refusal :=
  match s.nextItem with
  | none => .next s
  | some p =>
    match p.1.kind with
    | .teamEnd core team code => .next ((p.2.applyTeamEnd core p.1.launch team code).teamsDone p.1.launch).retryPending
    | _ => .next s

/-- A launch refused (R124, R391): its COMPLETION; of a child, the report to the owner of the launch that launched it,
and its counter message. -/
def State.refuse (s : State) (l : Launch) (status : Nat) (detail : Word) : State :=
  let s1 := s.completion l.source l.tag status 0 detail
  if l.source < 16 then s1
  else
    (s1.report (l.source - 16) l.parent 8 [BitVec.ofNat 64 l.addr, BitVec.ofNat 64 status]).childDone (l.source - 16)
      l.parent l.counter []

/-- The lowest free launch slot (R188). -/
def State.freeSlot (s : State) : Nat :=
  ((List.range Config.launchSlots).find? (fun n => s.launches.all (fun l => l.stage == .over || l.slot != n))).getD 0

/-- A launch as its command gives it, or none of another item. -/
def Item.launch? (i : Item) : Option Launch :=
  match i.kind with
  | .launch a v t => some { source := i.source, tag := i.tag, seqNo := i.seq, addr := a, vector := v, token := t, clock := i.clock }
  | .childLaunch a c p => some { source := i.source, seqNo := i.seq, addr := a, counter := c, parent := p, clock := i.clock }
  | _ => none

/-- Stages 1 to 4 of a launch (R124): its manifest is read and validated and its units are distributed; then its
leases are to be made resident. -/
def State.beginLaunch (s : State) (l0 : Launch) : State :=
  if Config.launchSlots ≤ (s.launches.filter (fun l => l.stage != .over)).length then s.refuse l0 7 0
  else
    match s.readManifest l0.addr with
    | .error off => s.refuse l0 1 (BitVec.ofNat 64 off)
    | .ok m =>
      let l : Launch := { l0 with id := s.link.launches + 1, slot := s.freeSlot, m := m }
      let s1 := { s with launches := s.launches ++ [l] }
      match s1.areasFit l with
      | none => s.refuse l0 2 0xFFFFFFFF
      | some areas =>
        match State.distribute { s1 with areas := areas } l m.numbered s1.holds [] with
        | .error u => s.refuse l0 2 (BitVec.ofNat 64 u)
        | .ok r =>
          s1.onLaunch l.id (fun x =>
            { x with
              plan := r.1.filter (fun h => h.launch == l.id), pending := r.2
              areaPlan := areas.filter (fun a => a.launch == l.id) })

/-- LAUNCH_COMMAND (R124, R334, R391): the launch at the head of the sequence runs its stages up to its leases, once die 0 has
applied what was released with its command. -/
def execLaunchCommand (s : State) : Host.Outcome State Fault Refusal :=
  match s.nextItem with
  | none => .next s
  | some p =>
    match p.1.launch? with
    | some l => .next (if s.covers 0 l.clock then p.2.beginLaunch l else s)
    | none => .next s

/-! ### How an end begins (R443) -/

/-- Whether a strand of a launch is in a slot or saved out of one. -/
def State.hasStrands (s : State) (id : Nat) : Bool :=
  s.all.any (fun t => t.launch == id && t.mode == .launch) || s.saved.any (fun v => v.t.launch == id)

/-- Whether an entry is ACTIVATING (R163). -/
def Entry.activating (e : Entry) : Bool :=
  match e.st with
  | .waiting => true
  | .probing => true
  | .fetched => true
  | .creating => true
  | _ => false

/-- What an ending launch gives up of its actors (R443 steps 4 and 5): the messages held and queued are discarded, and the
credits of these go back (R163); activations are abandoned once no creator of theirs runs, and a thermal trip leaves out the
eviction step (R442). A twin's message counts once, and not while one of its runs is under way. -/
def State.endClean (s : State) (l : Launch) : State :=
  let mine := fun (u : Nat) => s.entries.any (fun e => e.uid == u && e.launch == l.id)
  let gone' := s.inq.filter (fun i => mine i.entry && i.msg.isSome)
  let runs := fun (u : Nat) => s.entries.any (fun e => e.running.any (fun m => m.uid == u))
  let queued := (((gone'.filterMap (·.msg)).map (·.uid)).eraseDups.filter (fun u => !runs u)).length
  let held := ((s.entries.filter (fun e => e.launch == l.id)).map (fun e => e.allHeld.length)).sum
  let gone := fun (e : Entry) => e.launch == l.id && (e.activating && !s.handlerRuns e.uid e.core && !s.handlerRuns e.uid e.core2
    || l.thermal.isSome && !e.activating && !s.handlerRuns e.uid e.core && !s.handlerRuns e.uid e.core2)
  let lost := (s.entries.filter (fun e => gone e && e.activating)).length
  let final := fun (e : Entry) => if e.launch == l.id then { e with held := [], ring := [], victim := none, final := true } else e
  { s with
    inq := s.inq.filter (fun i => !mine i.entry)
    inqRets := s.inqRets ++ gone'.map (fun (i : InItem) => i.core)
    entries := (s.entries.filter (fun e => !gone e)).map final }.onLaunch l.id (fun x =>
      { x with discarded := x.discarded + queued + held, unsaved := x.unsaved + lost })

/-- A launch begins to end (R443 step 1): no unit of it is pending, no continuation of it starts, and its actors'
messages are discarded. -/
def State.endLaunch (s : State) (id : Nat) : State :=
  let s1 := s.onLaunch id (fun x => { x with stage := .ending, endAt := s.timeNs, pending := [] })
  let cores := (s1.holds.filter (fun h => h.launch == id && !h.toStart.isEmpty)).map (fun (h : Hold) => h.core)
  let s2 := { s1 with holds := s1.holds.map (fun h => if h.launch == id then { h with toStart := [] } else h) }
  let s3 := cores.foldl (fun (s : State) c => s.teamCheck c id) s2
  match s3.launch? id with
  | some l => s3.endClean l
  | none => s3

/-! ### Preparation (R124) -/

/-- The parameter image as a launch copies it (R112): a unit that cannot be read is a free value. -/
def State.paramImage (s : State) (base i : Nat) : Nat → List Host.Cell → List Host.Cell
  | 0, l => l
  | n + 1, l =>
    let v := (s.manifestUnit (base + 8 * i)).getD (Config.freeWord (s.tick + i)).toNat
    s.paramImage base (i + 1) n (Mem.write l (8 * i) 8 v)

/-- The preparation and the start of a launch whose leases are resident (R124 stages 6 and 7); one that a thermal trip
has met ends (R135). -/
def State.prepare (s : State) (l : Launch) : State :=
  let live := fun (x : Launch) =>
    { x with
      stage := .live, plan := [], areaPlan := []
      params := s.paramImage l.m.paramImage 0 (l.m.paramSize / 8) [] }
  let counters := (List.range l.m.joinCount).map (fun j => ({ launch := l.id, index := j } : Counter))
  let s1 : State := { s with
    areas := s.areas ++ l.areaPlan
    counters := s.counters ++ counters
    tick := s.tick + l.m.paramSize / 8
    link := { s.link with launches := l.id } }
  let s2 := ((l.areaPlan.map (fun (a : AreaD) => a.core)).eraseDups).foldl (fun (s : State) c => s.prepareCore l c)
    (s1.onLaunch l.id live)
  let s3 := (s2.placeTeams l l.plan).completion l.source l.tag 0 l.id (BitVec.ofNat 64 l.id)
  if l.thermal.isSome then s3.endLaunch l.id else s3

/-- LEASE_RESIDENCY (R124 stage 5, R275): the drover cores make a launch's pages resident, and it is prepared, or
refused with nothing of it left. Pick 0 is the launch. -/
def execLeaseResidency (s : State) : Host.Outcome State Fault Refusal :=
  match s.launch? (s.arg 0) with
  | none => .next s
  | some l =>
    if l.stage ≠ .leases then .next s
    else
      match s.mapLeases l.id l.m 0 l.m.leases with
      | .error i =>
        .next (State.refuse { s with launches := s.launches.filter (fun x => x.id != l.id) } l 3 (BitVec.ofNat 64 i))
      | .ok s1 => .next (s1.prepare l)

/-! ### Teams start (R100, R127) -/

/-- The continuation record of a launch's strand (R100). -/
def launchRecord (kd : KernelD) (n slot : Nat) : List Word :=
  [kd.entry, kd.frameBase + BitVec.ofNat 64 (n * kd.strands + slot) * kd.frameStride] ++ kd.args
    ++ [BitVec.ofNat 64 n, BitVec.ofNat 64 slot]

/-- Whether a displaced strand has not left a core: it is in a slot, or swapped out of one (R199). -/
def State.displacedThere (s : State) (h : Hold) : Bool :=
  let there := fun (t : Strand) => t.core == h.core && t.launch != h.launch
    && (s.holdOf h.core t.launch).any (fun x => x.drained.isSome)
  s.all.any there || s.saved.any (fun v => v.swap && there v.t)

/-- The slots of a team whose continuations may start (R187). -/
def State.startable (s : State) (h : Hold) : List Nat :=
  if h.ending.isSome then [] else h.toStart.filter (fun n => s.slotOpen h.core n h.launch)

/-- Whether a team may start: its core is up and free of ended teams, its displaced strands have left, and a slot is open. -/
def State.teamReady (s : State) (h : Hold) : Bool :=
  s.coreUp h.core && !s.octetFrozen h.core && s.itemApplied h.core h.launch && h.drained.isNone && !s.displacedThere h
    && !(s.startable h).isEmpty

/-- The receive buffers of a displaced team's pipes are kept (R389). -/
def State.saveBufs (s : State) (h : Hold) : State :=
  match s.launch? h.launch with
  | none => s
  | some l =>
    let mine := (l.m.pipes.zipIdx.filter (fun p => p.1.consumer == h.kernel)).map (fun p =>
      (h.core, h.launch, p.2, s.spadRead h.core p.1.buf (p.1.slots * p.1.slotSize)))
    { s with savedBufs := s.savedBufs.filter (fun b => !(b.1 == h.core && b.2.1 == h.launch)) ++ mine }

/-- The teams that a starting team has displaced are away from its core. -/
def State.sendAway (s : State) (h : Hold) : State :=
  let gone := s.holds.filter (fun x => x.core == h.core && x.launch != h.launch && x.drained.isSome && !x.away)
  let s1 := gone.foldl (fun (s : State) x => s.saveBufs x) s
  gone.foldl (fun (s : State) x => s.onHold x.core x.launch (fun y => { y with away := true })) s1

/-- The strands of a team that may start do so (R100, R187), and acquire what was released with the launch (R391). -/
def State.startTeam (s : State) (l : Launch) (h : Hold) : State :=
  let kd := l.m.kernels.getD h.kernel { }
  let slots := s.startable h
  let r := fun (n : Nat) => ({ w := launchRecord kd (s.teamIndex h) n, run := true, clock := l.clock } : QRec)
  let s1 := slots.foldl (fun (s : State) n => s.startRecord h.core n l h (r n)) s
  s1.onHold h.core h.launch (fun x =>
    { x with started := true, toStart := x.toStart.filter (fun n => !slots.contains n) })

/-- TEAM_START (R127): an admission unit starts, its teams together; afterwards, a strand whose slot another held
starts once it can. Pick 0 is the launch, pick 1 the unit. -/
def execTeamStart (s : State) : Host.Outcome State Fault Refusal :=
  match s.launch? (s.arg 0) with
  | none => .next s
  | some l =>
    let unit := s.holds.filter (fun h => h.launch == l.id && h.unit == s.arg 1 && !h.toStart.isEmpty)
    let first := unit.filter (fun h => !h.started)
    if l.stage ≠ .live ∨ unit.isEmpty = true then .next s
    else if first.isEmpty then
      .next ((unit.filter s.teamReady).foldl (fun (s : State) h => s.startTeam l h) s)
    else if first.all s.teamReady then
      let s1 := first.foldl (fun (s : State) h => s.sendAway h) s
      let s2 := if s.holds.any (fun h => h.launch == l.id && h.started) ∨ l.endedTeams ≠ [] then s1
        else s1.onLaunch l.id (fun x => { x with startTime := s.timeNs % 2 ^ 48 })
      .next (first.foldl (fun (s : State) h => s.startTeam l h) s2)
    else .next s

/-! ### MESSAGE (R119) -/

/-- MESSAGE_COMMAND (R119): the MESSAGE at the head of the sequence becomes a message of its launch, or is
discarded. -/
def execMessageCommand (s : State) : Host.Outcome State Fault Refusal :=
  match s.nextItem with
  | none => .next s
  | some p =>
    let i := p.1
    match i.kind with
    | .message cls sel key payload time seq =>
      let answer := p.2.completion i.source i.tag
      if (s.launch? i.launch).all (fun l => l.stage != .live) then .next (answer 5 i.launch 0)
      else if (s.classOf i.launch cls).isNone then .next (answer 6 i.launch (BitVec.ofNat 64 cls))
      else
        let m : Msg :=
          { uid := s.nextUid, launch := i.launch, core := 24576 + i.source, clock := i.clock
            w := [BitVec.ofNat 64 (2 ^ 49 + 0xFFFF * 2 ^ 32 + cls * 2 ^ 16 + sel),
              BitVec.ofNat 64 (seq % 65536 * 2 ^ 48 + time % 2 ^ 48), key] ++ payload }
        let s1 := answer 0 i.launch 0
        .next ({ s1 with msgs := s1.msgs ++ [{ m with stage := if s.leaves m then .away else .sent }] }).fresh
    | _ => .next s

/-! ### END (R128, R443) -/

/-- END_COMMAND (R443, R447): the END at the head of the sequence takes effect. -/
def execEndCommand (s : State) : Host.Outcome State Fault Refusal :=
  match s.nextItem with
  | none => .next s
  | some p =>
    match p.1.kind with
    | .endLaunch =>
      if (s.launch? p.1.launch).all (fun l => l.stage != .live) then
        .next (p.2.completion p.1.source p.1.tag 5 p.1.launch 0)
      else .next ((p.2.endLaunch p.1.launch).completion p.1.source p.1.tag 0 p.1.launch 0)
    | _ => .next s

/-- A strand away from its slot stops (R443 step 3). -/
def State.stopSaved (s : State) (t : Strand) : State :=
  let s1 := s.stopStrand t.uid
  if t.isHandler then (s1.handlerFails t).teamCheck t.core t.launch
  else (s1.onHold t.core t.launch (fun h => h.strandEnded 4 [])).teamCheck t.core t.launch

/-- The resident strands of a launch stop (R443 step 3): each at its next boundary, those out of their slots at
once. -/
def State.stopAll (s : State) (id : Nat) : State :=
  let away := (s.saved.filter (fun v => v.t.launch == id)).map (fun (v : Saved) => v.t)
  let s1 := away.foldl (fun (s : State) t => s.stopSaved t) s
  let stop := fun (t : Strand) => if t.live && t.launch == id && t.mode == .launch
    then { t with ending := some (t.ending.getD 4) } else t
  { s1 with cur := stop s1.cur, strands := s1.strands.map stop }

/-- END_DRAIN_LIMIT (R443 step 3): DRAIN_LIMIT has passed since the END, with no strand of the launch halted
(R431). Pick 0 is the launch. -/
def execEndDrainLimit (s : State) : Host.Outcome State Fault Refusal :=
  match s.launch? (s.arg 0) with
  | none => .next s
  | some l =>
    if l.stage = .ending ∧ l.endAt + l.m.drainLimit ≤ s.timeNs
        ∧ s.all.any (fun t => t.launch == l.id && t.run == RunState.halted) = false then .next (s.stopAll l.id)
    else .next s

/-! ### The end of a launch (R444 to R447) -/

/-- What retirement waits for (R444 steps 1 and 2): every job, posted store, element and pipe item of the launch is
done, and every write of it is at its owner, one to a sibling's scratchpad or of an audit engine included. -/
def State.settled (s : State) (id : Nat) : Bool :=
  !s.jobs.any (fun j => j.launch == id) && !s.mxCmds.any (fun c => c.launch == id)
    && !s.stores.any (fun x => x.launch == id || x.launches.contains id) && !s.nops.any (fun n => n.launch == id)
    && !s.auditAdds.any (fun x => x.launch == id)
    && !s.slices.any (fun x => x.launches.contains id) && !s.pipeItems.any (fun p => p.launch == id)
    && !s.pends.any (fun p => p.launch == id && !p.sup)

/-- Whether a record on its way is one of a launch's own, to a queue of its own in this package: it goes with the queue; another
launch's finds it gone, and is answered (R352). -/
def EnqMsg.ownOf (e : EnqMsg) (id : Nat) : Bool := e.launch == id && e.target == id && e.pkg.isNone && e.origin.isNone

/-- The records, continuations, counters, items and messages that an end discards (R444 step 3). -/
def State.leftovers (s : State) (id : Nat) : Nat :=
  ((s.queues.filter (fun q => q.launch == id)).map (fun q => q.hw.length + q.ring.length)).sum
    + (s.enqs.filter (fun e => e.ownOf id)).length
    + ((s.deqWaiters.filter (fun w => w.launch == id)).map (fun w => 1 + w.held.toList.length)).sum
    + (s.counters.filter (fun c => c.launch == id && c.armed)).length
    + ((s.channels.filter (fun c => c.launch == id)).map (fun c => c.landed.length)).sum
    + (s.msgs.filter (fun m => m.launch == id && !m.isItem && (m.isCounter || m.cls != 0xFFFF) && m.stage != .away)).length

/-- A containment no longer waits for a launch (R421, R446). -/
def State.leaveContains (s : State) (id : Nat) : State :=
  let less := fun (c : Contain) => { c with launches := c.launches.erase id }
  let s1 := { s with contains := s.contains.map less }
  s1.contains.foldl (fun (s : State) c => s.releaseContain c) s1

/-- Steps 3 to 6 of R444: what is left of the launch is discarded and counted, freed, and its leases are released; its
end item is broadcast. -/
def State.retire (s : State) (l : Launch) : State :=
  let id := l.id
  let s0 := (s.samples.filter (fun x => x.launch == id)).foldl (fun (s : State) x => s.dropSample x) s
  let s1 : State := { s0 with
    queues := s0.queues.filter (fun q => q.launch != id)
    enqs := s0.enqs.filter (fun e => !e.ownOf id)
    deqWaiters := s0.deqWaiters.filter (fun w => w.launch != id)
    counters := s0.counters.filter (fun c => c.launch != id)
    channels := s0.channels.filter (fun c => c.launch != id)
    pipeCredits := s0.pipeCredits.filter (fun c => c.1 != id)
    msgs := s0.msgs.filter (fun m => m.launch != id || m.stage == .away || !m.isItem && !m.isCounter && m.cls == 0xFFFF)
    regions := s0.regions.filter (fun r => r.launch != id)
    areas := s0.areas.filter (fun a => a.launch != id)
    savedTiles := s0.savedTiles.filter (fun x => x.launch != id)
    savedBufs := s0.savedBufs.filter (fun x => x.2.1 != id)
    deadlocks := s0.deadlocks.filter (fun x => x.1 != id) }
  let s2 := s1.onLaunch id (fun x => { x with stage := .over, discarded := x.discarded + s.leftovers id, clock := s.launchClock l })
  ((s2.unpinLeases l).leaveContains id).broadcast l.source 0 id .launchEnd

/-- DETAIL of a LAUNCH_ENDED event (R445); every count saturates. -/
def Launch.counts (l : Launch) : Word :=
  BitVec.ofNat 64 (min l.discarded (2 ^ 32 - 1) * 2 ^ 32 + min l.unsaved 65535 * 2 ^ 16 + min l.abnormal 65535)

/-- Steps 6 to 8 of R444: the end item is applied, pending units are tried again, and the event, with its interrupt
or the counter message of a child, follows. -/
def State.finishLaunch (s : State) (l : Launch) : State :=
  let s1 := State.retryPending { s with launches := s.launches.filter (fun x => x.id != l.id) }
  let intr := if l.source < 16 then [BitVec.ofNat 64 l.vector, l.token] else []
  let s2 := match l.thermal with
    | none => s1.event 2 l.source l.tag 0 l.id l.counts intr
    | some d => s1.event 2 l.source l.tag 9 (d * 2 ^ 32 + l.id) l.counts intr
  if l.source < 16 || l.counted then s2 else s2.childDone (l.source - 16) l.parent l.counter l.clock

/-- A launch that is ending goes one step on (R443 steps 4 to 6, R444): its activations are abandoned; with no strand
and no actor left, its teams end with code 4; with no team left and its work settled, it is retired. -/
def State.endStep (s : State) (l : Launch) : State :=
  let s1 := s.endClean l
  if s1.hasStrands l.id || s1.entries.any (fun e => e.launch == l.id) then s1
  else
    match s1.holds.filter (fun h => h.launch == l.id) with
    | [] => if s1.settled l.id then s1.retire l else s1
    | hs =>
      let stop := fun (s : State) (h : Hold) =>
        (s.onHold h.core l.id (fun x => { x with ended := true })).broadcast (16 + dieOf h.core) 0 l.id
          (.teamEnd h.core h.team 4)
      (hs.filter (fun h => !h.ended)).foldl stop s1

/-- LAUNCH_ENDED (R442 to R445): an ending launch goes on towards its end, and, at its end item, ends. Pick 0 is the
launch. -/
def execLaunchEnded (s : State) : Host.Outcome State Fault Refusal :=
  match s.launch? (s.arg 0) with
  | none => .next s
  | some l =>
    match l.stage with
    | .ending => .next (s.endStep l)
    | .over =>
      match s.nextItem with
      | some p => if p.1.kind = .launchEnd ∧ p.1.launch = l.id then .next (p.2.finishLaunch l) else .next s
      | none => .next s
    | _ => .next s

end Sys2Proof.Machine
end

