-- ==== Sys2Proof/Machine/Deadlock.lean ====
section
/-! DEFINITION. The wait-for table and its walk (R356 to R358). -/

namespace Sys2Proof.Machine

/-- Whom a blocked agent expects to signal it (R356): its launch, certain strands, or a unit that is no agent: a copy-engine
queue or a destination queue. -/
inductive Signaller where
  | launch
  | unit
  | strands (us : List Nat)
  deriving DecidableEq, Repr

/-- A blocked agent (R356): its number in the machine, its core and slot, its kind, its object, where the manual gives
the object a layout (R358), and its signaller. -/
structure Agent where
  id : Nat := 0
  core : Nat := 0
  slot : Nat := 0
  kind : Nat := 0
  obj : Option Word := none
  on : Signaller := .launch
  deriving DecidableEq, Repr

/-- The strands of a team, in slots and out of them. -/
def State.teamStrands (s : State) (launch k i : Nat) : List Nat :=
  match s.teamAt launch k i with
  | none => []
  | some h =>
    ((s.all ++ s.saved.map (fun (v : Saved) => v.t)).filter (fun t =>
      t.launch == launch && t.core == h.core && !t.isHandler)).map (fun (t : Strand) => t.uid)

/-- The strands that hold a capsule open. -/
def State.capHolders (s : State) (l : Nat) : List Nat :=
  ((s.all ++ s.saved.map (fun (v : Saved) => v.t)).filter (fun t => t.cap.mode == CapMode.opened && t.cap.l == l)).map
    (fun (t : Strand) => t.uid)

/-- The field of the local queue that the next instruction of a strand, an ENQ, finds full. -/
def State.enqBlocked (s : State) (t : Strand) : Option Nat :=
  let full := fun (a b : BitVec 6) =>
    let v := (t.val a).toNat
    let other := v / 2 ^ 15 % 2 == 1
    let own := !other || v / 2 ^ 16 % 256 == (s.die (dieOf t.core)).package
    let target := if other then (t.val b).toNat % 2 ^ 32 else t.launch
    if own && dieOf t.core == dieOfCluster (v / 16 % 64) && s.enqStalls t.core target (v % 16) (v / 16 % 64) then some (v % 16) else none
  match decode (fetchFor s t).halves with
  | .ok (.enq x) => full x.a x.b
  | .ok (.enqAck x) => if 64 ≤ t.ackPend.length then none else full x.a x.b
  | _ => none

/-- The strands on a slot, in it or saved out of it. -/
def State.slotStrands (s : State) (core slot : Nat) : List Nat :=
  match s.savedAt core slot with
  | some v => [v.t.uid]
  | none => (s.bySlot core slot).toList.map (fun (u : Strand) => u.uid)

/-- The producer that a stalled strand is blocked in: one in flight, or, of a saved strand, the one it executes again. -/
def State.blockingPend (s : State) (t : Strand) : Option Pend :=
  match (s.saved.find? (fun v => v.t.uid == t.uid)).bind (fun v => v.recv) with
  | some p => if s.recvReady p then none else some p
  | none =>
    s.pends.find? (fun p => p.strand == t.uid && t.stallIn.contains p.uid
      && (match p.op with | .precv _ _ => !s.recvReady p | .jwait _ => !s.recvReady p | .deq _ _ _ none => true | _ => false))

/-- The wait of a strand: at the engine, or, of one swapped out of it, the one it executes again and whose condition does not
hold (R341). -/
def State.waitOf (s : State) (t : Strand) : Option WaitRec :=
  match s.waits.find? (fun w => w.strand == t.uid) with
  | some w => if w.found.isNone then some w else none
  | none => ((s.saved.find? (fun v => v.t.uid == t.uid)).bind (fun v => v.wait)).filter (fun w => !w.holds (s.ownRead w.keys))

/-- What a strand is blocked in (R356): the kind, the object, and whom it expects to signal it. -/
def State.blockedIn (s : State) (t : Strand) : Option (Nat × Option Word × Signaller) :=
  let team := fun (p : Nat) (k : PipeD → Nat) => match s.holdOf t.core t.launch, s.pipe? t.launch p with
    | some h, some d => s.teamStrands t.launch (k d) (s.teamIndex h)
    | _, _ => []
  match t.wait.kind with
  | .sync =>
    match s.waitOf t, s.syncs.find? (fun q => q.strand == t.uid) with
    | some w, _ => some (1, some (BitVec.ofNat 64 w.addr), .launch)
    | none, some q => if q.arrived && q.answer.isNone then some (2, some (BitVec.ofNat 64 q.l), .strands (s.capHolders q.l)) else none
    | none, none => none
  | .psend =>
    if s.psendReady t then none
    else some (3, none, .strands (team t.wait.n (fun d => d.consumer)))
  | .ackw => if t.ackPend.contains t.wait.n then some (9, some (BitVec.ofNat 64 t.wait.n), .unit) else none
  | .fwd =>
    match s.fwds.find? (fun f => f.sender == t.uid) with
    | some f => if f.arr = 0 ∨ (s.fwdTarget f).isSome = true then none else some (7, none, .strands (s.slotStrands f.core f.slot))
    | none => none
  | .none =>
    if t.stallSince.isNone && !s.isSaved t.uid then none
    else
      match s.blockingPend t with
      | some p =>
        match p.op with
        | .precv n _ => some (4, none, .strands (team n (fun d => d.producer)))
        | .jwait id => some (5, some (BitVec.ofNat 64 id), .unit)
        | .deq q _ _ _ => some (6, some (BitVec.ofNat 64 q), .launch)
        | _ => none
      | none =>
        match s.enqBlocked t with
        | some q => if s.noPends t.uid then some (6, some (BitVec.ofNat 64 q), .launch) else none
        | none => if t.starved.any t.awaits then some (8, none, .launch) else none
  | _ => none

/-- The blocked agents of a launch: its strands, the swapped-out ones too, but for halted ones (R429), the DEQs that have left
their slots, and its activations and the actors of its deferred messages without a record (R165, R166). -/
def State.agents (s : State) (id : Nat) : List Agent :=
  let strands := (s.all ++ (s.saved.filter (fun v => v.swap)).map (fun (v : Saved) => v.t)).filter (fun t =>
    t.launch == id && t.mode == .launch && t.run != RunState.halted)
  let actor := fun (m : Msg) => (m.cls, m.key)
  let first := fun (m : Msg) => s.msgs.find? (fun o => o.launch == id && o.stage == MsgStage.deferred && actor o == actor m)
  let one := fun (t : Strand) => (s.blockedIn t).map (fun x =>
    ({ id := t.uid, core := t.core, slot := t.slot, kind := x.1, obj := x.2.1, on := x.2.2 } : Agent))
  let waiter := fun (w : DeqWaiter) =>
    ({ id := w.uid, core := w.core, slot := w.slot, kind := 6, obj := some (BitVec.ofNat 64 w.q) } : Agent)
  let entry := fun (u core : Nat) =>
    ({ id := u, core := core, kind := 10 } : Agent)
  strands.filterMap one
    ++ (s.deqWaiters.filter (fun w => w.launch == id && w.held.isNone)).map waiter
    ++ (s.entries.filter (fun e => e.launch == id && e.st == EntryState.waiting && e.victim.isNone)).map (fun (e : Entry) =>
      entry e.uid (cornerOf e.die))
    ++ (s.msgs.filter (fun m => m.launch == id && m.stage == MsgStage.deferred
        && (first m).any (fun o => o.uid == m.uid))).map (fun (m : Msg) =>
      entry m.uid (cornerOf (homeDie m.cls m.key)))

/-- Whether a launch has nothing but strands in a set (R357): no other strand, no placed team to start, no record in
a queue, no message that a handler could take, no pending job. -/
def State.launchBlocked (s : State) (id : Nat) (d : List Agent) : Bool :=
  let inD := fun (u : Nat) => d.any (fun a => a.id == u)
  s.all.all (fun t => t.launch != id || t.mode != Mode.launch || inD t.uid)
    && s.saved.all (fun v => v.t.launch != id || inD v.t.uid)
    && s.holds.all (fun h => h.launch != id || h.started && h.toStart.isEmpty)
    && s.queues.all (fun q => q.launch != id || q.hw.isEmpty && q.ring.isEmpty)
    && s.enqs.all (fun e => e.target != id)
    && s.deqWaiters.all (fun w => w.launch != id || w.held.isNone)
    && s.entries.all (fun e => e.launch != id || e.allHeld.isEmpty || inD e.uid)
    && s.inq.all (fun i => (s.entry? i.entry).all (fun e => e.launch != id))
    && s.msgs.all (fun m => m.launch != id || m.stage == MsgStage.deferred || !m.isCounter && m.cls == 0xFFFF)
    && s.jobs.all (fun j => j.launch != id) && s.mxCmds.all (fun c => c.launch != id)

/-- Whether the signaller of an agent lies in a set (R357). -/
def State.signalledIn (s : State) (id : Nat) (d : List Agent) (a : Agent) : Bool :=
  match a.on with
  | .launch => s.launchBlocked id d
  | .unit => false
  | .strands us => !us.isEmpty && us.all (fun u => d.any (fun x => x.id == u))

/-- The greatest set of blocked agents that signal only one another (R357): those not so signalled are left out until
none is. -/
def State.shrink (s : State) (id : Nat) (d : List Agent) : Nat → List Agent
  | 0 => []
  | n + 1 =>
    let e := d.filter (s.signalledIn id d)
    if e.length = d.length then d else s.shrink id e n

/-- An agent put in its place among those of lower numbers. -/
def insertAgent (a : Agent) : List Agent → List Agent
  | [] => [a]
  | b :: l => if a.id ≤ b.id then a :: b :: l else b :: insertAgent a l

/-- The deadlock of a launch, if there is one (R357), by the numbers of its members: one set has one form. -/
def State.deadlockOf (s : State) (id : Nat) : List Agent :=
  let d := s.agents id
  (s.shrink id d (d.length + 1)).foldr insertAgent []

/-- The two words of member `i` (R358); an object whose layout the manual does not give is a free value. -/
def State.memberWords (s : State) (i : Nat) (a : Agent) : List Word :=
  [BitVec.ofNat 64 (s.logicalOf a.core % 4096 * 2 ^ 48 + a.slot % 4 * 2 ^ 46 + a.kind * 2 ^ 32),
   a.obj.getD (Config.freeWord (s.tick + i))]

/-- The messages of a report from member `i` on, two members in each (R358). -/
def State.deadlockMsgs (s : State) (id n m i : Nat) : List Agent → State
  | [] => s
  | [a] => s.report 0 id 2 (BitVec.ofNat 64 (n * 2 ^ 32 + i * 2 ^ 16 + m) :: s.memberWords i a)
  | a :: b :: ds =>
    State.deadlockMsgs (s.report 0 id 2 (BitVec.ofNat 64 (n * 2 ^ 32 + i * 2 ^ 16 + m) :: (s.memberWords i a ++ s.memberWords (i + 1) b)))
      id n m (i + 2) ds

/-- A launch's deadlock is reported to its owner when its membership has changed (R357). -/
def State.walkLaunch (s : State) (l : Launch) : State :=
  let d := s.deadlockOf l.id
  let ids := d.map (·.id)
  let rest := s.deadlocks.filter (fun x => x.1 != l.id)
  if d.isEmpty then { s with deadlocks := rest }
  else if s.deadlocks.contains (l.id, ids) then s
  else
    let s1 := (({ s with deadlocks := rest ++ [(l.id, ids)] }).onLaunch l.id (fun x =>
      { x with reports := x.reports + 1 })).deadlockMsgs l.id (l.reports + 1) d.length 0 d
    { s1 with tick := s1.tick + d.length }

/-- DEADLOCK (R357): the walk of the wait-for table; it names no launch with a halted strand (R429). -/
def execDeadlock (s : State) : Host.Outcome State Fault Refusal :=
  let halted := fun (id : Nat) => s.all.any (fun t => t.launch == id && t.mode == .launch && t.run == RunState.halted)
  .next ((s.launches.filter (fun l => l.stage == .live && !halted l.id)).foldl (fun (s : State) l => s.walkLaunch l) s)

end Sys2Proof.Machine
end

