-- ==== Sys2Proof/Machine/HostSide.lean ====
section
/-! DEFINITION. The host's side (*From the host to a running launch*): the register window (R116), command queues (R117,
R118), the event ring (R120), receive rings (R123), interrupts (R129), power (R134, R135), attestation (R132), and
the host's accesses to device memory (R270). -/

namespace Sys2Proof.Machine

/-! ### The register window (R116) -/

/-- Whether a value is a power of two from `2^lo` to `2^hi`. -/
def powerIn (v lo hi : Nat) : Bool := (List.range (hi + 1)).any (fun i => decide (lo ≤ i) && v == 2 ^ i)

/-- A change of the link. -/
def State.onLink (s : State) (f : Link → Link) : State := { s with link := f s.link }

/-- A change of a command queue. -/
def Link.onCq (k : Link) (q : Nat) (f : CmdQ → CmdQ) : Link := { k with cqs := k.cqs.modify q f }

/-- A change of a receive ring. -/
def Link.onRing (k : Link) (r : Nat) (f : RxRing → RxRing) : Link := { k with rings := k.rings.modify r f }

/-- A legal write of a register of the window; any other leaves the link as it is (R116). -/
def Link.write (k : Link) (off v : Nat) : Link :=
  if off = 0x20 then (if v % 32 = 0 then { k with evqBase := v } else k)
  else if off = 0x28 then (if v = 0 ∨ powerIn v 6 16 = true then { k with evqSize := v } else k)
  else if off = 0x38 then (if v < 2 ^ 32 then { k with evqCons := v } else k)
  else if off = 0x40 then (if v ≤ 1000000 then { k with uliWindow := v } else k)
  else if 0x1000 ≤ off ∧ off < 0x1200 then
    (if off % 32 = 8 ∧ powerIn v 4 12 = true then k.onCq ((off - 0x1000) / 32) (fun q => { q with size := v }) else k)
  else if 0x2000 ≤ off ∧ off < 0x2800 then
    let r := (off - 0x2000) / 32
    if off % 32 = 0 ∧ v % 64 = 0 then k.onRing r (fun x => { x with base := v })
    else if off % 32 = 8 ∧ (v = 0 ∨ powerIn v 4 16 = true) then k.onRing r (fun x => { x with size := v })
    else if off % 32 = 24 ∧ v < 2 ^ 32 then k.onRing r (fun x => { x with cons := v })
    else k
  else if 0x3000 ≤ off ∧ off < 0x3400 then
    let r := (off - 0x3000) / 16
    if off % 16 = 0 ∧ v < 2 ^ 17 then k.onRing r (fun x => { x with ctl := BitVec.ofNat 64 v })
    else if off % 16 = 8 then k.onRing r (fun x => { x with token := BitVec.ofNat 64 v })
    else k
  else k

/-- START_STATE (R116): the lowest of the last steps begun, and whether a start runs, is done or has failed. -/
def Link.startState (k : Link) : Nat :=
  let lowest := (k.steps.map (fun n => min n 8)).foldl min 8
  let fate := if k.failed.contains true then 2 else if k.started then 1 else 0
  16 * fate + lowest

/-- What a host read of the window finds (R4, R116): a register that may be read, and 0 at any other offset. -/
def Link.read (k : Link) (off : Nat) : Nat :=
  if off = 0x00 then 0x40960B4A
  else if off = 0x10 then k.startState
  else if off = 0x20 then k.evqBase
  else if off = 0x28 then k.evqSize
  else if off = 0x30 then k.evqProd
  else if off = 0x38 then k.evqCons
  else if off = 0x40 then k.uliWindow
  else if off % 8 ≠ 0 then 0
  else if 0x100 ≤ off ∧ off < 0x200 then (k.startRecord.getD ((off - 0x100) / 8) 0).toNat
  else if 0x1000 ≤ off ∧ off < 0x1200 then
    let q := k.cqs.getD ((off - 0x1000) / 32) { }
    [q.base, q.size, q.tail, q.head].getD (off % 32 / 8) 0
  else if 0x2000 ≤ off ∧ off < 0x2800 then
    let r := k.rings.getD ((off - 0x2000) / 32) { }
    [r.base, r.size, r.prod, r.cons].getD (off % 32 / 8) 0
  else if 0x3000 ≤ off ∧ off < 0x3400 then
    let r := k.rings.getD ((off - 0x3000) / 16) { }
    if off % 16 = 0 then r.ctl.toNat else r.token.toNat
  else 0

/-- HOST_REGISTER_WRITE (R116): a host write of a register of the window, or, where pick 2 is 1, a host read of one. Pick 0
is the offset, pick 1 the value written. Where pick 2 is 2, the host writes the module configuration in the boot flash instead
(R175): pick 0 below 256 is an entry of the package routing table, and 256 this package's own number. -/
def execHostRegisterWrite (s : State) : Host.Outcome State Fault Refusal :=
  if s.arg 2 = 2 then
    .next (if s.arg 0 = 256 then { s with flashPackage := s.arg 1 % 256 } else { s with flashRoutes := s.flashRoutes.set (s.arg 0) (s.arg 1 % 256) })
  else if s.arg 2 = 1 then .next (s.onLink (fun k => { k with readData := k.read (s.arg 0) }))
  else .next (s.onLink (fun k => k.write (s.arg 0) (s.arg 1 % 2 ^ 64)))

/-- CQ_BASE (R117): a host write of CQ_BASE restarts the queue empty. DESIGN CHOICE (log entry 53): so does one of a queue that has
not stopped, of which the manual says nothing, and its untaken commands are dropped. Pick 0 is the queue, pick 1 the value. -/
def execCqBase (s : State) : Host.Outcome State Fault Refusal :=
  let v := s.arg 1 % 2 ^ 64
  if v % 64 ≠ 0 then .next s
  else
    .next (s.onLink (fun k => k.onCq (s.arg 0) (fun q => { q with base := v, head := 0, tail := 0, stopped := false })))

/-- The address of slot `n` of a command queue's ring (R116). -/
def CmdQ.slotAt (q : CmdQ) (n : Nat) : Nat := q.base + 64 * (n % q.size)

/-- The words of a command that the host writes into its memory (R117 step 1). -/
def putWords (m : List Host.Cell) (a : Nat) : List Nat → List Host.Cell
  | [] => m
  | w :: ws => putWords (Mem.write m a 8 (w % 2 ^ 64)) (a + 8) ws

/-- Commands of a queue that the sequencer has not taken. -/
def CmdQ.count (q : CmdQ) : Nat := (q.tail + 2 ^ 32 - q.head) % 2 ^ 32

/-- CQ_TAIL (R117): the doorbell; a count too far ahead stops the queue. DESIGN CHOICE (log entry 53): a write to a queue
that has stopped, of which the manual says nothing, is ignored until CQ_BASE is written. Pick 0 is the queue, pick 1 the value; picks 2
on are the words of the command that the host has first written into the slot, if it has. -/
def execCqTail (s : State) : Host.Outcome State Fault Refusal :=
  match s.link.cqs[s.arg 0]? with
  | none => .next s
  | some q =>
    let v := s.arg 1
    if q.stopped ∨ 2 ^ 32 ≤ v then .next s
    else
      let s1 := { s with host := putWords s.host (q.slotAt q.tail) (s.pick.drop 2) }
      let q1 : CmdQ := { q with tail := v }
      if q.size < q1.count then
        .next ((s1.onLink (fun k => k.onCq (s.arg 0) (fun _ => { q1 with stopped := true }))).event 4 (s.arg 0) 0 0 0 0 [])
      else .next (s1.onLink (fun k => k.onCq (s.arg 0) (fun _ => q1)))

/-! ### Taking commands (R117, R118) -/

/-- The next queue that holds a command after the one last served (R117). -/
def Link.nextQueue (k : Link) : Option Nat :=
  ((List.range 16).map (fun i => (k.lastQ + 1 + i) % 16)).find? (fun q =>
    match k.cqs[q]? with
    | some c => !c.stopped && c.size != 0 && c.count != 0
    | none => false)

/-- What a command asks for, if it keeps its layout (R118). -/
def commandKind (w : List Nat) (time seq : Nat) : Option ItemKind :=
  let at' := fun (i : Nat) => w.getD i 0
  let zero := fun (i : Nat) => (w.drop i).all (· == 0)
  let launch := at' 0 / 2 ^ 32
  if at' 0 / 2 ^ 8 % 2 ^ 8 ≠ 0 then none
  else
    match at' 0 % 256 with
    | 1 =>
      if launch = 0 ∧ at' 1 % 256 = 0 ∧ at' 2 < 2 ^ 16 ∧ zero 4 = true then
        some (.launch (at' 1) (at' 2) (BitVec.ofNat 64 (at' 3))) else none
    | 2 =>
      if at' 1 < 2 ^ 32 then
        some (.message (at' 1 / 2 ^ 16) (at' 1 % 2 ^ 16) (BitVec.ofNat 64 (at' 2))
          ((List.range 5).map (fun i => BitVec.ofNat 64 (at' (3 + i)))) time seq)
      else none
    | 3 => if zero 1 = true then some .endLaunch else none
    | 4 => if launch = 0 ∧ at' 2 < 4 ∧ zero 3 = true then some (.power (BitVec.ofNat 64 (at' 1)) (at' 2)) else none
    | 5 =>
      if launch = 0 ∧ at' 3 % 256 = 0 ∧ zero 4 = true then
        some (.attest [BitVec.ofNat 64 (at' 1), BitVec.ofNat 64 (at' 2)] (at' 3)) else none
    | _ => none

/-- COMMAND_TAKE (R117, R118): the sequencer takes the next command, which gets the next sequence number; one that breaks
its layout completes with BAD_COMMAND. With a command the link releases what the host has written before it (R334). -/
def execCommandTake (s : State) : Host.Outcome State Fault Refusal :=
  if !s.link.started || decide (eventRoom ≤ s.link.events.length) then .next s
  else
    match s.link.nextQueue with
    | none => .next s
    | some n =>
      let q := s.link.cqs.getD n { }
      let a := q.slotAt q.head
      let w := (List.range 8).map (fun i => Mem.read s.host (a + 8 * i) 8)
      let tag := w.headD 0 / 2 ^ 16 % 2 ^ 16
      let kind := commandKind w s.timeNs q.seq
      let message := kind.isSome && w.headD 0 % 256 == 2
      let q1 : CmdQ := { q with head := (q.head + 1) % 2 ^ 32, seq := if message then q.seq + 1 else q.seq }
      let s1 := s.onLink (fun k => { k.onCq n (fun _ => q1) with lastQ := n })
      match kind with
      | some k => .next (s1.broadcast n tag (w.headD 0 / 2 ^ 32) k s.link.released)
      | none =>
        .next ((s1.onLink (fun k => { k with nextSeq := k.nextSeq + 1 })).completion n tag 4 0 0)

/-! ### Interrupts (R129) -/

/-- An interrupt to a vector and a token: it joins an open window, opens one, or, with no window, is raised. -/
def State.interrupt (s : State) (vector : Nat) (token : Word) : State :=
  let k := s.link
  if k.uliWindow = 0 then s.onLink (fun k => { k with raised := k.raised ++ [(vector, token, s.timeNs)] })
  else if k.windows.any (fun w => w.vector == vector && w.token == token && decide (s.timeNs < w.closeAt)) then s
  else
    s.onLink (fun k => { k with
      windows := k.windows ++ [{ vector := vector, token := token, closeAt := s.timeNs + k.uliWindow }] })

/-- ULI_WINDOW (R129): a window closes, and one interrupt is raised. Pick 0 is its place. -/
def execUliWindow (s : State) : Host.Outcome State Fault Refusal :=
  match s.link.windows[s.arg 0]? with
  | none => .next s
  | some w =>
    if s.timeNs < w.closeAt then .next s
    else
      .next (s.onLink (fun k => { k with
        windows := k.windows.eraseIdx (s.arg 0), raised := k.raised ++ [(w.vector, w.token, s.timeNs)] }))

/-! ### Rings (R120, R123) -/

/-- EVENT_RING_WRITE (R120): the oldest event in the buffer is written into the ring and counted; then its interrupt
follows. -/
def execEventRingWrite (s : State) : Host.Outcome State Fault Refusal :=
  let k := s.link
  match k.events with
  | [] => .next s
  | e :: es =>
    if k.evqSize = 0 ∨ (k.evqProd + 2 ^ 32 - k.evqCons) % 2 ^ 32 ≥ k.evqSize then .next s
    else
      let s1 : State := { s with
        host := putWords s.host (k.evqBase + 32 * (k.evqProd % k.evqSize)) ((e.take 4).map (·.toNat))
        link := { k with events := es, evqProd := (k.evqProd + 1) % 2 ^ 32 } }
      match e.drop 4 with
      | [v, t] => .next (s1.interrupt v.toNat t)
      | _ => .next s1

/-- HOST_RING_DELIVERY (R123): a message to class 0xFFFF is written into its receive ring and counted; a message to an
unregistered ring is discarded. Pick 0 is its place. -/
def execHostRingDelivery (s : State) : Host.Outcome State Fault Refusal :=
  match s.msgs[s.arg 0]? with
  | none => .next s
  | some m =>
    let r := m.key.toNat % 64
    let before := (s.msgs.take (s.arg 0)).any (fun o => o.stage == MsgStage.sent && s.sameFlow m o)
    let x := s.link.rings.getD r { }
    let s1 := { s with msgs := s.msgs.eraseIdx (s.arg 0) }
    if m.stage ≠ .sent ∨ m.isCounter = true ∨ m.cls ≠ 0xFFFF ∨ before = true then .next s
    else if x.size = 0 then
      (if eventRoom ≤ s.link.events.length then .next s else .next (s1.event 5 (16 + m.die) 0 0 0 m.key []))
    else if (x.prod + 2 ^ 32 - x.cons) % 2 ^ 32 ≥ x.size then .next s
    else
      let s2 : State := { s1 with
        host := putWords s.host (x.base + 64 * (x.prod % x.size)) (m.w.map (·.toNat))
        link := s1.link.onRing r (fun y => { y with prod := (y.prod + 1) % 2 ^ 32 }) }
      if x.ctl.getLsbD 16 then .next (s2.interrupt (x.ctl.toNat % 2 ^ 16) x.token) else .next s2

/-! ### Power (R134, R135) -/

/-- Whether a cluster holds a team or an actor of a live launch (R134). -/
def State.clusterHolds (s : State) (c : Nat) : Bool :=
  s.holds.any (fun h => clusterOf h.core == c)
    || s.entries.any (fun e => e.placed && (clusterOf e.core == c || e.twin && clusterOf e.core2 == c))

/-- What an unpowered cluster loses (R134): its scratchpads, its slice, and the state of its cores and engines; the
counters that only the drover firmware reads go on. -/
def State.loseCluster (s : State) (c : Nat) : State :=
  let here := inCluster c
  let lost := fun (x : Core) => if here x.id then x.contained else x
  { s with
    cores := s.cores.map lost
    spad := s.spad.filter (fun x => !here (x.1 / Config.spadBytes))
    icache := s.icache.filter (fun x => !here x.owner)
    islices := s.islices.filter (fun x => x.owner != c)
    slices := s.slices.filter (fun x => x.cluster != c)
    opCache := s.opCache.filter (fun x => !here x.core)
    late := s.late.filter (fun x => !here x.core)
    rxq := s.rxq.filter (fun x => !here x.core)
    profiles := s.profiles.filter (fun x => !here x.1)
    softErrs := s.softErrs.filter (fun x => !here x.core)
    badWords := s.badWords.filter (fun x => !here x.core) }

/-- The core that an entry of a die's map names (R155). -/
def mapCore (d e : Nat) : Nat := cornerOf d + 64 * (e / 32 % 32) + e % 32

/-- Entries of a map in the scratchpad of a core (R155). -/
def State.entriesAt (s : State) (core a n : Nat) : List Nat := (List.range n).map (fun i => s.spadRead core (a + 2 * i) 2)

/-- The map of a die as its drover core keeps it: the core that each logical index names (R155). -/
def State.mapOf (s : State) (d : Nat) : List Nat :=
  (s.entriesAt (droverCore d) (s.mapAt d d) (s.liveOn d).length).map (mapCore d)

/-- The LOGICAL_ID of cores that the map of a die names, as the last start had it (R131): no index comes to name another core
before the next start (R156). -/
def State.numberCores (s : State) (d : Nat) (which : Nat → Bool) : State :=
  ((((s.die d).map.map (mapCore d)).zipIdx).filter (fun x => which x.1)).foldl (fun (s : State) x => s.setLogical x.1 x.2) s

/-- A cluster in a power state. OFF loses what it holds; the LOGICAL_ID of its cores is written again as it leaves OFF
(R131). -/
def State.setPower (s : State) (c state : Nat) : State :=
  let old := (s.cluster c).power
  if state = 3 ∧ old ≠ 3 then (s.loseCluster c).onCluster c (fun _ => { power := 3 })
  else
    let s1 := s.onCluster c (fun x => { x with power := state })
    if old = 3 ∧ state ≠ 3 then s1.numberCores (dieOfCluster c) (inCluster c) else s1

/-- Clusters of a mask. -/
def clustersIn (mask : Word) : List Nat := (List.range 64).filter (fun c => mask.getLsbD c)

/-- POWER_COMMAND (R134): the POWER at the head of the sequence takes effect, or completes with CLUSTER_BUSY. A cluster
leaves RUN at once, whatever command of it is still open, and reaches RUN later. -/
def execPowerCommand (s : State) : Host.Outcome State Fault Refusal :=
  match s.nextItem with
  | none => .next s
  | some p =>
    match p.1.kind with
    | .power mask state =>
      let cs := clustersIn mask
      let busy := if state = 0 then [] else cs.filter (fun c => (s.cluster c).power == 0 && s.clusterHolds c)
      let moving := fun (c : Nat) => s.link.powers.any (fun x => x.2.2.1.contains c)
      if busy ≠ [] then
        .next (p.2.completion p.1.source p.1.tag 8 0 (BitVec.ofNat 64 ((busy.map (fun c => 2 ^ c)).sum)))
      else if cs = [] then .next (p.2.completion p.1.source p.1.tag 0 0 0)
      else
        let s1 := if state = 0 then p.2
          else (cs.filter (fun c => !moving c || (s.cluster c).power == 0)).foldl (fun (s : State) c => s.setPower c state) p.2
        .next (s1.onLink (fun k => { k with powers := k.powers ++ [(p.1.source, p.1.tag, cs, state)] }))
    | _ => .next s

/-- POWER_TRANSITION_DONE (R134): a cluster has reached the state of the POWER command in place `pick 0`, the first that
names it; the last completes the command. Where a later command names the cluster, it goes on at once. Pick 1 is the
cluster. -/
def execPowerTransitionDone (s : State) : Host.Outcome State Fault Refusal :=
  let c := s.arg 1
  match s.link.powers[s.arg 0]? with
  | none => .next s
  | some x =>
    let earlier := (s.link.powers.take (s.arg 0)).any (fun y => y.2.2.1.contains c)
    if !x.2.2.1.contains c || earlier || decide (eventRoom ≤ s.link.events.length) then .next s
    else
      let next := ((s.link.powers.drop (s.arg 0 + 1)).find? (fun y => y.2.2.1.contains c)).map (·.2.2.2)
      let s1 := s.setPower c (match next with | some n => if n = 0 then x.2.2.2 else n | none => x.2.2.2)
      let rest := x.2.2.1.erase c
      if rest.isEmpty then
        .next ((s1.onLink (fun k => { k with powers := k.powers.eraseIdx (s.arg 0) })).completion x.1 x.2.1 0 0 0)
      else .next (s1.onLink (fun k => { k with powers := k.powers.set (s.arg 0) (x.1, x.2.1, rest, x.2.2.2) }))

/-- A strand that its cluster's loss of power ends (R135). -/
def State.dropStrand (s : State) (t : Strand) : State :=
  let s1 := (s.stopStrand t.uid).loseBoot t
  if t.isHandler || t.mode == Mode.supervisor then s1
  else s1.onHold t.core t.launch (fun h => h.strandEnded 4 [])

/-- The clusters of a die go OFF (R135): their strands and the work of their engines are gone. -/
def State.tripDie (s : State) (d : Nat) : State :=
  let here := fun (core : Nat) => decide (core < 4096) && dieOf core == d
  let ts := (s.all ++ s.saved.map (fun (v : Saved) => v.t)).filter (fun t => here t.core)
  let s1 := ts.foldl (fun (s : State) t => s.dropStrand t) s
  let s2 := (s1.samples.filter (fun x => here x.core)).foldl (fun (s : State) x => s.dropSample x) s1
  let s3 : State := { s2 with
    jobs := s2.jobs.filter (fun j => !here j.core)
    mxCmds := s2.mxCmds.filter (fun c => !here c.core)
    opCache := s2.opCache.filter (fun b => !here b.core)
    link := { s2.link with
      powers := s2.link.powers.map (fun (x : Nat × Nat × List Nat × Nat) =>
        (x.1, x.2.1, x.2.2.1.filter (fun c => dieOfCluster c != d), x.2.2.2)) } }
  ((List.range 64).filter (fun c => dieOfCluster c == d)).foldl (fun (s : State) c => s.setPower c 3) s3

/-- POWER commands of which no cluster is left complete. -/
def State.closePowers (s : State) : State :=
  let done := s.link.powers.filter (fun x => x.2.2.1.isEmpty)
  let s1 := s.onLink (fun k => { k with powers := k.powers.filter (fun x => !x.2.2.1.isEmpty) })
  done.foldl (fun (s : State) x => s.completion x.1 x.2.1 0 0 0) s1

/-- Whether a launch has a team or a host core on a die (R135). -/
def State.onTripped (s : State) (l : Launch) (d : Nat) : Bool :=
  (s.holds ++ l.plan).any (fun h => h.launch == l.id && dieOf h.core == d)
    || (s.areas ++ l.areaPlan).any (fun a => a.launch == l.id && dieOf a.core == d)

/-- THERMAL_TRIP (R135): every cluster of a die goes OFF, the trip is raised, and the launches with a team or a host core
there end. Pick 0 is the die. -/
def execThermalTrip (s : State) : Host.Outcome State Fault Refusal :=
  let d := s.arg 0
  if 4 ≤ d then .next s
  else
    let hit := (s.launches.filter (fun l => l.stage != .over && s.onTripped l d)).map (fun (l : Launch) => (l.id, l.stage))
    let s1 := ((s.tripDie d).closePowers).event 3 (16 + d) 0 0 0 0 []
    let fell := fun (s : State) (x : Nat × LaunchStage) =>
      let t := s.onLaunch x.1 (fun l => { l with thermal := some (l.thermal.getD d) })
      if x.2 = .live then t.endLaunch x.1 else t
    .next (hit.foldl fell s1)

/-! ### Attestation (R132, R133) -/

/-- Some bytes of a number, the lowest first. -/
def bytesLE (n v : Nat) : List Nat := (List.range n).map (fun i => v / 256 ^ i % 256)

/-- The list of the fused-off cores of all four dies, die 0 first. DESIGN CHOICE (log entry 52): the manual gives the list no
layout; each core is a 2-byte entry as in a map (R155), in the order of the maps. -/
def State.fusedList (s : State) : List Nat :=
  (List.range 4).flatMap (fun d =>
    (((List.range 4096).filter (fun c => dieOf c == d && s.fusedCores.contains c)).flatMap
      (fun c => bytesLE 2 (c / 64 % 32 * 32 + c % 32))))

/-- The device's private key, in the fuses (R133). -/
def identityKey : Nat := Config.deviceKey % (smn - 2) + 1

/-- Bytes 0x00 to 0xBF of the attestation report (R132). -/
def State.attestBody (s : State) (nonce : List Word) : List Nat :=
  let key := smPublic identityKey
  bytesLE 8 (nonce.getD 0 0).toNat ++ bytesLE 8 (nonce.getD 1 0).toNat
    ++ bytesBE 32 (imageDigest s.flashImage) ++ bytesBE 32 (sm3 s.fusedList)
    ++ (List.range 4).flatMap (fun d => bytesLE 2 (s.liveOn d).length)
    ++ bytesLE 4 512 ++ bytesLE 4 4096 ++ bytesBE 32 key.1 ++ bytesBE 32 key.2 ++ List.replicate 32 0

/-- The attestation report (R132, R133): the signature is over the digest of what stands before it. The number that a
signature is made with is a free value, as a fresh one is for each. -/
def State.attestReport (s : State) (nonce : List Word) : List Nat :=
  let body := s.attestBody nonce
  let one := fun (i : Nat) =>
    ((List.range 4).foldl (fun v j => 2 ^ 64 * v + (Config.freeWord (s.tick + 4 * i + j)).toNat) 0) % (smn - 1) + 1
  let g := smSign identityKey (sm3 body) ((List.range 4).map one)
  body ++ bytesBE 32 g.1 ++ bytesBE 32 g.2

/-- Bytes written into host memory. -/
def putBytes (m : List Host.Cell) (a : Nat) : List Nat → List Host.Cell
  | [] => m
  | b :: bs => putBytes (Mem.set m a (BitVec.ofNat 8 b)) (a + 1) bs

/-- ATTEST_COMMAND (R132): the ATTEST at the head of the sequence writes its report, and completes. -/
def execAttestCommand (s : State) : Host.Outcome State Fault Refusal :=
  match s.nextItem with
  | none => .next s
  | some p =>
    match p.1.kind with
    | .attest nonce buf =>
      let s1 : State := { p.2 with host := putBytes s.host buf (s.attestReport nonce), tick := s.tick + 16 }
      .next (s1.completion p.1.source p.1.tag 0 0 0)
    | _ => .next s

/-! ### The host's accesses to device memory (R270) -/

/-- HOST_ACCESS_TO_DEVICE_MEMORY (R270): a read or a write of up to 64 bytes, classed and checked at the owner die and
performed there. Pick 0 is 1 for a write, pick 1 the address, pick 2 the bytes, pick 3 the data. One that stands behind a stalled
write, or a write to a page in FINAL, comes later (R282). A read that fails returns a free value, and a write that fails has no
effect. -/
def execHostAccessToDeviceMemory (s0 : State) : Host.Outcome State Fault Refusal :=
  let a := s0.arg 1
  let cls := s0.ownerClass a
  let s := (s0.mapOwn a 0).touch cls a
  let n := min (s.arg 2) 64
  if s.arg 0 = 1 then
    match s.keys (s.reqOwner a) .w a n with
    | .error _ => .next s
    | .ok ks =>
      if s.mustStall 0 cls a ks then .next s
      else
        let st : Store :=
          { uid := s.nextUid, origin := .engine, core := cornerOf (ownerOf a), addr := a, size := n, val := s.arg 3 % 256 ^ n
            mask := fullMask n, base := a, span := n, cls := cls, scope := 4 }
        let r := s.dropBad st ks
        let s1 := (r.1.flushLines (ownerOf a) a n).performLocal (ownerOf a) a r.2.val r.2.mask ks
        .next (s1.onLink (fun k => { k with released := joinClock k.released (s1.die (ownerOf a)).clock }))
  else
    let free : State := { s with tick := s.tick + 1, link := { s.link with readData := (Config.freeWord s.tick).toNat } }
    match s.keys (s.reqOwner a) .r a n with
    | .error _ => .next free
    | .ok ks =>
      if s.readStalls a n then .next s
      else if s.uncorrectable ks then .next free
      else .next { s with link := { s.link with readData := s.ownRead ks } }

end Sys2Proof.Machine
end

