-- ==== Sys2Proof/Machine/Start.lean ====
section
/-! DEFINITION. Start-up (R130, R131, R262, R263): the steps of a cold and of a warm start on each die. -/

namespace Sys2Proof.Machine

/-- Whether a start runs (R116): some die has a step under way. -/
def Link.starting (k : Link) : Bool :=
  (List.range 4).any (fun d => between 1 (k.steps.getD d 0) 8 && !k.failed.getD d false)

/-- The link as a start begins: the rings and queues are empty, their counts 0. DESIGN CHOICE (log entry 12): R130 says that beside
START_DONE; a CQ_TAIL that the host writes while the start runs is kept, and its commands are taken once it is done. -/
def Link.restarted (k : Link) (kind now : Nat) : Link :=
  { startKind := kind, startAt := now, steps := [1, 1, 1, 1]
    evqBase := k.evqBase, evqSize := k.evqSize, uliWindow := k.uliWindow
    cqs := k.cqs.map (fun (q : CmdQ) => { base := q.base, size := q.size })
    rings := k.rings.map (fun (r : RxRing) => { r with prod := 0, cons := 0 })
    raised := k.raised, readData := k.readData }

/-- A die as a warm start finds it: its tables, its settings gone (R65). -/
def Die.restarted (d : Die) : Die :=
  { root0 := d.root0, root1 := d.root1, nextHbm := d.nextHbm, nextLp := d.nextLp, checkBytes := d.checkBytes, idLimit := d.idLimit }

/-- The maps that the drover cores retain through a warm start (R130), at the address SV_MAP_BASE restarts with. -/
def State.keptMaps (s : State) : List Host.Cell :=
  (List.range 4).foldl (fun (m : List Host.Cell) p =>
    (List.range 4).foldl (fun (m : List Host.Cell) d =>
      Mem.write m (spadKey (droverCore p) (2048 * d)) 2048 (s.spadRead (droverCore p) (s.mapAt p d) 2048)) m) []

/-- The cores that fuses can mark: no more than 16 of a die (R1). -/
def fusable (l : List Nat) : List Nat :=
  l.foldl (fun (a : List Nat) c =>
    if 4096 ≤ c ∨ a.contains c = true ∨ 16 ≤ (a.filter (fun x => dieOf x == dieOf c)).length then a else a ++ [c]) []

/-- The leases of the launches of before a start are let go (R446). -/
def State.dropLaunches (s : State) : State :=
  s.launches.foldl (fun (s : State) l =>
    State.unpinLeases { s with launches := s.launches.filter (fun x => x.id != l.id) } l) s

/-- The machine as a start begins (R130): memory stands; scratchpads, caches and engines are initialised; every launch,
strand and message of before is gone. A warm start keeps the tables, the map and the counts of errors. -/
def State.restarted (s : State) (kind : Nat) : State :=
  let warm := kind == 2
  let w := if warm then s.dropLaunches else s
  { tape := s.tape, pick := s.pick, cycles := s.cycles, timeNs := s.timeNs, nextUid := s.nextUid, tick := s.tick
    hbm := w.hbm, host := s.host, nextPos := s.nextPos, badUnits := s.badUnits, retired := s.retired, lost := s.lost, grans := if warm then w.grans else []
    spad := if warm then s.keptMaps else []
    dies := if warm then s.dies.map Die.restarted else Vector.replicate 4 { }
    cores := if warm then s.cores.map Core.contained else []
    dead := if warm then s.dead else s.fusedCores
    banks := if warm then s.banks else []
    logical := if warm then s.logical else []
    fusedCores := s.fusedCores, bootEntry := s.bootEntry, bootImage := s.bootImage, hostDeny := s.hostDeny
    flashRoutes := s.flashRoutes, flashPackage := s.flashPackage, flashImage := s.flashImage, flashEntry := s.flashEntry
    fuseVendor := s.fuseVendor, link := s.link.restarted kind s.timeNs }

/-- COLD_START (R130): START_CTL is written with 1; ignored while a start runs. Pick 0 is where boot strands start and pick
1 the image's address, which the module's flash fixes; the further picks are the cores that the fuses mark, of which a die
has at most 16 (R1). -/
def execColdStart (s : State) : Host.Outcome State Fault Refusal :=
  if s.link.starting then .next s
  else
    let s1 : State := { s with
      bootEntry := BitVec.ofNat 64 (s.arg 0), bootImage := BitVec.ofNat 64 (s.arg 1), fusedCores := fusable (s.pick.drop 2) }
    .next (s1.restarted 1)

/-- WARM_START (R130): START_CTL is written with 2. -/
def execWarmStart (s : State) : Host.Outcome State Fault Refusal :=
  if s.link.starting then .next s else .next (s.restarted 2)

/-- A step entry of START_RECORD (R130). -/
def State.recordStep (s : State) (d step result : Nat) : State :=
  let e : Word := BitVec.ofNat 64 ((s.timeNs - s.link.startAt) / 1000 * 2 ^ 16 + step * 2 ^ 8 + result)
  s.onLink (fun k => { k with startRecord := k.startRecord.set (8 * d + step - 1) e })

/-- A boot strand on slot 0 of a core (R262). -/
def State.bootCore (s : State) (core : Nat) : State :=
  let fused := 1024 - (s.liveOn (dieOf core)).length
  let t : Strand :=
    { live := true, uid := s.nextUid, core := core, slot := 0, mode := .supervisor, kind := .boot
      pc := s.bootEntry.setWidth 48, gk := contRegs 0 [BitVec.ofNat 64 fused, s.bootImage] }
  (s.addStrand t).fresh

/-- The map of a die taken as step 6 passes (R130, R263): what its corner holds after a cold start, and what the drover core has
retained after a warm one. -/
def State.takeMap (s : State) (d : Nat) : State :=
  let n := (s.liveOn d).length
  let m := if s.link.startKind = 2 then s.entriesAt (droverCore d) (s.mapAt d d) n else s.entriesAt (cornerOf d) 0x30000 n
  s.onDie d (fun x => { x with map := m })

/-- The maps of the dies, which the start sequencers have sent each other, stand at SV_MAP_BASE of a drover core's
scratchpad (R263). -/
def State.placeMaps (s : State) (d : Nat) : State :=
  (List.range 4).foldl (fun (s : State) o =>
    let m := (s.die o).map
    s.spadWrite (droverCore d) (s.mapAt d o) (2 * m.length) (m.foldr (fun e v => e + 65536 * v) 0) (fullMask (2 * m.length))) s

/-- The drover core of a die starts on the firmware (R14, R130 step 8): one strand, in supervisor mode. PRESUMED (log entry
49): it starts where the flash says, with the registers of a continuation, from an executable page of the firmware's own. -/
def State.startDrover (s : State) (d : Nat) : State :=
  let t : Strand :=
    { live := true, uid := s.nextUid, core := droverCore d, slot := 0, mode := .supervisor, kind := .drover
      pc := s.flashEntry, gk := contRegs 0 [] }
  ((s.mapOwn s.flashEntry.toNat 1).addStrand t).fresh

/-- The drover firmware takes over a die (R262): after a cold start its own tables replace the start map. Behind the tables
stand the context records and the engine's own areas; the frames it gives out lie behind those. -/
def State.firmware (s : State) (d : Nat) : State :=
  if s.link.startKind = 1 then
    ((s.clearHbm d tableBase (2 ^ 19)).onDie d (fun x =>
      { x with
        startMap := false, root0 := tableBase, root1 := tableBase + 2 ^ 18, nextHbm := tableBase + 2 ^ 31
        idLimit := tableBase })).placeMaps d
  else s

/-- Step 7 of a start of a die delivers the routing table and the package's number (R175), and the body of the image as the
firmware's code. -/
def State.deliver (s : State) (d : Nat) : State :=
  let s1 := s.onDie d (fun x => { x with routes := s.flashRoutes, package := s.flashPackage })
  { s1 with
    hbm := ((s.flashImage.drop 256).zipIdx).foldl (fun (m : List Host.Cell) b =>
      Mem.set m (hbmKey (ownerOf s.flashEntry.toNat) 0 (s.flashEntry.toNat + b.2)) (BitVec.ofNat 8 b.1)) s1.hbm }

/-- A step begins on a die. -/
def State.enterStep (s : State) (d step : Nat) : State :=
  let s1 := s.onLink (fun k => { k with steps := k.steps.set d step })
  match step with
  | 4 => s1.onDie d (fun x => { x with startMap := true })
  | 5 => (s.liveOn d).foldl (fun (s : State) c => s.bootCore c) (s1.onDie d (fun x => { x with cornerAt := s.timeNs }))
  | 8 => (s1.firmware d).startDrover d
  | _ => s1

/-- A die's start has failed with a result (R130): no command is taken. -/
def State.failStart (s : State) (d result : Nat) : State :=
  (s.recordStep d (result % 16) result).onLink (fun k =>
    { k with failed := k.failed.set d true, steps := k.steps.set d (result % 16) })

/-- The next step of a die, and with the last one of the last die START_DONE (R130). A warm start writes LOGICAL_ID from the
map it restores (R131). -/
def State.stepDone (s : State) (d step : Nat) : State :=
  let s1 := s.recordStep d step 1
  if step = 8 then
    let s2 := s1.onLink (fun k => { k with steps := k.steps.set d 9 })
    if s2.link.steps.all (fun n => n == 9) then
      (s2.onLink (fun k => { k with started := true })).event 6 16 0 0 0 0 []
    else s2
  else if step = 3 ∧ s.link.startKind = 2 then ((s1.recordStep d 4 2).recordStep d 5 2).enterStep d 6
  else if step = 6 then
    let s2 := s1.takeMap d
    (if s.link.startKind = 2 then s2.numberCores d (fun _ => true) else s2).enterStep d 7
  else if step = 7 then (s1.deliver d).enterStep d 8
  else s1.enterStep d (step + 1)

/-- Whether a boot strand of a die has trapped (R262), an UNCORRECTABLE error that stops it included (R393). -/
def State.bootTrapped (s : State) (d : Nat) : Bool :=
  s.notes.any (fun n => n.die == d && decide (n.core < 4096) && n.cause != 0 && n.cause != Cause.uncorrectable)
    || s.all.any (fun t => t.kind == Kind.boot && dieOf t.core == d && t.stopped)

/-- Whether the work of a die's step holds against what the machine keeps: the signed image in step 2 (R133), the retained map
in step 6 of a warm start (R130). -/
def State.stepHolds (s : State) (d step : Nat) : Bool :=
  if step = 2 then imageGood s.flashImage s.fuseVendor
  else if step = 6 ∧ s.link.startKind = 2 then s.mapOf d == s.liveOn d
  else true

/-- Whether a die in step 7 must wait: a drover core starts with the maps of all four dies (R263), each of which has passed step 6. -/
def State.mapsMissing (s : State) : Bool := (List.range 4).any (fun d => decide (s.link.steps.getD d 0 < 7))

/-- START_STEP (R130, R262): the step a die is at ends. Pick 0 is the die, pick 1 is 1 where its work has succeeded. Step 6
of a cold start passes when every boot strand of the die has exited, and none was stopped before; a trap of one fails the start. -/
def execStartStep (s : State) : Host.Outcome State Fault Refusal :=
  let d := s.arg 0
  let n := s.link.steps.getD d 0
  if d < 4 ∧ between 1 n 8 = true ∧ s.link.failed.getD d false = false then
    let boot := s.all.any (fun t => t.kind == Kind.boot && dieOf t.core == d)
    if s.link.startKind = 1 ∧ (n = 5 ∨ n = 6) ∧ s.bootTrapped d = true then .next (s.failStart d 0x16)
    else if s.arg 1 ≠ 1 ∨ s.stepHolds d n = false then .next (s.failStart d (0x10 + n))
    else if s.link.startKind = 1 ∧ (n = 6 ∧ (boot || (s.die d).bootLost) = true ∨ n = 7 ∧ s.mapsMissing = true) then .next s
    else .next (s.stepDone d n)
  else .next s

/-- CORNER_TIMEOUT (R262): the corner of a die in step 5 or 6 has taken no packet for 1 ms, and its boot strand still runs.
Pick 0 is the die. -/
def execCornerTimeout (s : State) : Host.Outcome State Fault Refusal :=
  let d := s.arg 0
  let n := s.link.steps.getD d 0
  let waits := fun (t : Strand) => t.kind == Kind.boot && t.core == cornerOf d
  if d < 4 ∧ s.link.startKind = 1 ∧ (n = 5 ∨ n = 6) ∧ s.link.failed.getD d false = false ∧ s.all.any waits = true
      ∧ (s.die d).cornerAt + 1000000 ≤ s.timeNs then
    .next (s.failStart d 0x16)
  else .next s

end Sys2Proof.Machine
end

