-- ==== Sys2Proof/Machine/Boundary.lean ====
section
/-! DEFINITION. What stands around an instruction in a step: the boundary of a strand (R395), what an issue leaves behind,
and the work in flight from which the machine chooses where no schedule does. -/

namespace Sys2Proof.Machine

open Sys2Proof

/-- Whether a row of the table is a step of the machine's own, which no instruction word encodes. -/
def isEvent (i : Instr) : Bool := (encode i).isEmpty

/-- Time passes, and a new choice is made. COMPARE_WINDOW of a pair counts only while its strands are in RUN (R423). -/
def State.pass (s : State) (dc dn : Nat) : State :=
  { s with
    cycles := s.cycles + dc, timeNs := s.timeNs + dn, stalled := false, entries := s.entries.map (s.pairPass dn) }

/-- The next strand comes to the front. -/
def State.rotate (s : State) : State :=
  match s.strands with
  | [] => s
  | t :: ts => { s with cur := t, strands := ts ++ (if s.cur.live then [s.cur] else []) }

/-- What a strand does at its boundary (R395). -/
inductive Boundary where
  /-- it has done what comes first: it has ended, halted, trapped or suspended -/
  | done (s : State)
  /-- it does not go on now -/
  | blocked
  /-- its STORE_FAULT trap is taken -/
  | trap (s : State)
  /-- its next instruction's checks run -/
  | issue
  deriving DecidableEq, Repr

/-- The bytes of its own core's scratchpad that an instruction of the strand that issues reads: address and size. -/
def State.spadReads (s : State) (i : Instr) : List (Nat × Nat) :=
  let t := s.cur
  let at' := fun (b : Nat) (code off : Nat) => [(spadAddr b code off, sizeBytes code)]
  let spill := [(t.spillBase, 8), (t.spillBase + (s.spillHead % 2 ^ 32 - 8), 8)]
  match i with
  | .lds x size off => at' (t.val x.a).toNat size.toNat off.toNat
  | .cLdsD _ a off => at' (t.val (c3 a)).toNat 3 off.toNat
  | .cLdsW _ a off => at' (t.val (c3 a)).toNat 2 off.toNat
  | .lda _ size off => at' t.actorBase size.toNat off.toNat
  | .cLdaD _ off => at' t.actorBase 3 off.toNat
  | .pushs _ => spill
  | .pops _ => spill
  | .mcast x => [((t.val x.b).toNat, 128)]
  | .joininit x => [((t.val x.b).toNat, 64)]
  | .psend x =>
    match s.pipe? t.launch (t.val x.a).toNat with
    | some d => [((t.val x.b).toNat, d.slotSize)]
    | none => []
  | _ => []

/-- The bytes of its own core's scratchpad that an instruction of the strand that issues writes: address, size, and whether it
writes only a part of a word, which it then reads first. -/
def State.spadWrites (s : State) (i : Instr) : List (Nat × Nat × Bool) :=
  let t := s.cur
  let at' := fun (b : Nat) (code off : Nat) => [(spadAddr b code off, sizeBytes code, isEl code || decide (sizeBytes code < 8))]
  match i with
  | .sts x size off => at' (t.val x.a).toNat size.toNat off.toNat
  | .cStsD _ a off => at' (t.val (c3 a)).toNat 3 off.toNat
  | .cStsW _ a off => at' (t.val (c3 a)).toNat 2 off.toNat
  | .sta _ size off => at' t.actorBase size.toNat off.toNat
  | .cStaD _ off => at' t.actorBase 3 off.toNat
  | .pushs _ => [(t.spillBase + s.spillHead % 2 ^ 32, 8, false)]
  | .netrx x => [((t.val x.a).toNat, 128, false)]
  | _ => []

/-- The bytes of its core's scratchpad that the next instruction reads, and those of every access of it. -/
def State.nextSpad (s : State) : List (Nat × Nat) × List (Nat × Nat) :=
  match decode (fetchFor s s.cur).halves with
  | .ok i =>
    let ws := s.spadWrites i
    let rs := s.spadReads i ++ (ws.filter (fun w => w.2.2)).map (fun w => (w.1, w.2.1))
    (rs, rs ++ ws.map (fun w => (w.1, w.2.1)))
  | .error _ => ([], [])

/-- What the next instruction's accesses to its scratchpad find (R413): it waits where one meets a column group under rebuild, and
where it reads a word that shows an error, which it thereby finds. -/
def State.findsSoft (s : State) : Option Boundary :=
  if s.softErrs.isEmpty then none
  else
    let p := s.nextSpad
    if p.2.any (fun r => s.rebuilding s.cur.core r.1 r.2) then some .blocked
    else if p.1.any (fun r => s.spadSoft s.cur.core r.1 r.2) then
      some (.done (p.1.foldl (fun (s : State) r => s.findSoft s.cur.core r.1 r.2) s))
    else none

/-- The checks at the boundary of a strand that is not inside an issued instruction (R114, R355, R395 steps 3 and 4). -/
def State.betweenInstrs (s : State) : Boundary :=
  match s.cur.preTrap with
  | some p => .done (takeTrap (s.onCur (fun t => { t with preTrap := none })) p.1 p.2)
  | none =>
    if s.cur.sfDue && !s.insideRecv then .trap s
    else
      match s.deqLeaves s.cur with
      | some p => .done (s.deqSuspend s.cur p)
      | none => s.findsSoft.getD .issue

/-- The boundary of the strand that issues (R200, R395, R397, R428, R430): an ending strand stops; a requested halt is taken; one
that is to be saved issues nothing more, once a trap it has met is taken; a strand inside an issued instruction waits, or tests
its condition again; else the checks between instructions. -/
def State.boundary (s : State) : Boundary :=
  let t := s.cur
  if !t.live || t.run == RunState.halted then .blocked
  else
    match t.ending with
    | some code => .done (s.endBoundary code)
    | none =>
      if t.haltReq then .done (s.haltStrand 0)
      else if s.saveDue t && t.preTrap.isNone then .blocked
      else
        match t.wait.kind with
        | .none =>
          if t.quietHalt then .done s.haltQuietly
          else if t.run == RunState.parked then .blocked
          else s.betweenInstrs
        | .again => .issue
        | .psend => .issue
        | .ackw => .issue
        | _ => .blocked

/-- Whether the strand that has just been chosen has not issued: it is stalled, and inside no issued instruction. -/
def State.notIssued (s : State) : Bool := s.stalled && s.cur.wait.kind == WaitKind.none

/-- What an issue leaves on its strand: when a handler's first instruction issued (R176), the end of a stall (R185), and a
halt after one instruction (R430). -/
def Strand.issued (now : Nat) (t : Strand) : Strand :=
  let t1 : Strand :=
    { t with
      tStart := if t.isHandler then some (t.tStart.getD now) else t.tStart
      stallSince := none, starved := [], stallIn := [], yielded := false }
  if t.stepReq && !(t.wait.kind == .again || t.wait.kind == .psend || t.wait.kind == .ackw) then
    { t1 with stepReq := false, quietHalt := true }
  else t1

/-- A strand that could not issue is stalled from the first such cycle on (R185). -/
def Strand.notIssued (now : Nat) (t : Strand) : Strand := { t with stallSince := some (t.stallSince.getD now) }

/-- The registers that may await a forward (R237). -/
def markable : List Nat := (List.range 8).map (· + 48) ++ (List.range 32).map (· + 64)

/-- Whether an outcome is a stall of the strand that issues. -/
def stalls (o : Host.Outcome State Fault Refusal) : Bool :=
  match o with
  | .next s => s.notIssued
  | .fault _ => false
  | .refused _ => false

/-- The state with a value in some registers of the strand that issues, and with some of its producers answered. -/
def State.cured (s : State) (cells us : List Nat) : State :=
  us.foldl (fun (s : State) u =>
    match s.pends.find? (fun p => p.uid == u) with
    | some p => s.answerVal p 0
    | none => s) (s.onCur (fun t => cells.foldl (fun u c => u.landCell c 0) t))

/-- What the strand that issues is stalled for (R185, R356): the registers awaiting a forward and the JWAITs, PRECVs and DEQs in
flight without any one of which it would still be stalled, though with all of them it would not be. -/
def State.stallsFor (f : State → Host.Outcome State Fault Refusal) (s : State) : List Nat × List Nat :=
  let cells := markable.filter s.cur.awaits
  let us := (s.pends.filter (fun p => p.strand == s.cur.uid && p.op.withdrawn)).map (·.uid)
  if (cells.isEmpty && us.isEmpty) || !stalls (f s) || stalls (f (s.cured cells us)) then ([], [])
  else
    (cells.filter (fun c => stalls (f (s.cured (cells.erase c) us))),
      us.filter (fun u => stalls (f (s.cured cells (us.erase u)))))

/-- Whether the strand that issues gives this cycle up (R52): it issued a YIELD in the last one, and another strand of its core
could issue now. -/
def State.mustYield (f : Instr → State → Host.Outcome State Fault Refusal) (s : State) : Bool :=
  match s.cur.yieldAt with
  | none => false
  | some c =>
    let canIssue := fun (s : State) =>
      match s.boundary, decode (fetchFor s s.cur).halves with
      | .issue, .ok i => (match s.cur.yieldAt with | some d => decide (d + 1 < s.cycles) | none => true) && !stalls (f i s)
      | .issue, .error _ => true
      | _, _ => false
    decide (s.cycles ≤ c + 1) && s.strands.any (fun t =>
      t.live && t.core == s.cur.core && (s.select t.core t.slot).any canIssue)

/-- After an instruction of strand `t` has been tried: the books of the strand, and, after a YIELD, the next strand in
front (R52). A JWAIT or PRECV is the last it has issued until it issues another. -/
def State.settleNext (t : Strand) (why : List Nat × List Nat) (s : State) : State :=
  if s.cur.uid ≠ t.uid ∨ s.cur.live = false then s
  else if s.notIssued then s.onCur (fun u => { u.notIssued s.cycles with starved := why.1, stallIn := why.2 })
  else
    let s1 := s.onCur (fun u =>
      { u.issued s.timeNs with
        lastAt := if u.lastAt = t.lastAt then none else u.lastAt, yieldAt := if u.yielded then some s.cycles else none })
    if s.cur.yielded then s1.rotate else s1

/-- The outcome of an instruction `f` of the strand that issues in `s`; `t` is that strand before its fetch. -/
def settle (t : Strand) (f : State → Host.Outcome State Fault Refusal) (s : State) : Host.Outcome State Fault Refusal :=
  match f s with
  | .next s1 => .next (s1.settleNext t (s.stallsFor f))
  | .fault e => .fault e
  | .refused r => .refused r

/-! ### The machine's own choices -/

/-- An event with each place of a list. -/
def atEach (e : Instr) (n : Nat) : List (Instr × List Nat) := (List.range n).map (fun k => (e, [k]))

/-- An event with each number of a list, once. -/
def forEach (e : Instr) (l : List Nat) : List (Instr × List Nat) := (l.eraseDups).map (fun k => (e, [k]))

/-- An event with the core and slot of each strand of a list. -/
def forStrands (e : Instr) (l : List Strand) : List (Instr × List Nat) := l.map (fun (t : Strand) => (e, [t.core, t.slot]))

/-- The work in flight that goes on by itself: results, stores, messages, records, jobs. -/
def State.inFlight (s : State) : List (Instr × List Nat) :=
  atEach .longLatencyResult s.pends.length
  ++ (List.range s.pends.length).map (fun k => (.atomicPerform, [0, k]))
  ++ forEach .sfuEntryComplete (s.sfu.map (fun (e : SfuEntry) => e.core))
  ++ forEach .recurrenceComplete (s.recs.map (fun (e : RecEntry) => e.core))
  ++ atEach .forwardLand s.fwds.length
  ++ s.stores.zipIdx.map (fun (x : Store × Nat) => (.dieViewUpdate, [dieOf x.1.core, 0, x.2]))
  ++ (List.range s.stores.length).map (fun k => (.atomicPerform, [1, k]))
  ++ atEach .postedWriteAtOwner s.stores.length
  ++ s.updates.zipIdx.map (fun (x : Update × Nat) => (.dieViewUpdate, [x.1.die, 1, x.2]))
  ++ atEach .writeAcknowledgement s.updates.length
  ++ s.slices.map (fun (x : SliceByte) => (.sliceWriteback, [x.cluster, x.addr / 128]))
  ++ atEach .refreshMarker s.markers.length
  ++ atEach .storeFaultRecordArrival s.faultMsgs.length
  ++ atEach .nSpaceAccessAtTarget s.nops.length
  ++ forStrands .icinvAcknowledgement s.all
  ++ (List.range s.waits.length).map (fun k => (.syncEngineOperation, [0, k]))
  ++ (List.range s.syncs.length).map (fun k => (.syncEngineOperation, [1, k]))
  ++ atEach .waitReply s.waits.length
  ++ atEach .enqRecordArrival s.enqs.length ++ (List.range s.enqs.length).flatMap (fun k => (List.range 5).map (fun n => (.spawnPlace, [k, n])))
  ++ atEach .enqAckArrival s.acks.length ++ atEach .vc3CreditReturn s.creditRets.length
  ++ atEach .pipeItemArrival s.pipeItems.length ++ atEach .pipeCreditReturn s.pipeCredits.length
  ++ atEach .multicastFork s.mcasts.length ++ atEach .residueBranchSend s.mcasts.length
  ++ forEach .copyJobElementBlock (s.jobs.map (fun (j : Job) => j.core))
  ++ (s.jobs.map (fun (j : Job) => j.core)).eraseDups.map (fun c => (.copyJobElementBlock, [c, 2]))
  ++ forEach .copyJobComplete (s.jobs.map (fun (j : Job) => j.core))
  ++ forStrands .mxdrRowsTaken s.all
  ++ forEach .matrixRound (s.mxCmds.map (fun (c : MxCmd) => octetOf c.core))
  ++ forEach .mxqComplete (s.mxCmds.map (fun (c : MxCmd) => c.core))
  ++ forEach .auditSampleComplete (s.samples.map (fun (x : Sample) => x.octet)) ++ atEach .auditDeadline s.samples.length

/-- Messages and actors. -/
def State.actorWork (s : State) : List (Instr × List Nat) :=
  atEach .messageInject s.msgs.length ++ atEach .flowMessageArrival s.msgs.length ++ atEach .counterMessage s.msgs.length
  ++ atEach .hostRingDelivery s.msgs.length ++ atEach .twinItem s.msgs.length
  ++ atEach .heapProbeDone s.entries.length ++ atEach .activationComplete s.entries.length
  ++ (s.auditAdds.map (·.octet)).eraseDups.map (fun o => (.auditSampleComplete, [o, 0, 0, 0, 1]))
  ++ atEach .evictionWritebackDone s.entries.length ++ atEach .compareWindow s.entries.length
  ++ forEach .inputQueueCreditReturn s.inqRets ++ forEach .waystationFull (s.wsFull.map (fun (x : Nat × Nat × List Nat) => x.1))

/-- Dispatch, saves and the drover cores' own work. -/
def State.droverWork (s : State) : List (Instr × List Nat) :=
  let cores := (s.holds.map (fun (h : Hold) => h.core) ++ s.inq.map (fun (i : InItem) => i.core)).eraseDups
  cores.flatMap (fun c => (List.range 4).flatMap (fun n => [(.handlerStart, [c, n]), (.dispatch, [c, n])]))
  ++ forStrands .swapDelay s.all ++ forStrands .swapOut s.all ++ forStrands .forcedSave s.all
  ++ forStrands .forcedSave ((s.saved.filter (·.swap)).map (·.t))
  ++ s.saved.map (fun (v : Saved) => (.strandResume, [v.t.core, v.t.slot]))
  ++ s.holds.map (fun (h : Hold) => (.drainLimit, [h.core, h.launch]))
  ++ s.holds.map (fun (h : Hold) => (.teamRestore, [h.core, h.launch]))
  ++ s.holds.map (fun (h : Hold) => (.teamStart, [h.launch, h.unit]))
  ++ atEach .migrationPhaseEnd s.moves.length ++ atEach .sramRebuildDone s.softErrs.length
  ++ forEach .containment (s.notes.map (fun (n : DroverNote) => n.core)) ++ atEach .containmentResetDone s.contains.length
  ++ forEach .crossTrigger (s.xtNet.map (fun (x : Nat × Bool) => x.1))
  ++ [(.commandTake, []), (.launchCommand, []), (.teamEnd, []), (.messageCommand, []), (.endCommand, []),
      (.powerCommand, []), (.attestCommand, []), (.eventRingWrite, [])]
  ++ s.launches.flatMap (fun (l : Launch) => [(.leaseResidency, [l.id]), (.endDrainLimit, [l.id]), (.launchEnded, [l.id])])
  ++ s.link.powers.zipIdx.flatMap (fun (x : (Nat × Nat × List Nat × Nat) × Nat) =>
      x.1.2.2.1.map (fun c => (.powerTransitionDone, [x.2, c])))
  ++ atEach .uliWindow s.link.windows.length
  ++ (if s.link.starting then (List.range 4).map (fun d => (.startStep, [d, 1])) else [])

/-- The piece of work that the machine takes up where no schedule names one: each in its turn. -/
def State.chosen (s : State) : Option (Instr × List Nat) :=
  let l := s.inFlight ++ s.actorWork ++ s.droverWork
  l[s.cycles / 2 % l.length]?

end Sys2Proof.Machine
end

