-- ==== Sys2Proof/Machine/Vector.lean ====
section
/-! DEFINITION. The vector instructions: majors 20 to 26 except the recurrences and VFWD (R208 to R227). -/

namespace Sys2Proof.Machine

/-- VADD: A + B (R208). -/
def execVadd (x : VOp) (s : State) : Host.Outcome State Fault Refusal := vArith x fAdd (fun a b => a + b) s

/-- VSUB: A - B (R208). -/
def execVsub (x : VOp) (s : State) : Host.Outcome State Fault Refusal :=
  vArith x (fun f m sat a b => fAdd f m sat a b.negate) (fun a b => a - b) s

/-- VMUL: A * B (R208). -/
def execVmul (x : VOp) (s : State) : Host.Outcome State Fault Refusal := vArith x fMul (fun a b => a * b) s

/-- VFMA: A * B + C, rounded once (R208). -/
def execVfma (x : VOp) (s : State) : Host.Outcome State Fault Refusal := vFused x fFma (fun a b c => a * b + c) s

/-- VFMS: A * B - C, rounded once (R208). -/
def execVfms (x : VOp) (s : State) : Host.Outcome State Fault Refusal :=
  vFused x (fun f m sat a b c => fFma f m sat a b c.negate) (fun a b c => a * b - c) s

/-- VFNMA: -(A * B) + C, rounded once (R208). -/
def execVfnma (x : VOp) (s : State) : Host.Outcome State Fault Refusal :=
  vFused x (fun f m sat a b c => fFma f m sat a.negate b c) (fun a b c => c - a * b) s

/-- VMIN (R209). -/
def execVmin (x : VOp) (s : State) : Host.Outcome State Fault Refusal := vMinMax x false false s

/-- VMAX (R209). -/
def execVmax (x : VOp) (s : State) : Host.Outcome State Fault Refusal := vMinMax x true false s

/-- VMINN (R209). -/
def execVminn (x : VOp) (s : State) : Host.Outcome State Fault Refusal := vMinMax x false true s

/-- VMAXN (R209). -/
def execVmaxn (x : VOp) (s : State) : Host.Outcome State Fault Refusal := vMinMax x true true s

/-- VABS (R210). -/
def execVabs (x : VOp) (s : State) : Host.Outcome State Fault Refusal :=
  vput x [x.fa, x.fd] s (fun t i =>
    let a := t.lane x.a x.elem.w i
    match x.elem with
    | .flt f => signOp f a (a % 2 ^ (f.w - 1))
    | e => plain (e.resI x.p.sat (Int.ofNat (e.toInt a).natAbs)))

/-- VNEG (R210). -/
def execVneg (x : VOp) (s : State) : Host.Outcome State Fault Refusal :=
  vput x [x.fa, x.fd] s (fun t i =>
    let a := t.lane x.a x.elem.w i
    match x.elem with
    | .flt f => signOp f a (a ^^^ 2 ^ (f.w - 1))
    | e => plain (e.resI x.p.sat (-e.toInt a)))

/-- VAND (R211). -/
def execVand (x : VOp) (s : State) : Host.Outcome State Fault Refusal := vBits x (fun a b => a &&& b) s

/-- VOR (R211). -/
def execVor (x : VOp) (s : State) : Host.Outcome State Fault Refusal := vBits x (fun a b => a ||| b) s

/-- VXOR (R211). -/
def execVxor (x : VOp) (s : State) : Host.Outcome State Fault Refusal := vBits x (fun a b => a ^^^ b) s

/-- VSHL: Res(A * 2^n); every amount of 64 or more gives what 64 gives (R211). -/
def execVshl (x : VOp) (s : State) : Host.Outcome State Fault Refusal :=
  vput x [x.fa, x.fb, x.fd] s (fun t i =>
    let e := x.elem
    plain (e.resI x.p.sat (e.toInt (t.lane x.a e.w i) * 2 ^ (min (t.lane x.b e.w i) 64))))

/-- VSHR: logical; every amount of 64 or more gives 0 (R211). -/
def execVshr (x : VOp) (s : State) : Host.Outcome State Fault Refusal := vBits x (fun a n => a / 2 ^ (min n 64)) s

/-- VSRA: arithmetic; every amount of 64 or more gives sign bits (R211). -/
def execVsra (x : VOp) (s : State) : Host.Outcome State Fault Refusal :=
  vBits x (fun a n => wrapI (sext a x.elem.w / 2 ^ (min n 64)) x.elem.w) s

/-- VCEQ (R212, R80). -/
def execVceq (x : VOp) (s : State) : Host.Outcome State Fault Refusal := vCompare x false true false false false s

/-- VCNE (R212, R80). -/
def execVcne (x : VOp) (s : State) : Host.Outcome State Fault Refusal := vCompare x true false true true false s

/-- VCLT (R212, R80). -/
def execVclt (x : VOp) (s : State) : Host.Outcome State Fault Refusal := vCompare x true false false false true s

/-- VCLE (R212, R80). -/
def execVcle (x : VOp) (s : State) : Host.Outcome State Fault Refusal := vCompare x true true false false true s

/-- VSEL: m[k] selects in every lane (R213); vd is a source under R206. -/
def execVsel (x : VOp) (s : State) : Host.Outcome State Fault Refusal :=
  issue s { fields := [x.fa, x.fb, x.fd] } (fun s' =>
    vfinish s' x x.elem.w ((List.range x.elem.lanes).map (fun i =>
      plain (if (s.cur.mask x.p.m).getLsbD i then s.cur.lane x.a x.elem.w i else s.cur.lane x.b x.elem.w i))))

/-- The one-hot class of a float encoding (R214). -/
def classOf (f : Fmt) (b : Nat) : Nat :=
  match f.decode b with
  | .nan sg => if sg then 2 ^ 8 else 2 ^ 9
  | .inf s => if s then 2 ^ 0 else 2 ^ 7
  | .fin s m _ =>
    if m = 0 then (if s then 2 ^ 3 else 2 ^ 4)
    else if m < 2 ^ f.f then (if s then 2 ^ 2 else 2 ^ 5)
    else (if s then 2 ^ 1 else 2 ^ 6)

/-- VCLASS (R214). -/
def execVclass (x : VOp) (s : State) : Host.Outcome State Fault Refusal :=
  vput x [x.fa, x.fd] s (fun t i =>
    match x.elem with
    | .flt f => plain (classOf f (t.lane x.a x.elem.w i))
    | _ => plain 0)

/-- Whether every value of one integer type lies in the range of another (R82). -/
def holdsAll (src dst : Elem) : Bool := decide (dst.minT ≤ src.minT) && decide (src.maxT ≤ dst.maxT)

/-- Conv (R216): a lane of the source type in the destination type (R76, R82). DEDUCED (log entry 48): an infinity under sat = 1
becomes the greatest value, as R76's table of conversions has it, also where the two types are one. -/
def conv (src dst : Elem) (mode : RMode) (sat : Bool) (b : Nat) : FOut :=
  match src, dst with
  | .flt f, .flt g => g.roundTo mode sat (f.decode b)
  | .flt f, d => let r := toIntRange mode (f.decode b) d.minT d.maxT; ⟨wrapI r.1 d.w, r.2⟩
  | e, .flt g => g.roundTo mode sat (e.num b)
  | e, d =>
    if holdsAll e d then plain (wrapI (e.toInt b) d.w) else plain (d.resI sat (e.toInt b))

/-- The destination type of VCVT (R215): SUB = 1 names the sub-byte types. -/
def cvtDst (x : VOp) : Elem := elemOf (if x.pb then 8 + x.ty.toNat else x.ty.toNat)

/-- VCVT (R215, R216): destination lanes without a source lane are written 0 whatever the mask. -/
def execVcvt (x : VOp) (s : State) : Host.Outcome State Fault Refusal :=
  issue s { fields := [x.fa, x.fd] } (fun s' =>
    let src := elemOf x.b.toNat
    let dst := cvtDst x
    let n := min src.lanes dst.lanes
    vfinish s' x dst.w (putLanes s.cur x.p x.vd dst.w n (fun i =>
      conv src dst (s.cur.rmode x.p.rnd) x.p.sat (s.cur.lane x.a src.w i))))

/-- VMOV (R217). -/
def execVmov (x : VOp) (s : State) : Host.Outcome State Fault Refusal :=
  vput x [x.fa, x.fd] s (fun t i => plain (t.lane x.a x.elem.w i))

/-- Lane `j` of an operand, or 0 where the type has no lane `j`. -/
def laneOr0 (t : Strand) (f : BitVec 6) (e : Elem) (j : Nat) : Nat :=
  if j < e.lanes then t.lane f e.w j else 0

/-- VBCAST (R217). -/
def execVbcast (x : VOp) (s : State) : Host.Outcome State Fault Refusal :=
  vput x [x.fa, x.fb, x.fd] s (fun t _ =>
    plain (laneOr0 t x.a x.elem (t.gsrc x.b).toNat))

/-- VIDX: the lane number in the type, exactly (R217). -/
def execVidx (x : VOp) (s : State) : Host.Outcome State Fault Refusal :=
  vput x [x.fd] s (fun _ i =>
    match x.elem with
    | .flt f => plain (f.roundTo .rne false (Num.ofInt (Int.ofNat i))).bits
    | _ => plain i)

/-- VEXT (R218): sign-extended for I types; no entry into y. -/
def execVext (x : VOp) (s : State) : Host.Outcome State Fault Refusal :=
  issue s { fields := [x.fa, x.fb, .gd x.vd] } (fun s' =>
    let j := (s.cur.gsrc x.b).toNat
    let v : Word :=
      if x.elem.lanes ≤ j then 0
      else
        match x.elem with
        | .int w => BitVec.ofInt 64 (sext (s.cur.lane x.a w j) w)
        | e => BitVec.ofNat 64 (s.cur.lane x.a e.w j)
    finish s' x.len (fun t => t.onReg x.vd.toNat (fun r => r.put v)))

/-- VINS (R218): one lane, if the index names an active one. -/
def execVins (x : VOp) (s : State) : Host.Outcome State Fault Refusal :=
  issue s { fields := [x.fa, x.fb, .vd x.vd true] } (fun s' =>
    let j := (s.cur.gsrc x.b).toNat
    let w := x.elem.w
    vfinish s' x w ((List.range x.elem.lanes).map (fun i =>
      plain (if i = j ∧ act s.cur x.p j = true then (s.cur.gsrc x.a).toNat % 2 ^ w
             else laneOf (s.cur.vreg x.vd.toNat).val w i))))

/-- VSLIDE (R219): lane i - s, with s the signed g register. -/
def execVslide (x : VOp) (s : State) : Host.Outcome State Fault Refusal :=
  vput x [x.fa, x.fb, x.fd] s (fun t i =>
    let k : Int := Int.ofNat i - (t.gsrc x.b).toInt
    plain (if k < 0 then 0 else laneOr0 t x.a x.elem k.toNat))

/-- VPERM (R219). -/
def execVperm (x : VOp) (s : State) : Host.Outcome State Fault Refusal :=
  vput x [x.fa, x.fb, x.fd] s (fun t i =>
    plain (laneOr0 t x.a x.elem (t.lane x.b x.elem.w i)))

/-- VREDA (R220, R91). -/
def execVreda (x : VOp) (s : State) : Host.Outcome State Fault Refusal := vReduce x (fun t => redSum t x) s

/-- VREDX (R220). -/
def execVredx (x : VOp) (s : State) : Host.Outcome State Fault Refusal := vReduce x (fun t => redPick t x true) s

/-- VREDN (R220). -/
def execVredn (x : VOp) (s : State) : Host.Outcome State Fault Refusal := vReduce x (fun t => redPick t x false) s

/-- VSCAN (R221, R92). -/
def execVscan (x : VOp) (s : State) : Host.Outcome State Fault Refusal :=
  issue s { fields := [x.fa, x.fd] } (fun s' =>
    let t := s.cur
    match x.elem with
    | .flt f =>
      let l := activeOr t x (plain (negZero f)) (enterSum f)
      let r := scanSum f (t.rmode x.p.rnd) x.p.sat 1 (l.map (·.bits)) (orAll (l.map (·.fl))) x.elem.steps
      let outs := putLanes t x.p x.vd f.w x.elem.lanes (fun i => plain (r.1.getD i 0))
      finish s' x.len (fun u => (u.setV x.vd.toNat (outRow f.w outs)).orFlags (BitVec.ofNat 64 r.2))
    | e =>
      let l := (activeOr t x (plain 0) plain).map (fun o => e.toInt o.bits)
      let r := prefixSums 0 l
      vfinish s' x e.w (putLanes t x.p x.vd e.w e.lanes (fun i => plain (e.resI x.p.sat (r.getD i 0)))))

/-- The accumulator type of VDOT (R222). -/
def dotAcc (e : Elem) : Elem :=
  match e with
  | .flt _ => .flt Fmt.fp32
  | .int _ => .int 32
  | .nat _ => .nat 32

/-- VDOT (R222, R90): one rounding of the old lane and its two or four exact products. DEDUCED (log entry 48): the rounding
takes the prefix's saturate bit, as R222 writes it, where R90 writes 0. -/
def execVdot (x : VOp) (s : State) : Host.Outcome State Fault Refusal :=
  issue s { fields := [x.fa, x.fb, .vd x.vd true] } (fun s' =>
    let t := s.cur
    let e := x.elem
    let k := 32 / e.w
    vfinish s' x 32 (putLanes t x.p x.vd 32 32 (fun i =>
      let old := laneOf (t.vreg x.vd.toNat).val 32 i
      let js := (List.range k).map (fun j => k * i + j)
      match e with
      | .flt f =>
        let o := Fmt.fp32.decode old
        let as := js.map (fun j => f.decode (t.lane x.a e.w j))
        let bs := js.map (fun j => f.decode (t.lane x.b e.w j))
        fSum Fmt.fp32 (t.rmode x.p.rnd) x.p.sat (o :: as ++ bs) (⟨o, 0⟩ :: List.zipWith Num.mul as bs)
      | e =>
        plain ((dotAcc e).resI x.p.sat ((dotAcc e).toInt old
          + (js.map (fun j => e.toInt (t.lane x.a e.w j) * e.toInt (t.lane x.b e.w j))).sum)))))

/-- VRCP (R223, R224). -/
def execVrcp (x : VOp) (s : State) : Host.Outcome State Fault Refusal := vSpecial1 x fRcp s

/-- VRSQ (R223, R224). -/
def execVrsq (x : VOp) (s : State) : Host.Outcome State Fault Refusal := vSpecial1 x fRsq s

/-- VSQRT (R223, R224). -/
def execVsqrt (x : VOp) (s : State) : Host.Outcome State Fault Refusal := vSpecial1 x fSqrt s

/-- VEXP2 (R223, R224). -/
def execVexp2 (x : VOp) (s : State) : Host.Outcome State Fault Refusal := vSpecial1 x fExp2 s

/-- VLOG2 (R223, R224). -/
def execVlog2 (x : VOp) (s : State) : Host.Outcome State Fault Refusal := vSpecial1 x fLog2 s

/-- VTANH (R223, R224). -/
def execVtanh (x : VOp) (s : State) : Host.Outcome State Fault Refusal := vSpecial1 x fTanh s

/-- VSIGM (R223, R224). -/
def execVsigm (x : VOp) (s : State) : Host.Outcome State Fault Refusal := vSpecial1 x fSigm s

/-- VDIV (R223, R224); of integers, by R81. -/
def execVdiv (x : VOp) (s : State) : Host.Outcome State Fault Refusal :=
  vSpecial x [x.fa, x.fb, x.fd] (fun t i =>
    let a := t.lane x.a x.elem.w i
    let b := t.lane x.b x.elem.w i
    match x.elem with
    | .flt f => fDiv f (t.rmode x.p.rnd) x.p.sat (f.decode a) (f.decode b)
    | e => plain (wrapI (if e.toInt b = 0 then -1 else (e.toInt a).tdiv (e.toInt b)) e.w)) s

/-- VNOP (R225). -/
def execVnop (p : Option Pfx) (s : State) : Host.Outcome State Fault Refusal :=
  issue s { } (fun s' => finish s' (match p with | some _ => 8 | none => 4) (fun t => t))

/-- MAND (R226). -/
def execMand (x : VOp) (s : State) : Host.Outcome State Fault Refusal := vMask x (fun a b => a && b) s

/-- MOR (R226). -/
def execMor (x : VOp) (s : State) : Host.Outcome State Fault Refusal := vMask x (fun a b => a || b) s

/-- MXOR (R226). -/
def execMxor (x : VOp) (s : State) : Host.Outcome State Fault Refusal := vMask x (fun a b => a != b) s

/-- MNOT (R226). -/
def execMnot (x : VOp) (s : State) : Host.Outcome State Fault Refusal := vMask x (fun a _ => !a) s

/-- MPOP (R227): no entry into y. -/
def execMpop (x : VOp) (s : State) : Host.Outcome State Fault Refusal :=
  issue s { fields := [.gd x.vd] } (fun s' =>
    let a := s.cur.mask (x.a.setWidth 3)
    let n := ((List.range x.elem.lanes).filter (fun i => a.getLsbD i)).length
    finish s' x.len (fun t => t.onReg x.vd.toNat (fun r => r.put (BitVec.ofNat 64 n))))

/-- MSET (R227). -/
def execMset (x : VOp) (s : State) : Host.Outcome State Fault Refusal :=
  issue s { fields := [x.fb] } (fun s' =>
    let n := (clampI (s.cur.gsrc x.b).toInt 0 x.elem.lanes).toNat
    finish s' x.len (fun t => t.setM (x.vd.setWidth 3) (BitVec.ofNat 128 (2 ^ n - 1))))

end Sys2Proof.Machine
end

