-- ==== Sys2Proof/Machine/Dispatch.lean ====
section
/-! DEFINITION. What every instruction and every step of the machine's own does: one arm per constructor. -/

namespace Sys2Proof.Machine

open Sys2Proof

/-- The effect of an instruction, or of a step of the machine's own, on a state. -/
def exec (i : Instr) (s : State) : Host.Outcome State Fault Refusal :=
  match i with
  | .add x => Sys2Proof.Machine.execAdd x s
  | .sub x => Sys2Proof.Machine.execSub x s
  | .mul x => Sys2Proof.Machine.execMul x s
  | .mulh x => Sys2Proof.Machine.execMulh x s
  | .mulhn x => Sys2Proof.Machine.execMulhn x s
  | .div x => Sys2Proof.Machine.execDiv x s
  | .divn x => Sys2Proof.Machine.execDivn x s
  | .rem x => Sys2Proof.Machine.execRem x s
  | .remn x => Sys2Proof.Machine.execRemn x s
  | .and x => Sys2Proof.Machine.execAnd x s
  | .or x => Sys2Proof.Machine.execOr x s
  | .xor x => Sys2Proof.Machine.execXor x s
  | .andn x => Sys2Proof.Machine.execAndn x s
  | .orn x => Sys2Proof.Machine.execOrn x s
  | .shl x => Sys2Proof.Machine.execShl x s
  | .shr x => Sys2Proof.Machine.execShr x s
  | .sra x => Sys2Proof.Machine.execSra x s
  | .rot x => Sys2Proof.Machine.execRot x s
  | .min x => Sys2Proof.Machine.execMin x s
  | .max x => Sys2Proof.Machine.execMax x s
  | .minn x => Sys2Proof.Machine.execMinn x s
  | .maxn x => Sys2Proof.Machine.execMaxn x s
  | .seq x => Sys2Proof.Machine.execSeq x s
  | .sne x => Sys2Proof.Machine.execSne x s
  | .slt x => Sys2Proof.Machine.execSlt x s
  | .sltn x => Sys2Proof.Machine.execSltn x s
  | .sle x => Sys2Proof.Machine.execSle x s
  | .slen x => Sys2Proof.Machine.execSlen x s
  | .addw x => Sys2Proof.Machine.execAddw x s
  | .subw x => Sys2Proof.Machine.execSubw x s
  | .lea x => Sys2Proof.Machine.execLea x s
  | .leaw x => Sys2Proof.Machine.execLeaw x s
  | .clz x => Sys2Proof.Machine.execClz x s
  | .ctz x => Sys2Proof.Machine.execCtz x s
  | .popc x => Sys2Proof.Machine.execPopc x s
  | .brev x => Sys2Proof.Machine.execBrev x s
  | .abs x => Sys2Proof.Machine.execAbs x s
  | .neg x => Sys2Proof.Machine.execNeg x s
  | .sxtb x => Sys2Proof.Machine.execSxtb x s
  | .sxth x => Sys2Proof.Machine.execSxth x s
  | .sxtw x => Sys2Proof.Machine.execSxtw x s
  | .zxtb x => Sys2Proof.Machine.execZxtb x s
  | .zxth x => Sys2Proof.Machine.execZxth x s
  | .zxtw x => Sys2Proof.Machine.execZxtw x s
  | .addi x imm => Sys2Proof.Machine.execAddi x imm s
  | .andi x imm => Sys2Proof.Machine.execAndi x imm s
  | .ori x imm => Sys2Proof.Machine.execOri x imm s
  | .xori x imm => Sys2Proof.Machine.execXori x imm s
  | .slti x imm => Sys2Proof.Machine.execSlti x imm s
  | .shli x n => Sys2Proof.Machine.execShli x n s
  | .shri x n => Sys2Proof.Machine.execShri x n s
  | .srai x n => Sys2Proof.Machine.execSrai x n s
  | .li d imm => Sys2Proof.Machine.execLi d imm s
  | .liu d imm => Sys2Proof.Machine.execLiu d imm s
  | .bz x off => Sys2Proof.Machine.execBz x off s
  | .bnz x off => Sys2Proof.Machine.execBnz x off s
  | .bltz x off => Sys2Proof.Machine.execBltz x off s
  | .bgez x off => Sys2Proof.Machine.execBgez x off s
  | .blez x off => Sys2Proof.Machine.execBlez x off s
  | .bgtz x off => Sys2Proof.Machine.execBgtz x off s
  | .bodd x off => Sys2Proof.Machine.execBodd x off s
  | .bloop x off => Sys2Proof.Machine.execBloop x off s
  | .jal d off => Sys2Proof.Machine.execJal d off s
  | .jr x => Sys2Proof.Machine.execJr x s
  | .jalr x => Sys2Proof.Machine.execJalr x s
  | .trap code => Sys2Proof.Machine.execTrap code s
  | .crdBank0 n d => Sys2Proof.Machine.execCrdBank0 n d s
  | .crdBank1 n d => Sys2Proof.Machine.execCrdBank1 n d s
  | .cwrBank0 n x => Sys2Proof.Machine.execCwrBank0 n x s
  | .cwrBank1 n x => Sys2Proof.Machine.execCwrBank1 n x s
  | .fenceAcq scope => Sys2Proof.Machine.execFenceAcq scope s
  | .fenceRel scope => Sys2Proof.Machine.execFenceRel scope s
  | .fenceFull scope => Sys2Proof.Machine.execFenceFull scope s
  | .icinv scope x => Sys2Proof.Machine.execIcinv scope x s
  | .fencesp x => Sys2Proof.Machine.execFencesp x s
  | .susp x => Sys2Proof.Machine.execSusp x s
  | .spawn x => Sys2Proof.Machine.execSpawn x s
  | .ext x => Sys2Proof.Machine.execExt x s
  | .ins x => Sys2Proof.Machine.execIns x s
  | .lds x size off => Sys2Proof.Machine.execLds x size off s
  | .sts x size off => Sys2Proof.Machine.execSts x size off s
  | .pushs d => Sys2Proof.Machine.execPushs d s
  | .pops d => Sys2Proof.Machine.execPops d s
  | .ldn x size => Sys2Proof.Machine.execLdn x size s
  | .stn x size => Sys2Proof.Machine.execStn x size s
  | .lda d size off => Sys2Proof.Machine.execLda d size off s
  | .sta d size off => Sys2Proof.Machine.execSta d size off s
  | .ldk d size off => Sys2Proof.Machine.execLdk d size off s
  | .ldg x size ord scope pol => Sys2Proof.Machine.execLdg x size ord scope pol s
  | .stg x size ord scope pol => Sys2Proof.Machine.execStg x size ord scope pol s
  | .pfg x scope pol => Sys2Proof.Machine.execPfg x scope pol s
  | .ldh x size ord => Sys2Proof.Machine.execLdh x size ord s
  | .sth x size ord => Sys2Proof.Machine.execSth x size ord s
  | .aadd x dw => Sys2Proof.Machine.execAadd x dw s
  | .aand x dw => Sys2Proof.Machine.execAand x dw s
  | .aor x dw => Sys2Proof.Machine.execAor x dw s
  | .axor x dw => Sys2Proof.Machine.execAxor x dw s
  | .amin x dw => Sys2Proof.Machine.execAmin x dw s
  | .amax x dw => Sys2Proof.Machine.execAmax x dw s
  | .aminn x dw => Sys2Proof.Machine.execAminn x dw s
  | .amaxn x dw => Sys2Proof.Machine.execAmaxn x dw s
  | .axchg x dw => Sys2Proof.Machine.execAxchg x dw s
  | .acas x dw => Sys2Proof.Machine.execAcas x dw s
  | .afadd x => Sys2Proof.Machine.execAfadd x s
  | .aaddAr x dw => Sys2Proof.Machine.execAaddAr x dw s
  | .aandAr x dw => Sys2Proof.Machine.execAandAr x dw s
  | .aorAr x dw => Sys2Proof.Machine.execAorAr x dw s
  | .axorAr x dw => Sys2Proof.Machine.execAxorAr x dw s
  | .aminAr x dw => Sys2Proof.Machine.execAminAr x dw s
  | .amaxAr x dw => Sys2Proof.Machine.execAmaxAr x dw s
  | .aminnAr x dw => Sys2Proof.Machine.execAminnAr x dw s
  | .amaxnAr x dw => Sys2Proof.Machine.execAmaxnAr x dw s
  | .axchgAr x dw => Sys2Proof.Machine.execAxchgAr x dw s
  | .acasAr x dw => Sys2Proof.Machine.execAcasAr x dw s
  | .afaddAr x => Sys2Proof.Machine.execAfaddAr x s
  | .waitne x => Sys2Proof.Machine.execWaitne x s
  | .waiteq x => Sys2Proof.Machine.execWaiteq x s
  | .waitge x => Sys2Proof.Machine.execWaitge x s
  | .jwait x => Sys2Proof.Machine.execJwait x s
  | .jtest x => Sys2Proof.Machine.execJtest x s
  | .joininit x => Sys2Proof.Machine.execJoininit x s
  | .joindec x => Sys2Proof.Machine.execJoindec x s
  | .capb x => Sys2Proof.Machine.execCapb x s
  | .caps d => Sys2Proof.Machine.execCaps d s
  | .cape x => Sys2Proof.Machine.execCape x s
  | .capa x => Sys2Proof.Machine.execCapa x s
  | .capr x => Sys2Proof.Machine.execCapr x s
  | .capq x => Sys2Proof.Machine.execCapq x s
  | .send x => Sys2Proof.Machine.execSend x s
  | .sendc x => Sys2Proof.Machine.execSendc x s
  | .enq x => Sys2Proof.Machine.execEnq x s
  | .enqAck x => Sys2Proof.Machine.execEnqAck x s
  | .deq x => Sys2Proof.Machine.execDeq x s
  | .psend x => Sys2Proof.Machine.execPsend x s
  | .precv x => Sys2Proof.Machine.execPrecv x s
  | .eos x => Sys2Proof.Machine.execEos x s
  | .mcast x => Sys2Proof.Machine.execMcast x s
  | .netrx x => Sys2Proof.Machine.execNetrx x s
  | .fwd x dir slot => Sys2Proof.Machine.execFwd x dir slot s
  | .fwdArm d => Sys2Proof.Machine.execFwdArm d s
  | .launch x => Sys2Proof.Machine.execLaunch x s
  | .ackw x => Sys2Proof.Machine.execAckw x s
  | .tdef n x => Sys2Proof.Machine.execTdef n x s
  | .trel n => Sys2Proof.Machine.execTrel n s
  | .tstat n d => Sys2Proof.Machine.execTstat n d s
  | .cpyj n x => Sys2Proof.Machine.execCpyj n x s
  | .cpyjSt n x => Sys2Proof.Machine.execCpyjSt n x s
  | .cpyq n x => Sys2Proof.Machine.execCpyq n x s
  | .mxqF32 a b => Sys2Proof.Machine.execMxqF32 a b s
  | .mxqI32 a b => Sys2Proof.Machine.execMxqI32 a b s
  | .mxdrStF32 x => Sys2Proof.Machine.execMxdrStF32 x s
  | .mxdrAddF32 x => Sys2Proof.Machine.execMxdrAddF32 x s
  | .mxdrStI32 x => Sys2Proof.Machine.execMxdrStI32 x s
  | .mxdrAddI32 x => Sys2Proof.Machine.execMxdrAddI32 x s
  | .xmov n x => Sys2Proof.Machine.execXmov n x s
  | .xget n d => Sys2Proof.Machine.execXget n d s
  | .vadd x => Sys2Proof.Machine.execVadd x s
  | .vsub x => Sys2Proof.Machine.execVsub x s
  | .vmul x => Sys2Proof.Machine.execVmul x s
  | .vfma x => Sys2Proof.Machine.execVfma x s
  | .vfms x => Sys2Proof.Machine.execVfms x s
  | .vfnma x => Sys2Proof.Machine.execVfnma x s
  | .vmin x => Sys2Proof.Machine.execVmin x s
  | .vmax x => Sys2Proof.Machine.execVmax x s
  | .vminn x => Sys2Proof.Machine.execVminn x s
  | .vmaxn x => Sys2Proof.Machine.execVmaxn x s
  | .vabs x => Sys2Proof.Machine.execVabs x s
  | .vneg x => Sys2Proof.Machine.execVneg x s
  | .vand x => Sys2Proof.Machine.execVand x s
  | .vor x => Sys2Proof.Machine.execVor x s
  | .vxor x => Sys2Proof.Machine.execVxor x s
  | .vshl x => Sys2Proof.Machine.execVshl x s
  | .vceq x => Sys2Proof.Machine.execVceq x s
  | .vcne x => Sys2Proof.Machine.execVcne x s
  | .vclt x => Sys2Proof.Machine.execVclt x s
  | .vcle x => Sys2Proof.Machine.execVcle x s
  | .vsel x => Sys2Proof.Machine.execVsel x s
  | .vshr x => Sys2Proof.Machine.execVshr x s
  | .vsra x => Sys2Proof.Machine.execVsra x s
  | .vclass x => Sys2Proof.Machine.execVclass x s
  | .vcvt x => Sys2Proof.Machine.execVcvt x s
  | .vmov x => Sys2Proof.Machine.execVmov x s
  | .vbcast x => Sys2Proof.Machine.execVbcast x s
  | .vext x => Sys2Proof.Machine.execVext x s
  | .vins x => Sys2Proof.Machine.execVins x s
  | .vslide x => Sys2Proof.Machine.execVslide x s
  | .vperm x => Sys2Proof.Machine.execVperm x s
  | .vidx x => Sys2Proof.Machine.execVidx x s
  | .vreda x => Sys2Proof.Machine.execVreda x s
  | .vredx x => Sys2Proof.Machine.execVredx x s
  | .vredn x => Sys2Proof.Machine.execVredn x s
  | .vscan x => Sys2Proof.Machine.execVscan x s
  | .vlrs x => Sys2Proof.Machine.execVlrs x s
  | .tlrs x => Sys2Proof.Machine.execTlrs x s
  | .tema x => Sys2Proof.Machine.execTema x s
  | .vdot x => Sys2Proof.Machine.execVdot x s
  | .vrcp x => Sys2Proof.Machine.execVrcp x s
  | .vrsq x => Sys2Proof.Machine.execVrsq x s
  | .vsqrt x => Sys2Proof.Machine.execVsqrt x s
  | .vexp2 x => Sys2Proof.Machine.execVexp2 x s
  | .vlog2 x => Sys2Proof.Machine.execVlog2 x s
  | .vtanh x => Sys2Proof.Machine.execVtanh x s
  | .vsigm x => Sys2Proof.Machine.execVsigm x s
  | .vdiv x => Sys2Proof.Machine.execVdiv x s
  | .vfwd p dir slot vd => Sys2Proof.Machine.execVfwd p dir slot vd s
  | .vfwdArm p vd => Sys2Proof.Machine.execVfwdArm p vd s
  | .vnop p => Sys2Proof.Machine.execVnop p s
  | .mand x => Sys2Proof.Machine.execMand x s
  | .mor x => Sys2Proof.Machine.execMor x s
  | .mxor x => Sys2Proof.Machine.execMxor x s
  | .mnot x => Sys2Proof.Machine.execMnot x s
  | .mpop x => Sys2Proof.Machine.execMpop x s
  | .mset x => Sys2Proof.Machine.execMset x s
  | .cAdd d a b => Sys2Proof.Machine.execCAdd d a b s
  | .cSub d a b => Sys2Proof.Machine.execCSub d a b s
  | .cAnd d a b => Sys2Proof.Machine.execCAnd d a b s
  | .cOr d a b => Sys2Proof.Machine.execCOr d a b s
  | .cXor d a b => Sys2Proof.Machine.execCXor d a b s
  | .cMov d a => Sys2Proof.Machine.execCMov d a s
  | .cAddi d a imm => Sys2Proof.Machine.execCAddi d a imm s
  | .cShli d a imm => Sys2Proof.Machine.execCShli d a imm s
  | .cShri d a imm => Sys2Proof.Machine.execCShri d a imm s
  | .cSlt d a b => Sys2Proof.Machine.execCSlt d a b s
  | .cLi d imm => Sys2Proof.Machine.execCLi d imm s
  | .cLdsD d a off => Sys2Proof.Machine.execCLdsD d a off s
  | .cStsD d a off => Sys2Proof.Machine.execCStsD d a off s
  | .cLdsW d a off => Sys2Proof.Machine.execCLdsW d a off s
  | .cStsW d a off => Sys2Proof.Machine.execCStsW d a off s
  | .cLdaD d off => Sys2Proof.Machine.execCLdaD d off s
  | .cStaD d off => Sys2Proof.Machine.execCStaD d off s
  | .cBz a off => Sys2Proof.Machine.execCBz a off s
  | .cBnz a off => Sys2Proof.Machine.execCBnz a off s
  | .cJr a => Sys2Proof.Machine.execCJr a s
  | .eret => Sys2Proof.Machine.execEret s
  | .drainst => Sys2Proof.Machine.execDrainst s
  | .yield => Sys2Proof.Machine.execYield s
  | .exit => Sys2Proof.Machine.execExit s
  | .nop => Sys2Proof.Machine.execNop s
  | .bkpt => Sys2Proof.Machine.execBkpt s
  | .halt => Sys2Proof.Machine.execHalt s
  | .done => Sys2Proof.Machine.execDone s
  | .mxz => Sys2Proof.Machine.execMxz s
  | .audx => Sys2Proof.Machine.execAudx s
  | .xclr => Sys2Proof.Machine.execXclr s
  | .cNop => Sys2Proof.Machine.execCNop s
  | .cRet => Sys2Proof.Machine.execCRet s
  | .cExit => Sys2Proof.Machine.execCExit s
  | .cYield => Sys2Proof.Machine.execCYield s
  | .cDone => Sys2Proof.Machine.execCDone s
  | .cBkpt => Sys2Proof.Machine.execCBkpt s
  | .storeFault => Sys2Proof.Machine.execStoreFault s
  | .storeFaultRecordArrival => Sys2Proof.Machine.execStoreFaultRecordArrival s
  | .instructionFetch => Sys2Proof.Machine.execInstructionFetch s
  | .longLatencyResult => Sys2Proof.Machine.execLongLatencyResult s
  | .sfuEntryComplete => Sys2Proof.Machine.execSfuEntryComplete s
  | .recurrenceComplete => Sys2Proof.Machine.execRecurrenceComplete s
  | .forwardLand => Sys2Proof.Machine.execForwardLand s
  | .multicastFork => Sys2Proof.Machine.execMulticastFork s
  | .residueBranchSend => Sys2Proof.Machine.execResidueBranchSend s
  | .occupancyPropagate => Sys2Proof.Machine.execOccupancyPropagate s
  | .messageInject => Sys2Proof.Machine.execMessageInject s
  | .spawnPlace => Sys2Proof.Machine.execSpawnPlace s
  | .flowMessageArrival => Sys2Proof.Machine.execFlowMessageArrival s
  | .heapProbeDone => Sys2Proof.Machine.execHeapProbeDone s
  | .activationComplete => Sys2Proof.Machine.execActivationComplete s
  | .evictionWritebackDone => Sys2Proof.Machine.execEvictionWritebackDone s
  | .inputQueueCreditReturn => Sys2Proof.Machine.execInputQueueCreditReturn s
  | .waystationFull => Sys2Proof.Machine.execWaystationFull s
  | .remoteMessageArrival => Sys2Proof.Machine.execRemoteMessageArrival s
  | .handlerStart => Sys2Proof.Machine.execHandlerStart s
  | .twinItem => Sys2Proof.Machine.execTwinItem s
  | .compareWindow => Sys2Proof.Machine.execCompareWindow s
  | .dispatch => Sys2Proof.Machine.execDispatch s
  | .swapDelay => Sys2Proof.Machine.execSwapDelay s
  | .swapOut => Sys2Proof.Machine.execSwapOut s
  | .strandResume => Sys2Proof.Machine.execStrandResume s
  | .drainLimit => Sys2Proof.Machine.execDrainLimit s
  | .forcedSave => Sys2Proof.Machine.execForcedSave s
  | .teamRestore => Sys2Proof.Machine.execTeamRestore s
  | .copyJobComplete => Sys2Proof.Machine.execCopyJobComplete s
  | .matrixRound => Sys2Proof.Machine.execMatrixRound s
  | .mxqComplete => Sys2Proof.Machine.execMxqComplete s
  | .mxdrRowsTaken => Sys2Proof.Machine.execMxdrRowsTaken s
  | .auditSampleComplete => Sys2Proof.Machine.execAuditSampleComplete s
  | .auditDeadline => Sys2Proof.Machine.execAuditDeadline s
  | .postedWriteAtOwner => Sys2Proof.Machine.execPostedWriteAtOwner s
  | .dieViewUpdate => Sys2Proof.Machine.execDieViewUpdate s
  | .sliceWriteback => Sys2Proof.Machine.execSliceWriteback s
  | .refreshMarker => Sys2Proof.Machine.execRefreshMarker s
  | .atomicPerform => Sys2Proof.Machine.execAtomicPerform s
  | .waitReply => Sys2Proof.Machine.execWaitReply s
  | .counterMessage => Sys2Proof.Machine.execCounterMessage s
  | .enqRecordArrival => Sys2Proof.Machine.execEnqRecordArrival s
  | .enqAckArrival => Sys2Proof.Machine.execEnqAckArrival s
  | .vc3CreditReturn => Sys2Proof.Machine.execVc3CreditReturn s
  | .pipeItemArrival => Sys2Proof.Machine.execPipeItemArrival s
  | .pipeCreditReturn => Sys2Proof.Machine.execPipeCreditReturn s
  | .deadlock => Sys2Proof.Machine.execDeadlock s
  | .pageMove => Sys2Proof.Machine.execPageMove s
  | .migrationPhaseEnd => Sys2Proof.Machine.execMigrationPhaseEnd s
  | .sramRebuildDone => Sys2Proof.Machine.execSramRebuildDone s
  | .patrolScrub => Sys2Proof.Machine.execPatrolScrub s
  | .containment => Sys2Proof.Machine.execContainment s
  | .containmentResetDone => Sys2Proof.Machine.execContainmentResetDone s
  | .cqTail => Sys2Proof.Machine.execCqTail s
  | .cqBase => Sys2Proof.Machine.execCqBase s
  | .hostRegisterWrite => Sys2Proof.Machine.execHostRegisterWrite s
  | .commandTake => Sys2Proof.Machine.execCommandTake s
  | .launchCommand => Sys2Proof.Machine.execLaunchCommand s
  | .leaseResidency => Sys2Proof.Machine.execLeaseResidency s
  | .teamStart => Sys2Proof.Machine.execTeamStart s
  | .messageCommand => Sys2Proof.Machine.execMessageCommand s
  | .endCommand => Sys2Proof.Machine.execEndCommand s
  | .endDrainLimit => Sys2Proof.Machine.execEndDrainLimit s
  | .powerCommand => Sys2Proof.Machine.execPowerCommand s
  | .powerTransitionDone => Sys2Proof.Machine.execPowerTransitionDone s
  | .attestCommand => Sys2Proof.Machine.execAttestCommand s
  | .coldStart => Sys2Proof.Machine.execColdStart s
  | .warmStart => Sys2Proof.Machine.execWarmStart s
  | .startStep => Sys2Proof.Machine.execStartStep s
  | .thermalTrip => Sys2Proof.Machine.execThermalTrip s
  | .eventRingWrite => Sys2Proof.Machine.execEventRingWrite s
  | .hostRingDelivery => Sys2Proof.Machine.execHostRingDelivery s
  | .uliWindow => Sys2Proof.Machine.execUliWindow s
  | .teamEnd => Sys2Proof.Machine.execTeamEnd s
  | .launchEnded => Sys2Proof.Machine.execLaunchEnded s
  | .dbgHalt => Sys2Proof.Machine.execDbgHalt s
  | .dbgResume => Sys2Proof.Machine.execDbgResume s
  | .dbgStep => Sys2Proof.Machine.execDbgStep s
  | .crossTrigger => Sys2Proof.Machine.execCrossTrigger s
  | .dbgStrandWrite => Sys2Proof.Machine.execDbgStrandWrite s
  | .traceDump => Sys2Proof.Machine.execTraceDump s
  | .traceSample => Sys2Proof.Machine.execTraceSample s
  | .hostAccessToDeviceMemory => Sys2Proof.Machine.execHostAccessToDeviceMemory s
  | .nSpaceAccessAtTarget => Sys2Proof.Machine.execNSpaceAccessAtTarget s
  | .writeAcknowledgement => Sys2Proof.Machine.execWriteAcknowledgement s
  | .syncEngineOperation => Sys2Proof.Machine.execSyncEngineOperation s
  | .copyJobElementBlock => Sys2Proof.Machine.execCopyJobElementBlock s
  | .icinvAcknowledgement => Sys2Proof.Machine.execIcinvAcknowledgement s
  | .cornerTimeout => Sys2Proof.Machine.execCornerTimeout s
  | .softError => Sys2Proof.Machine.execSoftError s
  | .pseudoChannelLoss => Sys2Proof.Machine.execPseudoChannelLoss s

end Sys2Proof.Machine
end

