-- ==== Sys2Proof/Machine/Step.lean ====
section
/-! DEFINITION. One step of the machine: the next move of the schedule, or, where the schedule names none, the machine's
own choice; and a state in which a given instruction is the next to run. -/

namespace Sys2Proof.Machine

open Sys2Proof

/-- The instruction that issues (R395 step 4): it is fetched, decoded and executed. -/
def State.issueNext (s : State) : Host.Outcome State Fault Refusal :=
  let f := fetchFor s s.cur
  let s1 := f.s.onCur (fun t => { t with fetchBuf := f.buf })
  match f.fault with
  | some e => fetchFault s1 e.1 e.2
  | none =>
    match decode f.halves with
    | .error _ => trap s1 Cause.illegal (BitVec.ofNat 64 (joinHalves f.halves))
    | .ok i => settle s.cur (exec i) s1

/-- The strand that issues reaches its boundary (R395), or tests again what the instruction it has issued waits for. -/
def State.runCur (s : State) : Host.Outcome State Fault Refusal :=
  match s.boundary with
  | .done s1 => .next s1
  | .blocked => stall s
  | .trap s1 => storeFaultTrap s1
  | .issue => if s.mustYield exec then stall s else s.issueNext

/-- A move of the schedule. -/
def State.move (s : State) (m : Move) : Host.Outcome State Fault Refusal :=
  match m with
  | .issue core slot dc dn =>
    match (s.pass dc dn).select core slot with
    | none => .next (s.pass dc dn)
    | some s1 => s1.runCur
  | .event e pick dc dn =>
    if isEvent e then exec e { s.pass dc dn with pick := pick } else .fault .badSchedule

/-- The machine's own choice, with nothing scheduled: the strand in front issues; where it could not, one of the pieces of
work in flight goes on, and the next strand comes to the front. -/
def State.ownMove (s : State) : Host.Outcome State Fault Refusal :=
  let s1 := s.pass 1 1
  if s.stalled then
    match s1.chosen with
    | none => .next s1.rotate
    | some c => exec c.1 { s1.rotate with pick := c.2 }
  else if s.cur.live then s1.runCur
  else .next { s1.rotate with stalled := true }

/-- One step of the machine. -/
def step (s : State) : Host.Outcome State Fault Refusal :=
  match s.tape with
  | m :: ms => State.move { s with tape := ms } m
  | [] => s.ownMove

/-! ### A given instruction as the next to run -/

/-- A strand that runs in supervisor mode on slot 0 of core 0, at address 0 (R262). -/
def probeStrand : Strand :=
  { live := true, uid := 0, core := 0, slot := 0, mode := .supervisor, kind := .boot, gk := contRegs 0 [] }

/-- The state in which `step` fetches and runs the instruction of `nbits` bits `w`: its bytes lie at address 0 of die 0,
whose start map is in place (R262), and a boot strand is about to fetch from there. -/
def State.withFetchWord (s : State) (nbits w : Nat) : State :=
  let d : Die := { s.die 0 with startMap := true }
  { s with
    cur := probeStrand, strands := [], tape := [], stalled := false
    hbm := Mem.write s.hbm 0 8 (w % 2 ^ nbits), shadows := [], badUnits := [], softErrs := [], icache := [], islices := []
    dies := s.dies.set 0 d }

end Sys2Proof.Machine
end

