-- ==== Sys2Proof/Safety.lean ====
section
/-! DEFINITION. The terms in which the statements speak: when an instruction meets every check at issue (R39, R27, R28,
R395), and what one that has run leaves as it was. -/

namespace Sys2Proof

open Sys2Proof.Machine

/-- A field that lets its instruction issue: it names a register its place allows (R23); what it reads is full, no
result is pending on it and it holds no fault tag (R27, R193, R399); and no result is pending on what it writes
(R28). -/
def Clear (t : Strand) (f : Field) : Prop :=
  f.bad = false
  ∧ (f.src = true → ∀ c ∈ f.cells, t.cellFull c = true ∧ t.cellPend c = false ∧ t.cellTag c = none)
  ∧ (f.dst = true → ∀ c ∈ f.cells, t.cellPend c = false)

/-- Every check of the issue of an instruction passes: its fields, the order of majors 8 to 18 behind held operations and
behind what the strand has acquired (R195, R324), and the limits of an open capsule (R370). -/
structure Ready (s : State) (i : Issue) : Prop where
  fields : ∀ f ∈ i.fields, Clear s.cur f
  ordered : i.mem = true → s.cur.hold = 0 ∧ s.caughtUp s.cur = true
  capsule : capCheck s.cur i.cap i.fields i.own = none

/-- The registers other than `ds` keep what they hold; a register that no source field names keeps its
full/empty bit too (R237). Registers are numbered 0 to 55 for g and k and from 64 for v. -/
structure KeepsRegs (u t : Strand) (fs : List Field) (ds : List Nat) : Prop where
  scalar : ∀ c, c ∉ ds → (t.reg c).val = (u.reg c).val ∧ (t.reg c).pend = (u.reg c).pend
    ∧ (t.reg c).tag = (u.reg c).tag ∧ (t.reg c).mark = (u.reg c).mark
  vector : ∀ c, 64 + c ∉ ds → (t.vreg c).val = (u.vreg c).val ∧ (t.vreg c).pend = (u.vreg c).pend
    ∧ (t.vreg c).tag = (u.vreg c).tag ∧ (t.vreg c).mark = (u.vreg c).mark
  unread : ∀ c, c < 56 → c ∉ ds → (∀ f ∈ fs, f.src = true → c ∉ f.cells) → t.reg c = u.reg c
  unreadV : ∀ c, 64 + c ∉ ds → (∀ f ∈ fs, f.src = true → 64 + c ∉ f.cells) → t.vreg c = u.vreg c

/-- Strand `u` with the g, k, v and last-result registers, the program counter and the capsule step of `t`. -/
def Machine.Strand.withRegs (u t : Strand) : Strand :=
  { u with gk := t.gk, v := t.v, y := t.y, pc := t.pc, cap := t.cap }

/-- What every instruction that completes leaves alone on its strand: the registers it does not write, and the capsule
state but for the count of its step (R370). -/
structure Retires (s t : State) (fs : List Field) (ds : List Nat) : Prop where
  regs : KeepsRegs s.cur t.cur fs ds
  cap : t.cur.cap = s.cur.countStep.cap

/-- An instruction that changes registers of its strand alone: everything else of the machine is as it was. -/
structure RegsOnly (s t : State) (fs : List Field) (ds : List Nat) : Prop where
  base : Retires s t fs ds
  rest : t = { s with cur := s.cur.withRegs t.cur }

/-- Every byte of device memory, of the scratchpads and of host memory reads as before. -/
def SameMemory (s t : State) : Prop :=
  (∀ a, Mem.get t.hbm a = Mem.get s.hbm a) ∧ (∀ a, Mem.get t.spad a = Mem.get s.spad a)
  ∧ (∀ a, Mem.get t.host a = Mem.get s.host a)

/-- A scalar result (R25): `v` is in the register `d` names, which is full, and is y0, and the older last results move
down; the pc is past the instruction; nothing else changes. -/
structure ScalarResult (s t : State) (fs : List Field) (d : BitVec 6) (v : Word) (len : Nat) : Prop where
  value : d.toNat < 56 → (t.cur.reg d.toNat).val = v ∧ (t.cur.reg d.toNat).full = true
  last : t.cur.y = #v[v, s.cur.y[0], s.cur.y[1], s.cur.y[2]]
  pc : t.cur.pc = s.cur.pc + BitVec.ofNat 48 len
  only : RegsOnly s t fs [d.toNat]
  memory : SameMemory s t

/-- A row result (R25): `row` is in v register `n`, which is full; the last results stay; the pc is past the
instruction; nothing else changes. -/
structure RowResult (s t : State) (fs : List Field) (n : Nat) (row : Row) (len : Nat) : Prop where
  value : n < 32 → (t.cur.vreg n).val = row ∧ (t.cur.vreg n).full = true
  last : t.cur.y = s.cur.y
  pc : t.cur.pc = s.cur.pc + BitVec.ofNat 48 len
  only : RegsOnly s t fs [64 + n]
  memory : SameMemory s t

/-- A store of `n` bytes into a core's scratchpad (R244, R246): the bits that `mask` selects become those of `v`, the
others of those bytes stay, and no other byte of any memory changes. -/
structure SpadStore (s t : State) (core a n v mask : Nat) : Prop where
  bytes : ∀ i, i < n → Mem.get t.spad (spadKey core a + i) = byteOf (blend (s.spadRead core a n) v mask) i
  others : ∀ k, k < spadKey core a ∨ spadKey core a + n ≤ k → Mem.get t.spad k = Mem.get s.spad k
  hbm : ∀ k, Mem.get t.hbm k = Mem.get s.hbm k
  host : ∀ k, Mem.get t.host k = Mem.get s.host k

/-- The instruction completes as a store into the scratchpad of its core, and changes nothing else but its pc, what an
engine may still read in place of it (R69), and the errors of the words that it replaces (R414). -/
def StoresSpad (i : Instr) (s : State) (fs : List Field) (a n v mask len : Nat) : Prop :=
  ∃ t, exec i s = .next t ∧ t.cur.pc = s.cur.pc + BitVec.ofNat 48 len ∧ t.cur.y = s.cur.y ∧ Retires s t fs []
    ∧ t = { s with spad := t.spad, late := t.late, softErrs := t.softErrs, badWords := t.badWords, cur := s.cur.withRegs t.cur }
    ∧ SpadStore s t s.cur.core a n v mask

/-- A long-latency producer (R26) of the strand that issues: `p` joins the producers in flight, and its register is
empty until it completes. -/
def pendOf (s : State) (c : Nat) (acq : Bool) (op : PendOp) : Pend :=
  { uid := s.nextUid, strand := s.cur.uid, core := s.cur.core, launch := s.cur.launch,
    sup := s.cur.mode == .supervisor, dst := c, acq := acq, op := op, inj := if op.waits then 0 else s.nextUid
    left := 2 ^ op.unitCount - 1, clock := if op.waits then none else some (s.die (dieOf s.cur.core)).clock }

/-- The instruction completes at issue with a producer in flight for register `c` (0 to 55, 64 to 95, or 60 for none), which is
empty meanwhile; an acquiring one holds back later accesses; nothing else changes. -/
def Pends (i : Instr) (s : State) (fs : List Field) (c : Nat) (acq : Bool) (op : PendOp) (len : Nat) : Prop :=
  ∃ t, exec i s = .next t ∧ t.pends = s.pends ++ [pendOf s c acq op] ∧ t.nextUid = s.nextUid + 1
    ∧ t.cur.pc = s.cur.pc + BitVec.ofNat 48 len ∧ t.cur.y = s.cur.y ∧ t.cur.hold = s.cur.hold + acq.toNat
    ∧ (c < 56 → (t.cur.reg c).full = false ∧ (t.cur.reg c).pend = true)
    ∧ (64 ≤ c → c < 96 → (t.cur.vreg (c - 64)).full = false ∧ (t.cur.vreg (c - 64)).pend = true)
    ∧ t.cur.lastAt = (if op.isReceive then some ⟨s.cur.pc, s.nextUid, t.cur.emptiedCells s.cur⟩ else s.cur.lastAt)
    ∧ Retires s t fs [c]
    ∧ t = { s with pends := t.pends, nextUid := t.nextUid,
                   cur := { s.cur.withRegs t.cur with hold := t.cur.hold, lastAt := t.cur.lastAt } }
    ∧ SameMemory s t

/-- The strand waits inside its instruction for a reply that will write `d` (R28): sources have been read, and `d` keeps its
value; if it is empty, a write is pending on it. -/
structure Books (s t : State) (fs : List Field) (d : BitVec 6) : Prop where
  base : Retires s t fs [d.toNat]
  kept : d.toNat < 56 → (t.cur.reg d.toNat).val = (s.cur.reg d.toNat).val
    ∧ ((t.cur.reg d.toNat).full = false → (t.cur.reg d.toNat).pend = true)

/-- A posted store of the strand that issues (R400): `st` with its own numbers and the size class of its request (R270), as
it joins the stores in flight: in one piece for each 8-byte unit (R246). -/
def postOf (s : State) (st : Store) : List Store :=
  ((unitsOf st.addr st.size).zipIdx).map (fun u =>
    { st with uid := s.nextUid + u.2, ord := s.nextUid, strand := s.cur.uid, seq := s.cur.posted, core := s.cur.core,
              launch := s.cur.launch, sup := s.cur.mode == .supervisor,
              inj := if st.atomic.isSome && st.rel then 0 else s.nextUid, cls := (s.reqCur s.cur st.addr).cls,
              addr := u.1.1, size := u.1.2, base := st.addr, span := st.size,
              val := cut st.val st.addr u.1, mask := cut st.mask st.addr u.1 })

/-- The instruction completes at issue with a store in flight, which takes the strand's next sequence number; no byte of
memory changes yet. -/
def Posts (i : Instr) (s : State) (fs : List Field) (st : Store) (len : Nat) : Prop :=
  ∃ t, exec i s = .next t ∧ t.stores = s.stores ++ postOf s st ∧ t.nextUid = s.nextUid + (postOf s st).length
    ∧ t.cur.pc = s.cur.pc + BitVec.ofNat 48 len ∧ t.cur.y = s.cur.y ∧ t.cur.posted = (s.cur.posted + 1) % 65536
    ∧ Retires s t fs []
    ∧ t = { s with stores := t.stores, nextUid := t.nextUid,
                   cur := { s.cur.withRegs t.cur with posted := t.cur.posted } }
    ∧ SameMemory s t

/-- The instruction takes a trap of cause `c` (R393) with TRAP_INFO `info`. -/
def Traps (i : Instr) (s : State) (c : Nat) (info : Word) : Prop := exec i s = .next (takeTrap s c info)

/-- The instruction does not issue (R8): nothing changes but that another strand, or other work, comes next. -/
def Stalls (i : Instr) (s : State) : Prop := exec i s = .next { s with stalled := true }

/-- What a vector instruction does that raises flags (R64, R206): exactly the flags `fl` of the lanes `i` below `n` that
`on` picks are ORed into the status register of the strand's mode; the other status register stays. -/
structure RaisesFlags (s t : State) (n : Nat) (on : Nat → Bool) (fl : Nat → Nat) : Prop where
  own : ∀ b, b < 64 → t.cur.modeStatus.getLsbD b =
    (s.cur.modeStatus.getLsbD b || (List.range n).any (fun i => on i && (fl i).testBit b))
  launch : s.cur.mode = .supervisor → t.cur.status = s.cur.status
  supervisor : s.cur.mode = .launch → t.cur.svStatus = s.cur.svStatus

/-- Put (R204, R206) in lanes of `w` bits, `n` of them: an active lane of vd takes the value `out` gives it and raises its
flags, an inactive one becomes 0 or stays; lanes past them are 0; the last results stay, the pc is past the word and its
prefix, and nothing else changes. -/
structure PutsLanes (s t : State) (x : VOp) (fs : List Field) (w n : Nat) (out : Nat → FOut) : Prop where
  lanes : ∀ i, i < n → laneOf (t.cur.vreg x.vd.toNat).val w i =
    (if act s.cur x.p i then (out i).bits % 2 ^ w else if x.p.zero then 0 else laneOf (s.cur.vreg x.vd.toNat).val w i)
  above : ∀ i, n ≤ i → i < 1024 / w → laneOf (t.cur.vreg x.vd.toNat).val w i = 0
  full : (t.cur.vreg x.vd.toNat).full = true
  flags : RaisesFlags s t n (fun i => act s.cur x.p i) (fun i => (out i).fl)
  last : t.cur.y = s.cur.y
  pc : t.cur.pc = s.cur.pc + BitVec.ofNat 48 x.len
  base : Retires s t fs [64 + x.vd.toNat]
  rest : t = { s with cur := { s.cur.withRegs t.cur with status := t.cur.status, svStatus := t.cur.svStatus } }
  memory : SameMemory s t

/-- The instruction completes as a Put over every lane of its type. -/
def Puts (i : Instr) (s : State) (x : VOp) (fs : List Field) (out : Nat → FOut) : Prop :=
  ∃ t, exec i s = .next t ∧ PutsLanes s t x fs x.elem.w x.elem.lanes out

/-- A result and its flags: what a float type gives for the decoded operands, or Res of an integer for an integer type
(R204, R208). -/
def byType (x : VOp) (flt : Fmt → FOut) (int : Elem → Int) : FOut :=
  match x.elem with
  | .flt f => flt f
  | e => ⟨e.resI x.p.sat (int e), 0⟩

/-- The fields of a two-source scalar word (R40). -/
def fields3 (x : A3) : List Field := [.s x.a x.pa 14, .s x.b x.pb 21, .d x.d 7]

/-- The fields of a one-source scalar word (R42, R43). -/
def fields2 (x : A2) : List Field := [.s x.a x.pa 14, .d x.d 7]

/-- The instruction completes with a scalar result. -/
def Yields (i : Instr) (s : State) (fs : List Field) (d : BitVec 6) (v : Word) (len : Nat) : Prop :=
  ∃ t, exec i s = .next t ∧ ScalarResult s t fs d v len

/-- The low 64 bits of an exact value (R40). -/
def low64 (v : Int) : Word := BitVec.ofInt 64 v

/-- 1 where a condition holds, else 0. -/
def oneIf (p : Prop) [Decidable p] : Word := if p then 1 else 0

end Sys2Proof
end

