-- ==== Sys2Proof/Certificates/Slice0/Obligations.lean ====
section
/-! DEFINITION. The statements about the machine. -/

open Sys2Proof Sys2Proof.Machine

/-- The instruction at each place of the list has the word `w` gives that place (R30). -/
def Encoded (is : List Instr) (w : Nat → Nat) : Prop :=
  ∀ fn i, is[fn]? = some i → encode i = [w fn % 65536, w fn / 65536]

/-- R40: the 32 instructions of major 0 have the words of one form; each that issues writes the low 64 bits of its exact
value into d and into the last-result file, moves past itself, and changes nothing else. -/
def Obligations.ScalarTwoSourceResults : Prop :=
  (∀ x : A3, Encoded [.add x, .sub x, .mul x, .mulh x, .mulhn x, .div x, .divn x, .rem x, .remn x, .and x, .or x, .xor x,
      .andn x, .orn x, .shl x, .shr x, .sra x, .rot x, .min x, .max x, .minn x, .maxn x, .seq x, .sne x, .slt x, .sltn x,
      .sle x, .slen x, .addw x, .subw x, .lea x, .leaw x] (fun fn =>
    fn * 2 ^ 27 + x.b.toNat * 2 ^ 21 + x.pb.toNat * 2 ^ 20 + x.a.toNat * 2 ^ 14 + x.pa.toNat * 2 ^ 13 + x.d.toNat * 2 ^ 7
      + 3))
  ∧ ∀ (s : State) (x : A3), Ready s { fields := fields3 x, cap := .allowed } →
    let a := s.cur.val x.a
    let b := s.cur.val x.b
    let n := b.toNat % 64
    let gives := fun (i : Instr) (v : Word) => Yields i s (fields3 x) x.d v 4
    (gives (.add x) (low64 (a.toInt + b.toInt)) ∧ gives (.sub x) (low64 (a.toInt - b.toInt))
      ∧ gives (.mul x) (low64 (a.toInt * b.toInt))
      ∧ gives (.mulh x) (low64 (a.toInt * b.toInt / 2 ^ 64))
      ∧ gives (.mulhn x) (low64 (Int.ofNat (a.toNat * b.toNat / 2 ^ 64))))
    ∧ (gives (.div x) (if b.toInt = 0 then low64 (-1) else low64 (a.toInt.tdiv b.toInt))
      ∧ gives (.divn x) (if b.toNat = 0 then low64 (-1) else low64 (Int.ofNat (a.toNat / b.toNat)))
      ∧ gives (.rem x) (if b.toInt = 0 then a else low64 (a.toInt - b.toInt * a.toInt.tdiv b.toInt))
      ∧ gives (.remn x) (if b.toNat = 0 then a else low64 (Int.ofNat (a.toNat - b.toNat * (a.toNat / b.toNat)))))
    ∧ (gives (.and x) (a &&& b) ∧ gives (.or x) (a ||| b) ∧ gives (.xor x) (a ^^^ b)
      ∧ gives (.andn x) (a &&& ~~~b) ∧ gives (.orn x) (a ||| ~~~b))
    ∧ (gives (.shl x) (low64 (Int.ofNat (a.toNat * 2 ^ n))) ∧ gives (.shr x) (low64 (Int.ofNat (a.toNat / 2 ^ n)))
      ∧ gives (.sra x) (low64 (a.toInt / 2 ^ n)) ∧ gives (.rot x) (a.rotateRight n))
    ∧ (gives (.min x) (if a.toInt < b.toInt then a else b) ∧ gives (.max x) (if b.toInt < a.toInt then a else b)
      ∧ gives (.minn x) (if a.toNat < b.toNat then a else b) ∧ gives (.maxn x) (if b.toNat < a.toNat then a else b))
    ∧ (gives (.seq x) (oneIf (a = b)) ∧ gives (.sne x) (oneIf (a ≠ b)) ∧ gives (.slt x) (oneIf (a.toInt < b.toInt))
      ∧ gives (.sltn x) (oneIf (a.toNat < b.toNat)) ∧ gives (.sle x) (oneIf (a.toInt ≤ b.toInt))
      ∧ gives (.slen x) (oneIf (a.toNat ≤ b.toNat)))
    ∧ (gives (.addw x) ((a.setWidth 32 + b.setWidth 32).signExtend 64)
      ∧ gives (.subw x) ((a.setWidth 32 - b.setWidth 32).signExtend 64)
      ∧ gives (.lea x) (low64 (Int.ofNat (a.toNat + 8 * b.toNat)))
      ∧ gives (.leaw x) (low64 (Int.ofNat (a.toNat + 4 * b.toNat))))

/-- n is the count of zero bits above the highest bit set (R42). -/
def leadingZeros (a : Word) (n : Nat) : Prop :=
  n ≤ 64 ∧ (∀ i, 64 - n ≤ i → i < 64 → a.getLsbD i = false) ∧ (n < 64 → a.getLsbD (63 - n) = true)

/-- n is the count of zero bits below the lowest bit set (R42). -/
def trailingZeros (a : Word) (n : Nat) : Prop :=
  n ≤ 64 ∧ (∀ i, i < n → a.getLsbD i = false) ∧ (n < 64 → a.getLsbD n = true)

/-- R42: the instructions of major 1, their words, and the minors that stand for none. -/
def Obligations.ScalarOneSourceResults : Prop :=
  (∀ x : A2, Encoded [.clz x, .ctz x, .popc x, .brev x, .abs x, .neg x, .sxtb x, .sxth x, .sxtw x, .zxtb x, .zxth x,
      .zxtw x] (fun fn => fn * 2 ^ 27 + x.a.toNat * 2 ^ 14 + x.pa.toNat * 2 ^ 13 + x.d.toNat * 2 ^ 7 + 4 + 3))
  ∧ (∀ w, w < 2 ^ 32 → w % 128 = 7 → 12 ≤ w / 2 ^ 27 → decodeTableWord 32 w = none)
  ∧ ∀ (s : State) (x : A2), Ready s { fields := fields2 x, cap := .allowed } →
    let a := s.cur.val x.a
    let gives := fun (i : Instr) (v : Word) => Yields i s (fields2 x) x.d v 4
    ((∃ n, leadingZeros a n ∧ gives (.clz x) (low64 n)) ∧ (∃ n, trailingZeros a n ∧ gives (.ctz x) (low64 n))
      ∧ gives (.popc x) (low64 (((List.range 64).filter (fun i => a.getLsbD i)).length))
      ∧ (∃ v : Word, (∀ i, i < 64 → v.getLsbD i = a.getLsbD (63 - i)) ∧ gives (.brev x) v))
    ∧ (gives (.abs x) (low64 (if a.toInt < 0 then -a.toInt else a.toInt)) ∧ gives (.neg x) (low64 (-a.toInt)))
    ∧ (gives (.sxtb x) ((a.setWidth 8).signExtend 64) ∧ gives (.sxth x) ((a.setWidth 16).signExtend 64)
      ∧ gives (.sxtw x) ((a.setWidth 32).signExtend 64))
    ∧ (gives (.zxtb x) (low64 (Int.ofNat (a.toNat % 2 ^ 8))) ∧ gives (.zxth x) (low64 (Int.ofNat (a.toNat % 2 ^ 16)))
      ∧ gives (.zxtw x) (low64 (Int.ofNat (a.toNat % 2 ^ 32))))

/-- R43: the register-immediate operations of major 2, at every immediate the words admit. -/
def ShortImmediates : Prop :=
  ∀ (s : State) (x : A2) (imm : BitVec 9) (n : BitVec 6), Ready s { fields := fields2 x, cap := .allowed } →
    let a := s.cur.val x.a
    let gives := fun (i : Instr) (v : Word) => Yields i s (fields2 x) x.d v 4
    gives (.addi x imm) (low64 (a.toInt + imm.toInt))
    ∧ gives (.andi x imm) (a &&& low64 imm.toInt) ∧ gives (.ori x imm) (a ||| low64 imm.toInt)
    ∧ gives (.xori x imm) (a ^^^ low64 imm.toInt) ∧ gives (.slti x imm) (oneIf (a.toInt < imm.toInt))
    ∧ gives (.shli x n) (low64 (Int.ofNat (a.toNat * 2 ^ n.toNat)))
    ∧ gives (.shri x n) (low64 (Int.ofNat (a.toNat / 2 ^ n.toNat)))
    ∧ gives (.srai x n) (low64 (a.toInt / 2 ^ n.toNat))

/-- R44: LI and LIU load their immediates. -/
def LongImmediates : Prop :=
  ∀ (s : State) (d : BitVec 6) (imm : BitVec 19), Ready s { fields := [.d d 7], cap := .allowed } →
    Yields (.li d imm) s [.d d 7] d (low64 imm.toInt) 4
    ∧ Yields (.liu d imm) s [.d d 7] d (low64 (imm.toInt * 2 ^ 13)) 4

/-- R43, R44: the operations with an immediate. -/
def Obligations.ImmediateResults : Prop :=
  ShortImmediates ∧ LongImmediates

/-- R37: a compact word has the effect of its 32-bit equivalent, on g0 to g7. -/
def Obligations.CompactResults : Prop :=
  ∀ (s : State) (d a b : BitVec 3),
    (Ready s { fields := [.s (c3 a) false 9, .s (c3 b) false 12, .d (c3 d) 6] } →
      let va := s.cur.val (c3 a)
      let vb := s.cur.val (c3 b)
      let gives := fun (i : Instr) (v : Word) =>
        Yields i s [.s (c3 a) false 9, .s (c3 b) false 12, .d (c3 d) 6] (c3 d) v 2
      gives (.cAdd d a b) (low64 (va.toInt + vb.toInt)) ∧ gives (.cSub d a b) (low64 (va.toInt - vb.toInt))
      ∧ gives (.cAnd d a b) (va &&& vb) ∧ gives (.cOr d a b) (va ||| vb) ∧ gives (.cXor d a b) (va ^^^ vb)
      ∧ gives (.cSlt d a b) (oneIf (va.toInt < vb.toInt)))
    ∧ (∀ imm : BitVec 4, Ready s { fields := [.s (c3 a) false 9, .d (c3 d) 6] } →
      let va := s.cur.val (c3 a)
      let gives := fun (i : Instr) (v : Word) => Yields i s [.s (c3 a) false 9, .d (c3 d) 6] (c3 d) v 2
      gives (.cMov d a) va ∧ gives (.cAddi d a imm) (low64 (va.toInt + imm.toInt))
      ∧ gives (.cShli d a imm) (low64 (Int.ofNat (va.toNat * 2 ^ imm.toNat)))
      ∧ gives (.cShri d a imm) (low64 (Int.ofNat (va.toNat / 2 ^ imm.toNat))))
    ∧ (∀ imm : BitVec 7, Ready s { fields := [.d (c3 d) 6] } →
      Yields (.cLi d imm) s [.d (c3 d) 6] (c3 d) (low64 imm.toInt) 2)

/-- R59, R60: EXT, INS and XGET write a scalar result; XMOV writes e[i] and enters y0; XCLR clears e0 to e7. -/
def Obligations.BitfieldAndExtensionResults : Prop :=
  ∀ (s : State),
    (∀ x : A2,
      let e6 := s.cur.ext 6
      let p := e6.toNat % 64
      let n := min (e6.toNat / 2 ^ 8 % 2 ^ 7) (64 - p)
      let a := s.cur.val x.a
      let f := a.toNat / 2 ^ p % 2 ^ n
      (Ready s { fields := fields2 x } →
        Yields (.ext x) s (fields2 x) x.d
          (low64 (if e6.getLsbD 15 = true ∧ 0 < n ∧ 2 ^ (n - 1) ≤ f then Int.ofNat f - 2 ^ n else Int.ofNat f)) 4)
      ∧ (Ready s { fields := [.s x.a x.pa 14, .sd x.d false 7] } →
        ∃ v, Yields (.ins x) s [.s x.a x.pa 14, .sd x.d false 7] x.d v 4
          ∧ ∀ i, i < 64 → v.getLsbD i =
            (if p ≤ i ∧ i < p + n then a.getLsbD (i - p) else (s.cur.val x.d).getLsbD i)))
    ∧ (∀ (i : BitVec 3) (d : BitVec 6), Ready s { fields := [.d d 7] } →
        Yields (.xget i d) s [.d d 7] d (s.cur.ext i) 4)
    ∧ (∀ (i : BitVec 3) (x : A1), Ready s { fields := [.s x.a x.pa 14] } →
        ∃ t, exec (.xmov i x) s = .next t ∧ (∀ j, t.cur.ext j = if j = i then s.cur.val x.a else s.cur.ext j)
          ∧ t.cur.y = #v[s.cur.val x.a, s.cur.y[0], s.cur.y[1], s.cur.y[2]] ∧ t.cur.pc = s.cur.pc + 4
          ∧ Retires s t [.s x.a x.pa 14] []
          ∧ t = { s with cur := { s.cur.withRegs t.cur with e := t.cur.e } } ∧ SameMemory s t)
    ∧ (Ready s { } →
        ∃ t, exec .xclr s = .next t ∧ (∀ j, t.cur.ext j = 0) ∧ t.cur.y = s.cur.y ∧ t.cur.pc = s.cur.pc + 4
          ∧ Retires s t [] [] ∧ t = { s with cur := { s.cur.withRegs t.cur with e := t.cur.e } } ∧ SameMemory s t)

/-- The machine after an instruction that writes no register: the pc is `pc`, and nothing else has changed. -/
def Moves (i : Instr) (s : State) (fs : List Field) (pc : Addr) : Prop :=
  ∃ t, exec i s = .next t ∧ t.cur.pc = pc ∧ t.cur.y = s.cur.y ∧ RegsOnly s t fs [] ∧ SameMemory s t

/-- R46: a conditional branch goes to its own address plus twice its offset where its condition holds, else past
itself, and writes nothing. -/
def ConditionalGo : Prop :=
  (∀ (x : A1) (off : BitVec 15), Encoded [.bz x off, .bnz x off, .bltz x off, .bgez x off, .blez x off, .bgtz x off,
      .bodd x off, .bloop x off] (fun cond =>
    off.toNat * 2 ^ 17 + cond * 2 ^ 14 + x.pa.toNat * 2 ^ 13 + x.a.toNat * 2 ^ 7 + 5 * 2 ^ 2 + 3))
  ∧ ∀ (s : State) (x : A1) (off : BitVec 15), Ready s { fields := [.s x.a x.pa 7], cap := .allowed } →
    let v := s.cur.val x.a
    let goes := fun (i : Instr) (taken : Prop) [Decidable taken] =>
      Moves i s [.s x.a x.pa 7] (if taken then BitVec.ofInt 48 (Int.ofNat s.cur.pc.toNat + 2 * off.toInt) else s.cur.pc + 4)
    goes (.bz x off) (v.toInt = 0) ∧ goes (.bnz x off) (v.toInt ≠ 0) ∧ goes (.bltz x off) (v.toInt < 0)
    ∧ goes (.bgez x off) (0 ≤ v.toInt) ∧ goes (.blez x off) (v.toInt ≤ 0) ∧ goes (.bgtz x off) (0 < v.toInt)
    ∧ goes (.bodd x off) (v.getLsbD 0 = true)

/-- R47: BLOOP writes the count less one into a and y0, and branches where that is not zero; on y0 to y3 it raises
ILLEGAL_REG, with the specifier and the position of its field in TRAP_INFO (R39). -/
def BloopCounts : Prop :=
  (∀ (s : State) (x : A1) (off : BitVec 15), 56 ≤ x.a.toNat → x.a.toNat < 60 →
    exec (.bloop x off) s = .next (takeTrap s 0x02 (BitVec.ofNat 64 (7 * 256 + x.a.toNat))))
  ∧ ∀ (s : State) (x : A1) (off : BitVec 15), Ready s { fields := [.sd x.a x.pa 7], cap := .allowed } →
    let n := s.cur.val x.a - 1
    ∃ t, exec (.bloop x off) s = .next t
      ∧ (x.a.toNat < 56 → (t.cur.reg x.a.toNat).val = n ∧ (t.cur.reg x.a.toNat).full = true)
      ∧ t.cur.y = #v[n, s.cur.y[0], s.cur.y[1], s.cur.y[2]]
      ∧ t.cur.pc = (if n ≠ 0 then BitVec.ofInt 48 (Int.ofNat s.cur.pc.toNat + 2 * off.toInt) else s.cur.pc + 4)
      ∧ RegsOnly s t [.sd x.a x.pa 7] [x.a.toNat] ∧ SameMemory s t

/-- R37, R46: the compact branches. -/
def CompactGo : Prop :=
  ∀ (s : State) (a : BitVec 3) (off : BitVec 7), Ready s { fields := [.s (c3 a) false 5] } →
    let v := s.cur.val (c3 a)
    let goes := fun (i : Instr) (taken : Prop) [Decidable taken] =>
      Moves i s [.s (c3 a) false 5] (if taken then BitVec.ofInt 48 (Int.ofNat s.cur.pc.toNat + 2 * off.toInt) else s.cur.pc + 2)
    goes (.cBz a off) (v = 0) ∧ goes (.cBnz a off) (v ≠ 0)

/-- R46, R47, R37: the conditional branches, BLOOP and the compact branches. -/
def Obligations.Branches : Prop :=
  ConditionalGo ∧ BloopCounts ∧ CompactGo

/-- A link (R48): the address of the next instruction goes into d and y0, and the pc to the target. -/
def Links (i : Instr) (s : State) (fs : List Field) (d : BitVec 6) (pc : Addr) : Prop :=
  ∃ t, exec i s = .next t
    ∧ (d.toNat < 56 → (t.cur.reg d.toNat).val = (s.cur.pc + 4).setWidth 64 ∧ (t.cur.reg d.toNat).full = true)
    ∧ t.cur.y = #v[(s.cur.pc + 4).setWidth 64, s.cur.y[0], s.cur.y[1], s.cur.y[2]] ∧ t.cur.pc = pc
    ∧ RegsOnly s t fs [d.toNat] ∧ SameMemory s t

/-- R48, R45: the jumps go to their targets; a register target that is odd or has a bit above 47 raises MISALIGNED at
the jump, with the target in TRAP_INFO. -/
def Obligations.JumpsAndLinks : Prop :=
  ∀ (s : State),
    (∀ (d : BitVec 6) (off : BitVec 19), Ready s { fields := [.d d 7] } →
      Links (.jal d off) s [.d d 7] d (BitVec.ofInt 48 (Int.ofNat s.cur.pc.toNat + 2 * off.toInt)))
    ∧ (∀ x : A1, Ready s { fields := [.s x.a x.pa 14] } →
      let v := s.cur.val x.a
      if v.toNat % 2 = 0 ∧ v.toNat < 2 ^ 48 then Moves (.jr x) s [.s x.a x.pa 14] (v.setWidth 48)
      else exec (.jr x) s = .next (takeTrap s 0x04 v))
    ∧ (∀ x : A2, Ready s { fields := fields2 x } →
      let v := s.cur.val x.a
      if v.toNat % 2 = 0 ∧ v.toNat < 2 ^ 48 then Links (.jalr x) s (fields2 x) x.d (v.setWidth 48)
      else exec (.jalr x) s = .next (takeTrap s 0x04 v))
    ∧ (Ready s { fields := [.s 46 false 0] } →
      let v := s.cur.val 46
      if v.toNat % 2 = 0 ∧ v.toNat < 2 ^ 48 then Moves .cRet s [.s 46 false 0] (v.setWidth 48)
      else exec .cRet s = .next (takeTrap s 0x04 v))
    ∧ (∀ a : BitVec 3, Ready s { fields := [.s (c3 a) false 6] } →
      let v := s.cur.val (c3 a)
      if v.toNat % 2 = 0 ∧ v.toNat < 2 ^ 48 then Moves (.cJr a) s [.s (c3 a) false 6] (v.setWidth 48)
      else exec (.cJr a) s = .next (takeTrap s 0x04 v))

/-- R52, R55, R57, R58, R35: NOP and YIELD only move on (YIELD also passes the next issue); HALT in supervisor mode stops the strand and is
illegal in launch mode; TRAP enters the handler; ERET returns, and is illegal with IN_TRAP 0. -/
def Obligations.ControlInstructions : Prop :=
  ∀ (s : State),
    (Ready s { cap := .allowed } →
      Moves .nop s [] (s.cur.pc + 4) ∧ Moves .cNop s [] (s.cur.pc + 2)
      ∧ (∃ t, exec .yield s = .next t ∧ t.cur.yielded = true ∧ t.cur.pc = s.cur.pc + 4 ∧ Retires s t [] []
          ∧ t = { s with cur := { s.cur with pc := t.cur.pc, cap := t.cur.cap, yielded := true } } ∧ SameMemory s t)
      ∧ (∃ t, exec .cYield s = .next t ∧ t.cur.yielded = true ∧ t.cur.pc = s.cur.pc + 2 ∧ Retires s t [] []
          ∧ t = { s with cur := { s.cur with pc := t.cur.pc, cap := t.cur.cap, yielded := true } } ∧ SameMemory s t))
    ∧ (Ready s { } → s.cur.mode = .supervisor →
        exec .halt s = .next { s with cur := { s.cur with pc := s.cur.pc + 4, run := .halted } })
    ∧ (s.cur.mode = .launch → exec .halt s = .next (takeTrap s 0x01 0x8800001F))
    ∧ (∀ code : BitVec 6, Ready s { } →
        exec (.trap code) s = .next (takeTrap s (0x80 + code.toNat) ((s.cur.pc + 4).setWidth 64)))
    ∧ (Ready s { } → s.cur.modeStatus.getLsbD 8 = false → exec .eret s = .next (takeTrap s 0x01 0x1800001F))
    ∧ (Ready s { } → s.cur.mode = .launch → s.cur.status.getLsbD 8 = true →
        exec .eret s = .next { s with cur := { s.cur with
          pc := s.cur.trapPc.setWidth 48, status := s.cur.status &&& ~~~(0x100 : Word) } })
    ∧ (Ready s { } → s.cur.mode = .supervisor → s.cur.svStatus.getLsbD 8 = true →
        exec .eret s = .next { s with cur := { s.cur with
          pc := s.cur.svTrapPc.setWidth 48, svStatus := s.cur.svStatus &&& ~~~(0x100 : Word) } })

/-- R61, R63: CRD of every register of bank 0. STATUS and ROUND_MODE are read once no vector work of the strand is
pending (R62). -/
def ReadsBank0 : Prop :=
  ∀ (s : State) (d : BitVec 6), Ready s { fields := [.d d 7] } →
    let t := s.cur
    let reads := fun (n : BitVec 6) (v : Word) => Yields (.crdBank0 n d) s [.d d 7] d v 4
    let num := fun (v : Nat) => BitVec.ofNat 64 v
    (reads 0 (num t.slot) ∧ reads 1 (num t.team) ∧ reads 2 (num (clusterOf t.core)) ∧ reads 3 (num (dieOf t.core))
      ∧ reads 4 (num (meshPlace t.core / 64 * 2 ^ 8 + meshPlace t.core % 64)) ∧ reads 5 (num (s.logicalOf t.core)) ∧ reads 6 0x40402020
      ∧ reads 7 (num t.launch) ∧ reads 8 (num (s.timeNs % 2 ^ 48)) ∧ reads 9 (num s.cycles))
    ∧ (reads 10 (num t.actorClass) ∧ reads 11 t.actorKey ∧ reads 12 (num t.actorBase) ∧ reads 13 (num t.actorSize)
      ∧ reads 14 (num t.msgSender)
      ∧ reads 15 (num (dieOf t.core * 2 ^ 50 + 0x3FFFFFFC00000 + 0x10000 * s.slotOf t.launch))
      ∧ reads 16 (num t.spillBase) ∧ reads 17 (num t.spillSize) ∧ reads 18 t.overflowPtr)
    ∧ (reads 19 ((s.regionsOf t.core t.launch).getD 0 0) ∧ reads 20 ((s.regionsOf t.core t.launch).getD 1 0)
      ∧ reads 21 ((s.regionsOf t.core t.launch).getD 2 0) ∧ reads 22 ((s.regionsOf t.core t.launch).getD 3 0))
    ∧ (reads 23 t.trapVector ∧ reads 24 t.trapCause ∧ reads 25 t.trapPc ∧ reads 26 t.trapInfo
      ∧ reads 27 (num t.sfq.length) ∧ reads 28 ((t.sfq.head?.map (·.addr)).getD 0)
      ∧ reads 29 ((t.sfq.head?.map (·.data)).getD 0) ∧ reads 30 ((t.sfq.head?.map (·.info)).getD 0) ∧ reads 31 0)
    ∧ (reads 32 (num (s.core t.core).mxWeight) ∧ reads 33 (num (s.core t.core).auditRate))
    ∧ (s.flagsPending = false → reads 34 t.roundMode ∧ reads 35 t.status)
    ∧ (s.flagsPending = true → ∀ n : BitVec 6, n = 34 ∨ n = 35 →
        exec (.crdBank0 n d) s = .next { s with stalled := true })
    ∧ (∀ n : BitVec 6, 36 ≤ n.toNat → exec (.crdBank0 n d) s = .next (takeTrap s 0x01 (wordOf (.crdBank0 n d))))

/-- R61, R65: CRD of bank 1 in supervisor mode, and in launch mode the trap it raises. -/
def ReadsBank1 : Prop :=
  ∀ (s : State) (d : BitVec 6), Ready s { fields := [.d d 7] } →
    let t := s.cur
    let reads := fun (n : BitVec 6) (v : Word) => Yields (.crdBank1 n d) s [.d d 7] d v 4
    (t.mode = .supervisor →
      reads 0 t.svTrapVector ∧ reads 1 t.svTrapCause ∧ reads 2 t.svTrapPc ∧ reads 3 t.svTrapInfo
      ∧ (s.flagsPending = false → reads 4 t.svStatus) ∧ reads 5 t.svScratch0 ∧ reads 6 t.svScratch1
      ∧ reads 7 (s.die (dieOf t.core)).auditSeed ∧ reads 8 (s.die (dieOf t.core)).mapBase)
    ∧ (∀ n : BitVec 6, t.mode = .launch ∨ 9 ≤ n.toNat →
        exec (.crdBank1 n d) s = .next (takeTrap s 0x01 (wordOf (.crdBank1 n d))))

/-- R61 to R65: CRD of every control register of both banks. -/
def Obligations.ControlRegisterReads : Prop :=
  ReadsBank0 ∧ ReadsBank1

/-- The machine after a CWR whose register lies on the strand: `u` is the strand with it written; the sources have been
read and the pc has moved past the word. -/
def WritesOwn (i : Instr) (s : State) (fs : List Field) (f : Strand → Strand) : Prop :=
  ∃ t, exec i s = .next t ∧ t.cur.pc = s.cur.pc + 4 ∧ t.cur.y = s.cur.y ∧ Retires s t fs []
    ∧ t = { s with cur := (f s.cur).withRegs t.cur } ∧ SameMemory s t

/-- R61, R63: CWR of every register of bank 0 through its access code: read-only registers keep their value, reserved
bits read 0, the REGION registers and LOGICAL_ID are written in supervisor mode alone. -/
def WritesBank0 : Prop :=
  ∀ (s : State) (x : A1), Ready s { fields := [.s x.a x.pa 14] } →
    let v := s.cur.val x.a
    let w := fun (n : BitVec 6) (f : Strand → Strand) => WritesOwn (.cwrBank0 n x) s [.s x.a x.pa 14] f
    (∀ n : BitVec 6, n.toNat < 36 → n.toNat ∉ [5, 18, 19, 20, 21, 22, 23, 24, 25, 26, 31, 32, 33, 34, 35] →
        w n (fun t => t))
    ∧ w 18 (fun t => { t with overflowPtr := v })
    ∧ w 23 (fun t => { t with trapVector := v &&& 0x0000FFFFFFFFFFFE })
    ∧ w 24 (fun t => { t with trapCause := v &&& 0xFF })
    ∧ w 25 (fun t => { t with trapPc := v &&& 0x0000FFFFFFFFFFFE })
    ∧ w 26 (fun t => { t with trapInfo := v })
    ∧ w 31 (fun t => { t with sfq := t.sfq.tail })
    ∧ (∀ n : BitVec 6, n = 32 ∨ n = 33 →
        ∃ t, exec (.cwrBank0 n x) s = .next t ∧ t.cur.pc = s.cur.pc + 4 ∧ Retires s t [.s x.a x.pa 14] []
          ∧ (t.core s.cur.core).mxWeight =
              (if n = 32 ∧ v.toNat % 16 ≠ 0 then v.toNat % 16 else (s.core s.cur.core).mxWeight)
          ∧ (t.core s.cur.core).auditRate =
              (if n = 33 ∧ v.toNat % 32 < 22 then v.toNat % 32 else (s.core s.cur.core).auditRate)
          ∧ (∀ c, c ≠ s.cur.core → t.core c = s.core c)
          ∧ t = { s with cores := t.cores, cur := s.cur.withRegs t.cur } ∧ SameMemory s t)
    ∧ (s.flagsPending = false →
        w 34 (fun t => { t with roundMode := if v.toNat % 8 < 5 then v &&& 7 else t.roundMode })
        ∧ w 35 (fun t => { t with status := (t.status &&& 0x100) ||| (v &&& 0x1F) }))
    ∧ (s.cur.mode = .launch → ∀ n : BitVec 6, n.toNat ∈ [5, 19, 20, 21, 22] →
        exec (.cwrBank0 n x) s = .next (takeTrap s 0x01 (wordOf (.cwrBank0 n x))))
    ∧ (s.cur.mode = .supervisor →
        (∃ t, exec (.cwrBank0 5 x) s = .next t ∧ t.logicalOf s.cur.core = dieOf s.cur.core * 1024 + v.toNat % 1024
          ∧ (∀ c, c ≠ s.cur.core → t.logicalOf c = s.logicalOf c)
          ∧ t = { s with logical := t.logical, cur := s.cur.withRegs t.cur } ∧ t.cur.pc = s.cur.pc + 4)
        ∧ (∀ n : BitVec 6, 19 ≤ n.toNat → n.toNat ≤ 22 →
          ∃ t, exec (.cwrBank0 n x) s = .next t
            ∧ (∀ j, j < 4 → (t.regionsOf s.cur.core s.cur.launch).getD j 0 =
                (if j = n.toNat - 19 then v &&& 0xC3FFFFFFFFE00000 else (s.regionsOf s.cur.core s.cur.launch).getD j 0))
            ∧ t = { s with regions := t.regions, cur := s.cur.withRegs t.cur } ∧ t.cur.pc = s.cur.pc + 4))
    ∧ (∀ n : BitVec 6, 36 ≤ n.toNat → exec (.cwrBank0 n x) s = .next (takeTrap s 0x01 (wordOf (.cwrBank0 n x))))

/-- R61, R65: CWR of bank 1 in supervisor mode, and in launch mode the trap it raises. -/
def WritesBank1 : Prop :=
  ∀ (s : State) (x : A1), Ready s { fields := [.s x.a x.pa 14] } →
    let v := s.cur.val x.a
    let w := fun (n : BitVec 6) (f : Strand → Strand) => WritesOwn (.cwrBank1 n x) s [.s x.a x.pa 14] f
    (s.cur.mode = .supervisor →
      w 0 (fun t => { t with svTrapVector := v &&& 0x0000FFFFFFFFFFFE })
      ∧ w 1 (fun t => { t with svTrapCause := v &&& 0xFF })
      ∧ w 2 (fun t => { t with svTrapPc := v &&& 0x0000FFFFFFFFFFFE })
      ∧ w 3 (fun t => { t with svTrapInfo := v })
      ∧ (s.flagsPending = false → w 4 (fun t => { t with svStatus := (t.svStatus &&& 0x100) ||| (v &&& 0x1F) }))
      ∧ w 5 (fun t => { t with svScratch0 := v }) ∧ w 6 (fun t => { t with svScratch1 := v })
      ∧ (∀ n : BitVec 6, n = 7 ∨ n = 8 →
        ∃ t, exec (.cwrBank1 n x) s = .next t
          ∧ t.dies = (s.onDie (dieOf s.cur.core) (fun e =>
              if n = 7 then { e with auditSeed := v } else { e with mapBase := v })).dies
          ∧ t = { s with dies := t.dies, cur := s.cur.withRegs t.cur } ∧ t.cur.pc = s.cur.pc + 4))
    ∧ (∀ n : BitVec 6, s.cur.mode = .launch ∨ 9 ≤ n.toNat →
        exec (.cwrBank1 n x) s = .next (takeTrap s 0x01 (wordOf (.cwrBank1 n x))))

/-- R61 to R65: CWR of every control register of both banks. -/
def Obligations.ControlRegisterWrites : Prop :=
  WritesBank0 ∧ WritesBank1

/-- R247, R244, R245, R37: a load from the core's own scratchpad, of every size: the bytes zero-extended, the element of a group, or a
row; out of the scratchpad it raises PROTECTION, and misaligned MISALIGNED, with the address in TRAP_INFO. -/
def Obligations.ScratchpadLoads : Prop :=
  ∀ (s : State),
    (∀ (x : A2) (size : BitVec 3) (off : BitVec 8), size.toNat < 7 →
      let n := sizeBytes size.toNat
      let sub := size.toNat = 5 ∨ size.toNat = 6
      let bits := if size.toNat = 5 then 4 else 6
      let a := if sub then (s.cur.val x.a).toNat + off.toNat / 4 * n else (s.cur.val x.a).toNat + off.toNat * n
      let fs := [Field.s x.a x.pa 14, dstField size.toNat x.d]
      let v := Mem.read s.spad (spadKey s.cur.core a) n
      Ready s { fields := fs, mem := true, cap := capSize size.toNat } →
      (262144 < a + n → Traps (.lds x size off) s 0x06 (BitVec.ofNat 64 a))
      ∧ (a + n ≤ 262144 → size.toNat ≠ 6 → a % n ≠ 0 → Traps (.lds x size off) s 0x04 (BitVec.ofNat 64 a))
      ∧ (a + n ≤ 262144 → size.toNat = 6 ∨ a % n = 0 →
          (size.toNat < 4 → Yields (.lds x size off) s fs x.d (BitVec.ofNat 64 v) 4)
          ∧ (size.toNat = 4 → ∃ t, exec (.lds x size off) s = .next t
              ∧ RowResult s t fs (x.d.toNat % 32) (BitVec.ofNat 1024 v) 4)
          ∧ (sub → Yields (.lds x size off) s fs x.d
              (BitVec.ofNat 64 (v / 2 ^ (bits * (off.toNat % 4)) % 2 ^ bits)) 4)))
    ∧ (∀ (d b : BitVec 3) (off : BitVec 4),
      let ad := (s.cur.val (c3 b)).toNat + off.toNat * 8
      let aw := (s.cur.val (c3 b)).toNat + off.toNat * 4
      let fs := [Field.s (c3 b) false 8, .d (c3 d) 7]
      Ready s { fields := fs, mem := true } →
      (ad + 8 ≤ 262144 → ad % 8 = 0 → Yields (.cLdsD d b off) s fs (c3 d)
          (BitVec.ofNat 64 (Mem.read s.spad (spadKey s.cur.core ad) 8)) 2)
      ∧ (aw + 4 ≤ 262144 → aw % 4 = 0 → Yields (.cLdsW d b off) s fs (c3 d)
          (BitVec.ofNat 64 (Mem.read s.spad (spadKey s.cur.core aw) 4)) 2)
      ∧ (262144 < ad + 8 → Traps (.cLdsD d b off) s 0x06 (BitVec.ofNat 64 ad))
      ∧ (262144 < aw + 4 → Traps (.cLdsW d b off) s 0x06 (BitVec.ofNat 64 aw))
      ∧ (ad + 8 ≤ 262144 → ad % 8 ≠ 0 → Traps (.cLdsD d b off) s 0x04 (BitVec.ofNat 64 ad))
      ∧ (aw + 4 ≤ 262144 → aw % 4 ≠ 0 → Traps (.cLdsW d b off) s 0x04 (BitVec.ofNat 64 aw)))

/-- R247, R246, R244, R37: a store to the core's own scratchpad, of every size; a sub-byte store changes its element alone.
The memory is in its canonical form, which every step keeps. -/
def Obligations.ScratchpadStores : Prop :=
  ∀ (s : State), Mem.wf s.spad = true →
    (∀ (x : A2) (size : BitVec 3) (off : BitVec 8), size.toNat < 7 →
      let n := sizeBytes size.toNat
      let sub := size.toNat = 5 ∨ size.toNat = 6
      let bits := if size.toNat = 5 then 4 else 6
      let e := off.toNat % 4
      let a := if sub then (s.cur.val x.a).toNat + off.toNat / 4 * n else (s.cur.val x.a).toNat + off.toNat * n
      let fs := [Field.s x.a x.pa 14, dataField size.toNat x.d]
      let v := (s.cur.val x.d).toNat
      Ready s { fields := fs, mem := true, cap := capSize size.toNat } →
      (262144 < a + n → Traps (.sts x size off) s 0x06 (BitVec.ofNat 64 a))
      ∧ (a + n ≤ 262144 → size.toNat ≠ 6 → a % n ≠ 0 → Traps (.sts x size off) s 0x04 (BitVec.ofNat 64 a))
      ∧ (a + n ≤ 262144 → size.toNat = 6 ∨ a % n = 0 →
          (size.toNat < 4 → StoresSpad (.sts x size off) s fs a n (v % 2 ^ (8 * n)) (2 ^ (8 * n) - 1) 4)
          ∧ (size.toNat = 4 → StoresSpad (.sts x size off) s fs a n (s.cur.vreg (x.d.toNat % 32)).val.toNat
              (2 ^ 1024 - 1) 4)
          ∧ (sub → StoresSpad (.sts x size off) s fs a n (v % 2 ^ bits * 2 ^ (bits * e))
              ((2 ^ bits - 1) * 2 ^ (bits * e)) 4)))
    ∧ (∀ (d b : BitVec 3) (off : BitVec 4),
      let ad := (s.cur.val (c3 b)).toNat + off.toNat * 8
      let aw := (s.cur.val (c3 b)).toNat + off.toNat * 4
      let fs := [Field.s (c3 b) false 8, .s (c3 d) false 7]
      let v := (s.cur.val (c3 d)).toNat
      Ready s { fields := fs, mem := true } →
      (ad + 8 ≤ 262144 → ad % 8 = 0 → StoresSpad (.cStsD d b off) s fs ad 8 v (2 ^ 64 - 1) 2)
      ∧ (aw + 4 ≤ 262144 → aw % 4 = 0 → StoresSpad (.cStsW d b off) s fs aw 4 (v % 2 ^ 32) (2 ^ 32 - 1) 2)
      ∧ (262144 < ad + 8 → Traps (.cStsD d b off) s 0x06 (BitVec.ofNat 64 ad))
      ∧ (262144 < aw + 4 → Traps (.cStsW d b off) s 0x06 (BitVec.ofNat 64 aw))
      ∧ (ad + 8 ≤ 262144 → ad % 8 ≠ 0 → Traps (.cStsD d b off) s 0x04 (BitVec.ofNat 64 ad))
      ∧ (aw + 4 ≤ 262144 → aw % 4 ≠ 0 → Traps (.cStsW d b off) s 0x04 (BitVec.ofNat 64 aw)))

/-- R251, R250: PUSHS into the carve-out writes the doubleword at TOP and moves TOP; POPS reads the doubleword below TOP
and moves TOP back. With SPILL_SIZE 0 both raise PROTECTION. -/
def SpillInCarveOut : Prop :=
  ∀ (s : State) (d : BitVec 6), Mem.wf s.spad = true →
    let base := s.cur.spillBase
    let h := Mem.read s.spad (spadKey s.cur.core base) 8
    let top := h % 2 ^ 32
    let legal := top % 8 = 0 ∧ 8 ≤ top ∧ top ≤ s.cur.spillSize
    (Ready s { fields := [.s d false 7], mem := true, cap := .allowed } →
      (s.cur.spillSize = 0 → Traps (.pushs d) s 0x06 0)
      ∧ (0 < s.cur.spillSize → ¬ legal → Traps (.pushs d) s 0x06 (BitVec.ofNat 64 h))
      ∧ (0 < s.cur.spillSize → legal → top < s.cur.spillSize → h / 2 ^ 32 = 0 → 8 ≤ top →
          ∃ t, exec (.pushs d) s = .next t ∧ Mem.read t.spad (spadKey s.cur.core (base + top)) 8 = (s.cur.val d).toNat
            ∧ Mem.read t.spad (spadKey s.cur.core base) 8 = (top + 8) % 2 ^ 32
            ∧ (∀ k, k < spadKey s.cur.core base ∨
                (spadKey s.cur.core base + 8 ≤ k ∧ k < spadKey s.cur.core base + top)
                ∨ spadKey s.cur.core base + top + 8 ≤ k → Mem.get t.spad k = Mem.get s.spad k)
            ∧ t.cur.pc = s.cur.pc + 4 ∧ t.cur.y = s.cur.y ∧ Retires s t [.s d false 7] []
            ∧ t = { s with spad := t.spad, late := t.late, softErrs := t.softErrs, badWords := t.badWords,
                           cur := s.cur.withRegs t.cur }))
    ∧ (Ready s { fields := [.d d 7], mem := true, cap := .allowed } →
      (s.cur.spillSize = 0 → Traps (.pops d) s 0x06 0)
      ∧ (0 < s.cur.spillSize → ¬ legal ∨ (legal ∧ h / 2 ^ 32 = 0 ∧ top = 8) → Traps (.pops d) s 0x06 (BitVec.ofNat 64 h))
      ∧ (0 < s.cur.spillSize → legal → 8 < top → h / 2 ^ 32 = 0 →
          ∃ t, exec (.pops d) s = .next t
            ∧ (let v := BitVec.ofNat 64 (Mem.read s.spad (spadKey s.cur.core (base + (top - 8))) 8)
              (d.toNat < 56 → (t.cur.reg d.toNat).val = v ∧ (t.cur.reg d.toNat).full = true)
              ∧ t.cur.y = #v[v, s.cur.y[0], s.cur.y[1], s.cur.y[2]])
            ∧ Mem.read t.spad (spadKey s.cur.core base) 8 = top - 8
            ∧ (∀ k, k < spadKey s.cur.core base ∨ spadKey s.cur.core base + 8 ≤ k → Mem.get t.spad k = Mem.get s.spad k)
            ∧ t.cur.pc = s.cur.pc + 4 ∧ Retires s t [.d d 7] [d.toNat]
            ∧ t = { s with spad := t.spad, late := t.late, softErrs := t.softErrs, badWords := t.badWords,
                           cur := s.cur.withRegs t.cur }))

/-- R251, R252, R245: with the carve-out full, or records in the overflow area, PUSHS posts a store of the doubleword at
OVERFLOW_PTR, counts it in the header and moves OVERFLOW_PTR up; past OVERFLOW_STRIDE it raises PROTECTION, and at an
OVERFLOW_PTR that is not aligned MISALIGNED. POPS then reads the doubleword below OVERFLOW_PTR, as its cluster sees it. -/
def SpillInOverflow : Prop :=
  ∀ (s : State) (d : BitVec 6), Mem.wf s.spad = true → s.cur.cap.mode = .none →
    let k := spadKey s.cur.core s.cur.spillBase
    let h := Mem.read s.spad k 8
    let top := h % 2 ^ 32
    let ovf := h / 2 ^ 32
    let p := s.cur.overflowPtr
    0 < s.cur.spillSize → top % 8 = 0 → 8 ≤ top → top ≤ s.cur.spillSize → s.cur.spillSize < 2 ^ 32 → ovf + 1 < 2 ^ 32 →
    (Ready s { fields := [.s d false 7], mem := true, cap := .allowed } → top = s.cur.spillSize ∨ 0 < ovf →
      (s.cur.overflowStride ≤ ovf * 8 → Traps (.pushs d) s 0x06 p)
      ∧ (ovf * 8 < s.cur.overflowStride → p.toNat % 8 ≠ 0 → Traps (.pushs d) s 0x04 p)
      ∧ (ovf * 8 < s.cur.overflowStride → p.toNat % 8 = 0 →
        ∃ t, exec (.pushs d) s = .next t
          ∧ t.stores = s.stores ++ postOf s
              { origin := .pushs, addr := p.toNat, raw := BitVec.ofNat 64 (p.toNat % 2 ^ 52), code := 3, size := 8, data := s.cur.val d,
                val := (s.cur.val d).toNat, mask := 2 ^ 64 - 1, scope := 3 }
          ∧ t.cur.overflowPtr = p + 8 ∧ Mem.read t.spad k 8 = (ovf + 1) * 2 ^ 32 + top
          ∧ (∀ j, j < k ∨ k + 8 ≤ j → Mem.get t.spad j = Mem.get s.spad j)
          ∧ (∀ j, Mem.get t.hbm j = Mem.get s.hbm j) ∧ t.cur.pc = s.cur.pc + 4 ∧ t.cur.y = s.cur.y
          ∧ Retires s t [.s d false 7] []))
    ∧ (Ready s { fields := [.d d 7], mem := true, cap := .allowed } → 0 < ovf →
        (p - 8).toNat % 8 = 0 → s.accessBefore s.cur.uid s.nextUid (p - 8).toNat 8 = false →
        s.readStalls (p - 8).toNat 8 = false →
        ∀ ks, s.keys (s.reqCur s.cur (p - 8).toNat) .r (p - 8).toNat 8 = .ok ks → s.uncorrectable ks = false →
        ∃ t, exec (.pops d) s = .next t
          ∧ (let v := BitVec.ofNat 64 (s.sliceRead (clusterOf s.cur.core) (p - 8).toNat ks)
            (d.toNat < 56 → (t.cur.reg d.toNat).val = v ∧ (t.cur.reg d.toNat).full = true)
            ∧ t.cur.y = #v[v, s.cur.y[0], s.cur.y[1], s.cur.y[2]])
          ∧ t.cur.overflowPtr = p - 8 ∧ Mem.read t.spad k 8 = (ovf - 1) * 2 ^ 32 + top
          ∧ (∀ j, j < k ∨ k + 8 ≤ j → Mem.get t.spad j = Mem.get s.spad j) ∧ t.cur.pc = s.cur.pc + 4
          ∧ Retires s t [.d d 7] [d.toNat]
          ∧ t = { s with
              spad := t.spad, late := t.late, softErrs := t.softErrs, badWords := t.badWords, dies := t.dies, notes := t.notes
              cur := { s.cur.withRegs t.cur with overflowPtr := t.cur.overflowPtr } })

/-- R250 to R252: PUSHS and POPS, in the carve-out and past it in the overflow area. -/
def Obligations.SpillStack : Prop :=
  SpillInCarveOut ∧ SpillInOverflow

/-- R255, R37: an access to the state record of the actor: LDA reads the scratchpad at issue and is a long-latency
producer, STA stores; past ACTOR_SIZE, or with ACTOR_SIZE 0, ACTOR_BOUND. -/
def RecordAccesses : Prop :=
  ∀ (s : State), Mem.wf s.spad = true →
    (∀ (d : BitVec 6) (size : BitVec 3) (off : BitVec 15), size.toNat < 5 →
      let n := sizeBytes size.toNat
      let o := off.toNat * n
      let a := s.cur.actorBase + o
      let c := if size.toNat = 4 then 64 + d.toNat % 32 else d.toNat
      let within := 0 < s.cur.actorSize ∧ o + n ≤ s.cur.actorSize
      (Ready s { fields := [dstField size.toNat d], mem := true } →
        (¬ within → Traps (.lda d size off) s 0x0A (BitVec.ofNat 64 o))
        ∧ (within → a % n ≠ 0 → Traps (.lda d size off) s 0x04 (BitVec.ofNat 64 a))
        ∧ (within → a % n = 0 → Pends (.lda d size off) s [dstField size.toNat d] c false
            (.ready (Mem.read s.spad (spadKey s.cur.core a) n)) 4))
      ∧ (Ready s { fields := [dataField size.toNat d], mem := true } →
        (¬ within → Traps (.sta d size off) s 0x0A (BitVec.ofNat 64 o))
        ∧ (within → a % n ≠ 0 → Traps (.sta d size off) s 0x04 (BitVec.ofNat 64 a))
        ∧ (within → a % n = 0 → StoresSpad (.sta d size off) s [dataField size.toNat d] a n
            ((if size.toNat = 4 then (s.cur.vreg (d.toNat % 32)).val.toNat else (s.cur.val d).toNat) % 2 ^ (8 * n))
            (2 ^ (8 * n) - 1) 4)))
    ∧ (∀ (d : BitVec 3) (off : BitVec 8),
      let a := s.cur.actorBase + off.toNat * 8
      0 < s.cur.actorSize → off.toNat * 8 + 8 ≤ s.cur.actorSize → a % 8 = 0 →
      (Ready s { fields := [.d (c3 d) 7], mem := true } →
        Pends (.cLdaD d off) s [.d (c3 d) 7] d.toNat false (.ready (Mem.read s.spad (spadKey s.cur.core a) 8)) 2)
      ∧ (Ready s { fields := [.s (c3 d) false 7], mem := true } →
        StoresSpad (.cStaD d off) s [.s (c3 d) false 7] a 8 (s.cur.val (c3 d)).toNat (2 ^ 64 - 1) 2))

/-- R256, R112: LDK reads the launch parameter block, within 64 bytes and PARAM_SIZE, and is a long-latency producer. -/
def ParameterLoads : Prop :=
  ∀ (s : State) (l : Launch) (d : BitVec 6) (size : BitVec 3) (off : BitVec 16), size.toNat < 5 →
    s.launch? s.cur.launch = some l →
    let n := sizeBytes size.toNat
    let i : Instr := .ldk d size off
    Ready s { fields := [dstField size.toNat d], mem := true, cap := .allowed } →
    (0x40 + l.m.paramSize < off.toNat + n → Traps i s 0x06 (off.setWidth 64))
    ∧ (off.toNat + n ≤ 0x40 + l.m.paramSize → off.toNat % n ≠ 0 → Traps i s 0x04 (off.setWidth 64))
    ∧ (off.toNat + n ≤ 0x40 + l.m.paramSize → off.toNat % n = 0 →
        ∃ v, Pends i s [dstField size.toNat d] (if size.toNat = 4 then 64 + d.toNat % 32 else d.toNat) false (.ready v) 4
          ∧ v < 256 ^ n
          ∧ ∀ j, j < n → BitVec.ofNat 8 (v / 256 ^ j) =
              (if off.toNat + j < 0x40 then byteOf (l.header ((off.toNat + j) / 8)) ((off.toNat + j) % 8)
               else Mem.get l.params (off.toNat + j - 0x40)))

/-- R255, R256: accesses to the state record of the actor and to the launch parameter block. -/
def Obligations.RecordAndParameterAccesses : Prop :=
  RecordAccesses ∧ ParameterLoads

/-- R253, R246, R141: LDN and STN check the sibling, the bounds and the alignment in that order; then the access is on its way
to the sibling's core, one packet for each 8-byte unit of it: LDN as a long-latency producer, STN posted. With 32 packets of
the flow in the network it stalls. -/
def Obligations.SiblingAccesses : Prop :=
  ∀ (s : State) (x : A3) (size : BitVec 3) (h g : Hold) (k : KernelD), size.toNat < 5 →
    s.holdOf s.cur.core s.cur.launch = some h → s.kernelOf h.launch h.kernel = some k →
    let n := sizeBytes size.toNat
    let a := (s.cur.val x.a).toNat
    let b := (s.cur.val x.b).toNat
    let fl := [Field.s x.a x.pa 14, .s x.b x.pb 21, dstField size.toNat x.d]
    let ft := [Field.s x.a x.pa 14, .s x.b x.pb 21, dataField size.toNat x.d]
    let c := if size.toNat = 4 then 64 + x.d.toNat % 32 else x.d.toNat
    (Ready s { fields := fl, mem := true } →
      (k.teams ≤ a → Traps (.ldn x size) s 0x06 (s.cur.val x.a))
      ∧ (a < k.teams → 262144 < b + n → Traps (.ldn x size) s 0x06 (s.cur.val x.b))
      ∧ (a < k.teams → b + n ≤ 262144 → b % n ≠ 0 → Traps (.ldn x size) s 0x04 (s.cur.val x.b))
      ∧ (a < k.teams → b + n ≤ 262144 → b % n = 0 → s.sibling h a = some g → g.started = false →
          Stalls (.ldn x size) s)
      ∧ (a < k.teams → b + n ≤ 262144 → b % n = 0 → s.sibling h a = some g → g.started = true →
          s.nFlowFull s.cur.core g.core = true → Stalls (.ldn x size) s)
      ∧ (a < k.teams → b + n ≤ 262144 → b % n = 0 → s.sibling h a = some g → g.started = true →
          s.nFlowFull s.cur.core g.core = false →
          ∃ t, exec (.ldn x size) s = .next t ∧ t.pends = s.pends ++ [pendOf s c false (.units (unitsOf b n).length)]
            ∧ t.nops = s.nops ++ NOp.pieces
                { uid := s.nextUid, strand := s.cur.uid, core := s.cur.core, launch := s.cur.launch, target := g.core, addr := b,
                  raw := s.cur.val x.b, code := size.toNat, size := n }
            ∧ (c < 56 → (t.cur.reg c).full = false) ∧ (64 ≤ c → (t.cur.vreg (c - 64)).full = false)
            ∧ t.cur.pc = s.cur.pc + 4 ∧ t.cur.y = s.cur.y ∧ Retires s t fl [c] ∧ SameMemory s t))
    ∧ (Ready s { fields := ft, mem := true } →
      (k.teams ≤ a → Traps (.stn x size) s 0x06 (s.cur.val x.a))
      ∧ (a < k.teams → 262144 < b + n → Traps (.stn x size) s 0x06 (s.cur.val x.b))
      ∧ (a < k.teams → b + n ≤ 262144 → b % n ≠ 0 → Traps (.stn x size) s 0x04 (s.cur.val x.b))
      ∧ (a < k.teams → b + n ≤ 262144 → b % n = 0 → s.sibling h a = some g → g.started = false →
          Stalls (.stn x size) s)
      ∧ (a < k.teams → b + n ≤ 262144 → b % n = 0 → s.sibling h a = some g → g.started = true →
          s.nFlowFull s.cur.core g.core = true → Stalls (.stn x size) s)
      ∧ (a < k.teams → b + n ≤ 262144 → b % n = 0 → s.sibling h a = some g → g.started = true →
          s.nFlowFull s.cur.core g.core = false →
        let v := (if size.toNat = 4 then (s.cur.vreg (x.d.toNat % 32)).val.toNat else (s.cur.val x.d).toNat) % 256 ^ n
        ∃ t, exec (.stn x size) s = .next t
          ∧ t.nops = s.nops ++ NOp.pieces
              { uid := s.nextUid, strand := s.cur.uid, core := s.cur.core, launch := s.cur.launch, seq := s.cur.posted, store := true,
                target := g.core, addr := b, raw := BitVec.ofNat 64 (a * 2 ^ 48 + b), code := size.toNat, size := n,
                data := BitVec.ofNat 64 v, val := v }
          ∧ t.cur.posted = (s.cur.posted + 1) % 65536 ∧ t.cur.pc = s.cur.pc + 4 ∧ t.cur.y = s.cur.y
          ∧ Retires s t ft [] ∧ SameMemory s t))

/-- R257, R259, R260, R245, R400: outside a capsule an aligned LDG is a long-latency producer, an aligned STG a posted store with its
size, element, scope and order, and PFG changes nothing; a misaligned LDG or STG raises MISALIGNED at issue. -/
def GlobalForms : Prop :=
  ∀ (s : State) (x : A2) (size : BitVec 3) (ord pol : BitVec 2) (scope : BitVec 3), size.toNat < 7 →
    s.cur.cap.mode = .none →
    let n := sizeBytes size.toNat
    let v := s.cur.val x.a
    let sub := size.toNat = 5 ∨ size.toNat = 6
    let bits := if size.toNat = 5 then 4 else 6
    let a := if sub then v.toNat % 2 ^ 62 else v.toNat
    let e := if sub then v.toNat / 2 ^ 62 else 0
    let c := if size.toNat = 4 then 64 + x.d.toNat % 32 else x.d.toNat
    let aligned := size.toNat = 6 ∨ a % n = 0
    let fl := [Field.s x.a x.pa 14, dstField size.toNat x.d]
    let ft := [Field.s x.a x.pa 14, dataField size.toNat x.d]
    (Ready s { fields := fl, mem := true } →
      (¬ aligned → Traps (.ldg x size ord scope pol) s 0x04 (BitVec.ofNat 64 a))
      ∧ (aligned → Pends (.ldg x size ord scope pol) s fl c (ord.toNat == 1) (.ldg a size.toNat n e scope.toNat) 4))
    ∧ (Ready s { fields := ft, mem := true } →
      (¬ aligned → Traps (.stg x size ord scope pol) s 0x04 (BitVec.ofNat 64 a))
      ∧ (aligned → Posts (.stg x size ord scope pol) s ft
          { origin := .stg, addr := a, raw := BitVec.ofNat 64 (a % 2 ^ 52 + e * 2 ^ 62), code := size.toNat, size := n,
            data := BitVec.ofNat 64 (if sub then (s.cur.val x.d).toNat % 2 ^ bits
              else (if size.toNat = 4 then (s.cur.vreg (x.d.toNat % 32)).val.toNat else (s.cur.val x.d).toNat) % 256 ^ n),
            val := (if sub then (s.cur.val x.d).toNat % 2 ^ bits * 2 ^ (bits * e)
              else (if size.toNat = 4 then (s.cur.vreg (x.d.toNat % 32)).val.toNat else (s.cur.val x.d).toNat) % 256 ^ n),
            mask := (if sub then (2 ^ bits - 1) * 2 ^ (bits * e) else 256 ^ n - 1),
            scope := scope.toNat, rel := ord.toNat == 2 } 4))
    ∧ (∀ y : A1, Ready s { fields := [.s y.a y.pa 14], mem := true, cap := .allowed } →
        Moves (.pfg y scope pol) s [.s y.a y.pa 14] (s.cur.pc + 4))

/-- R261, R245: an aligned LDH is a long-latency producer on a host address, an aligned STH a posted store at system scope; a
misaligned one raises MISALIGNED at issue. -/
def HostForms : Prop :=
  ∀ (s : State) (x : A2) (size : BitVec 3) (ord : BitVec 2), size.toNat < 4 →
    let n := sizeBytes size.toNat
    let a := (s.cur.val x.a).toNat
    let fl := [Field.s x.a x.pa 14, .d x.d 7]
    let ft := [Field.s x.a x.pa 14, .s x.d false 7]
    (Ready s { fields := fl, mem := true } →
      (a % n ≠ 0 → Traps (.ldh x size ord) s 0x04 (s.cur.val x.a))
      ∧ (a % n = 0 → Pends (.ldh x size ord) s fl x.d.toNat (ord.toNat == 1) (.ldh a n) 4))
    ∧ (Ready s { fields := ft, mem := true } →
      (a % n ≠ 0 → Traps (.sth x size ord) s 0x04 (s.cur.val x.a))
      ∧ (a % n = 0 → Posts (.sth x size ord) s ft
          { origin := .sth, addr := a, raw := s.cur.val x.a, code := size.toNat, size := n,
            data := BitVec.ofNat 64 ((s.cur.val x.d).toNat % 256 ^ n), clock := s.cur.relClock,
            val := (s.cur.val x.d).toNat % 256 ^ n, mask := 256 ^ n - 1, scope := 5, rel := ord.toNat == 2 } 4))

/-- R257, R259 to R261: accesses to global virtual memory and to host memory, at issue. -/
def Obligations.GlobalAndHostAccesses : Prop :=
  GlobalForms ∧ HostForms

/-- R208, R204, R206: VADD, VSUB, VMUL and the fused forms, in every lane of every type: the float operation rounded
once in the mode of the word, or Res of the exact integer. -/
def Obligations.VectorArithmetic : Prop :=
  ∀ (s : State) (x : VOp),
    let m := s.cur.rmode x.p.rnd
    let A := fun i => s.cur.lane x.a x.elem.w i
    let B := fun i => s.cur.lane x.b x.elem.w i
    let C := fun i => s.cur.lane x.p.c x.elem.w i
    (Ready s { fields := [x.fa, x.fb, x.fd] } →
      Puts (.vadd x) s x [x.fa, x.fb, x.fd] (fun i =>
        byType x (fun f => fAdd f m x.p.sat (f.decode (A i)) (f.decode (B i))) (fun e => e.toInt (A i) + e.toInt (B i)))
      ∧ Puts (.vsub x) s x [x.fa, x.fb, x.fd] (fun i =>
        byType x (fun f => fAdd f m x.p.sat (f.decode (A i)) (f.decode (B i)).negate)
          (fun e => e.toInt (A i) - e.toInt (B i)))
      ∧ Puts (.vmul x) s x [x.fa, x.fb, x.fd] (fun i =>
        byType x (fun f => fMul f m x.p.sat (f.decode (A i)) (f.decode (B i))) (fun e => e.toInt (A i) * e.toInt (B i))))
    ∧ (Ready s { fields := [x.fa, x.fb, x.fc, x.fd] } →
      Puts (.vfma x) s x [x.fa, x.fb, x.fc, x.fd] (fun i =>
        byType x (fun f => fFma f m x.p.sat (f.decode (A i)) (f.decode (B i)) (f.decode (C i)))
          (fun e => e.toInt (A i) * e.toInt (B i) + e.toInt (C i)))
      ∧ Puts (.vfms x) s x [x.fa, x.fb, x.fc, x.fd] (fun i =>
        byType x (fun f => fFma f m x.p.sat (f.decode (A i)) (f.decode (B i)) (f.decode (C i)).negate)
          (fun e => e.toInt (A i) * e.toInt (B i) - e.toInt (C i)))
      ∧ Puts (.vfnma x) s x [x.fa, x.fb, x.fc, x.fd] (fun i =>
        byType x (fun f => fFma f m x.p.sat (f.decode (A i)).negate (f.decode (B i)) (f.decode (C i)))
          (fun e => e.toInt (C i) - e.toInt (A i) * e.toInt (B i))))

/-- R209, R210, R211: the minima and maxima, the sign operations, the bitwise operations and the shifts of lanes; a
shift by 64 or more gives what 64 gives. -/
def Obligations.VectorMinMaxSignAndBits : Prop :=
  ∀ (s : State) (x : VOp),
    let w := x.elem.w
    let A := fun i => s.cur.lane x.a w i
    let B := fun i => s.cur.lane x.b w i
    let fs := [x.fa, x.fb, x.fd]
    let bits := fun (v : Nat) => (⟨v, 0⟩ : FOut)
    (Ready s { fields := fs } →
      Puts (.vmin x) s x fs (fun i => match x.elem with
        | .flt f => fMinMax f false false (A i) (B i)
        | e => bits (if e.toInt (A i) < e.toInt (B i) then A i else B i))
      ∧ Puts (.vmax x) s x fs (fun i => match x.elem with
        | .flt f => fMinMax f true false (A i) (B i)
        | e => bits (if e.toInt (B i) < e.toInt (A i) then A i else B i))
      ∧ Puts (.vminn x) s x fs (fun i => match x.elem with
        | .flt f => fMinMax f false true (A i) (B i)
        | e => bits (if e.toInt (A i) < e.toInt (B i) then A i else B i))
      ∧ Puts (.vmaxn x) s x fs (fun i => match x.elem with
        | .flt f => fMinMax f true true (A i) (B i)
        | e => bits (if e.toInt (B i) < e.toInt (A i) then A i else B i))
      ∧ Puts (.vand x) s x fs (fun i => bits (A i &&& B i)) ∧ Puts (.vor x) s x fs (fun i => bits (A i ||| B i))
      ∧ Puts (.vxor x) s x fs (fun i => bits (A i ^^^ B i))
      ∧ (x.ty.toNat ∈ [3, 4, 5, 6, 7] →
        Puts (.vshl x) s x fs (fun i => bits (x.elem.resI x.p.sat (x.elem.toInt (A i) * 2 ^ min (B i) 64)))
        ∧ Puts (.vshr x) s x fs (fun i => bits (A i / 2 ^ min (B i) 64))
        ∧ Puts (.vsra x) s x fs (fun i => bits ((sext (A i) w / 2 ^ min (B i) 64 % 2 ^ w).toNat))))
    ∧ (Ready s { fields := [x.fa, x.fd] } →
      Puts (.vabs x) s x [x.fa, x.fd] (fun i =>
        byType x (fun f => if (f.decode (A i)).isNan then ⟨f.canon, if (f.decode (A i)).isSig then 1 else 0⟩
          else ⟨A i % 2 ^ (f.w - 1), 0⟩) (fun e => (e.toInt (A i)).natAbs))
      ∧ Puts (.vneg x) s x [x.fa, x.fd] (fun i =>
        byType x (fun f => if (f.decode (A i)).isNan then ⟨f.canon, if (f.decode (A i)).isSig then 1 else 0⟩
          else ⟨A i ^^^ 2 ^ (f.w - 1), 0⟩) (fun e => -e.toInt (A i))))

/-- A result in a mask register (R24): bit `i` below `n` is `bit i`, higher bits are 0; flags `fl` are raised; nothing
else changes. -/
def SetsMask (i : Instr) (s : State) (x : VOp) (fs : List Field) (n : Nat) (bit : Nat → Bool) (on : Nat → Bool)
    (fl : Nat → Nat) : Prop :=
  ∃ t, exec i s = .next t
    ∧ (∀ k, k < n → (t.cur.mask (x.vd.setWidth 3)).getLsbD k = bit k)
    ∧ (∀ k, n ≤ k → (t.cur.mask (x.vd.setWidth 3)).getLsbD k = false)
    ∧ (∀ j : BitVec 3, j ≠ x.vd.setWidth 3 → t.cur.mask j = s.cur.mask j)
    ∧ RaisesFlags s t n on fl ∧ t.cur.y = s.cur.y ∧ t.cur.pc = s.cur.pc + BitVec.ofNat 48 x.len
    ∧ Retires s t fs []
    ∧ t = { s with
        cur := { s.cur.withRegs t.cur with m := t.cur.m, status := t.cur.status, svStatus := t.cur.svStatus } }
    ∧ SameMemory s t

/-- R212, R80: the comparisons write one mask bit for each lane; a NaN gives false but for VCNE, and raises NV when it
signals or the comparison orders. -/
def Obligations.VectorComparisons : Prop :=
  ∀ (s : State) (x : VOp), Ready s { fields := [x.fa, x.fb] } →
    let A := fun i => s.cur.lane x.a x.elem.w i
    let B := fun i => s.cur.lane x.b x.elem.w i
    let nan := fun i => match x.elem with
      | .flt f => (f.decode (A i)).isNan || (f.decode (B i)).isNan
      | _ => false
    let sig := fun i => match x.elem with
      | .flt f => (f.decode (A i)).isSig || (f.decode (B i)).isSig
      | _ => false
    let ord := fun i => match x.elem with
      | .flt f => (f.decode (A i)).cmp (f.decode (B i))
      | e => compare (e.toInt (A i)) (e.toInt (B i))
    let old := s.cur.mask (x.vd.setWidth 3)
    let gives := fun (i : Instr) (holds : Ordering → Bool) (un strict : Bool) =>
      SetsMask i s x [x.fa, x.fb] x.elem.lanes
        (fun k => if act s.cur x.p k then (if nan k then un else holds (ord k))
          else if x.p.zero then false else old.getLsbD k)
        (fun k => act s.cur x.p k) (fun k => if nan k && (strict || sig k) then 1 else 0)
    gives (.vceq x) (fun o => o == .eq) false false ∧ gives (.vcne x) (fun o => o != .eq) true false
    ∧ gives (.vclt x) (fun o => o == .lt) false true ∧ gives (.vcle x) (fun o => o != .gt) false true

/-- R226, R227, R225: the mask operations and MSET write a mask register, MPOP counts into a g register without an entry into y,
and VNOP only moves on. -/
def Obligations.MaskInstructions : Prop :=
  ∀ (s : State) (x : VOp),
    let n := x.elem.lanes
    let a := s.cur.mask (x.a.setWidth 3)
    let b := s.cur.mask (x.b.setWidth 3)
    let plainly := fun (i : Instr) (fs : List Field) (bit : Nat → Bool) =>
      SetsMask i s x fs n bit (fun _ => false) (fun _ => 0)
    (Ready s { } →
      plainly (.mand x) [] (fun k => a.getLsbD k && b.getLsbD k) ∧ plainly (.mor x) [] (fun k => a.getLsbD k || b.getLsbD k)
      ∧ plainly (.mxor x) [] (fun k => a.getLsbD k != b.getLsbD k) ∧ plainly (.mnot x) [] (fun k => !a.getLsbD k)
      ∧ (∀ p : Option Pfx, Moves (.vnop p) s [] (s.cur.pc + (if p.isSome then 8 else 4))))
    ∧ (Ready s { fields := [x.fb] } → 32 ≤ x.b.toNat →
      plainly (.mset x) [x.fb] (fun k => decide (Int.ofNat k < (s.cur.reg (x.b.toNat - 32)).val.toInt)))
    ∧ (Ready s { fields := [.gd x.vd] } →
      ∃ t, exec (.mpop x) s = .next t
        ∧ (t.cur.reg x.vd.toNat).val = BitVec.ofNat 64 ((List.range n).filter (fun k => a.getLsbD k)).length
        ∧ (t.cur.reg x.vd.toNat).full = true ∧ t.cur.y = s.cur.y ∧ t.cur.pc = s.cur.pc + BitVec.ofNat 48 x.len
        ∧ RegsOnly s t [.gd x.vd] [x.vd.toNat] ∧ SameMemory s t)

/-- R213 to R219: selection, classification, conversion, moves and lane addressing. -/
def Obligations.VectorMovesAndConversions : Prop :=
  ∀ (s : State) (x : VOp),
    let w := x.elem.w
    let n := x.elem.lanes
    let A := fun i => s.cur.lane x.a w i
    let B := fun i => s.cur.lane x.b w i
    let g := (s.cur.reg (x.b.toNat - 32)).val
    let from' := fun (j : Nat) => if j < n then A j else 0
    let bits := fun (v : Nat) => (⟨v, 0⟩ : FOut)
    (Ready s { fields := [x.fa, x.fb, x.fd] } →
      (x.b.toNat < 32 → Puts (.vperm x) s x [x.fa, x.fb, x.fd] (fun i => bits (from' (B i))))
      ∧ (32 ≤ x.b.toNat →
        Puts (.vbcast x) s x [x.fa, x.fb, x.fd] (fun _ => bits (from' g.toNat))
        ∧ Puts (.vslide x) s x [x.fa, x.fb, x.fd] (fun i =>
          bits (if 0 ≤ (i : Int) - g.toInt then from' ((i : Int) - g.toInt).toNat else 0)))
      ∧ ∃ t, exec (.vsel x) s = .next t
        ∧ (∀ i, i < n → laneOf (t.cur.vreg x.vd.toNat).val w i =
            (if (s.cur.mask x.p.m).getLsbD i then A i else B i) % 2 ^ w)
        ∧ (t.cur.vreg x.vd.toNat).full = true ∧ t.cur.y = s.cur.y ∧ t.cur.pc = s.cur.pc + BitVec.ofNat 48 x.len
        ∧ RegsOnly s t [x.fa, x.fb, x.fd] [64 + x.vd.toNat] ∧ SameMemory s t)
    ∧ (Ready s { fields := [x.fa, x.fd] } →
      Puts (.vmov x) s x [x.fa, x.fd] (fun i => bits (A i))
      ∧ Puts (.vclass x) s x [x.fa, x.fd] (fun i =>
          match x.elem with | .flt f => bits (classOf f (A i)) | _ => bits 0)
      ∧ ∃ t, exec (.vcvt x) s = .next t
        ∧ (let src := elemOf x.b.toNat
          let dst := elemOf (if x.pb then 8 + x.ty.toNat else x.ty.toNat)
          let k := min src.lanes dst.lanes
          PutsLanes s t x [x.fa, x.fd] dst.w k (fun i =>
            conv src dst (s.cur.rmode x.p.rnd) x.p.sat (s.cur.lane x.a src.w i))))
    ∧ (Ready s { fields := [x.fd] } →
      Puts (.vidx x) s x [x.fd] (fun i =>
        match x.elem with | .flt f => bits (f.roundTo .rne false (Machine.Num.ofInt i)).bits | _ => bits i))
    ∧ (Ready s { fields := [x.fa, x.fb, .gd x.vd] } → 32 ≤ x.b.toNat →
      ∃ t, exec (.vext x) s = .next t
        ∧ (t.cur.reg x.vd.toNat).val =
            (match x.elem with
             | .int k => BitVec.ofInt 64 (sext (from' g.toNat) k)
             | _ => BitVec.ofNat 64 (from' g.toNat))
        ∧ (t.cur.reg x.vd.toNat).full = true ∧ t.cur.y = s.cur.y ∧ t.cur.pc = s.cur.pc + BitVec.ofNat 48 x.len
        ∧ RegsOnly s t [x.fa, x.fb, .gd x.vd] [x.vd.toNat] ∧ SameMemory s t)
    ∧ (Ready s { fields := [x.fa, x.fb, .vd x.vd true] } → 32 ≤ x.a.toNat → 32 ≤ x.b.toNat →
      ∃ t, exec (.vins x) s = .next t
        ∧ (∀ i, i < n → laneOf (t.cur.vreg x.vd.toNat).val w i =
            (if i = g.toNat ∧ act s.cur x.p i = true then (s.cur.reg (x.a.toNat - 32)).val.toNat % 2 ^ w
             else laneOf (s.cur.vreg x.vd.toNat).val w i))
        ∧ (t.cur.vreg x.vd.toNat).full = true ∧ t.cur.y = s.cur.y ∧ t.cur.pc = s.cur.pc + BitVec.ofNat 48 x.len
        ∧ RegsOnly s t [x.fa, x.fb, .vd x.vd true] [64 + x.vd.toNat] ∧ SameMemory s t)

/-- R220, R221, R222, R91, R92, R90: the reductions put their result in lane 0 and zeros above it: the sum of the active lanes (in the order
of the tree for a float type), or the lane that a maximum or minimum selects; VSCAN puts the inclusive prefix sums; VDOT adds two or four products to each
lane of its accumulator and rounds once. -/
def Obligations.ReductionsScansAndDots : Prop :=
  ∀ (s : State) (x : VOp),
    let w := x.elem.w
    let n := x.elem.lanes
    let m := s.cur.rmode x.p.rnd
    let A := fun i => s.cur.lane x.a w i
    let on := fun i => act s.cur x.p i
    let total := fun (e : Elem) (k : Nat) => (((List.range k).filter on).map (fun i => e.toInt (A i))).sum
    (Ready s { fields := [x.fa, x.fd] } →
      (∃ t, exec (.vreda x) s = .next t ∧ t.cur.y = s.cur.y ∧ t.cur.pc = s.cur.pc + BitVec.ofNat 48 x.len
        ∧ laneOf (t.cur.vreg x.vd.toNat).val w 0 =
            (match x.elem with | .flt _ => (redSum s.cur x).bits | e => e.resI x.p.sat (total e n)) % 2 ^ w
        ∧ (∀ i, 0 < i → i < n → laneOf (t.cur.vreg x.vd.toNat).val w i = 0)
        ∧ RaisesFlags s t 1 (fun _ => true) (fun _ => (redSum s.cur x).fl) ∧ Retires s t [x.fa, x.fd] [64 + x.vd.toNat]
        ∧ t = { s with cur := { s.cur.withRegs t.cur with status := t.cur.status, svStatus := t.cur.svStatus } })
      ∧ (∀ big : Bool, ∃ t, exec (if big then .vredx x else .vredn x) s = .next t ∧ t.cur.y = s.cur.y
        ∧ t.cur.pc = s.cur.pc + BitVec.ofNat 48 x.len
        ∧ laneOf (t.cur.vreg x.vd.toNat).val w 0 = (redPick s.cur x big).bits % 2 ^ w
        ∧ (∀ i, 0 < i → i < n → laneOf (t.cur.vreg x.vd.toNat).val w i = 0)
        ∧ RaisesFlags s t 1 (fun _ => true) (fun _ => (redPick s.cur x big).fl)
        ∧ Retires s t [x.fa, x.fd] [64 + x.vd.toNat]
        ∧ t = { s with cur := { s.cur.withRegs t.cur with status := t.cur.status, svStatus := t.cur.svStatus } })
      ∧ (∃ t, exec (.vscan x) s = .next t ∧ t.cur.y = s.cur.y ∧ t.cur.pc = s.cur.pc + BitVec.ofNat 48 x.len
        ∧ (∀ e, x.elem = e → (∀ f, e ≠ .flt f) → PutsLanes s t x [x.fa, x.fd] w n (fun i =>
            ⟨e.resI x.p.sat (total e (i + 1)), 0⟩))
        ∧ (∀ f, x.elem = .flt f →
            let l := activeOr s.cur x ⟨negZero f, 0⟩ (enterSum f)
            let r := scanSum f m x.p.sat 1 (l.map (·.bits)) (orAll (l.map (·.fl))) x.elem.steps
            (∀ i, i < n → laneOf (t.cur.vreg x.vd.toNat).val w i =
              (if on i then r.1.getD i 0 % 2 ^ w else if x.p.zero then 0
               else laneOf (s.cur.vreg x.vd.toNat).val w i))
            ∧ RaisesFlags s t 1 (fun _ => true) (fun _ => r.2))
        ∧ Retires s t [x.fa, x.fd] [64 + x.vd.toNat]))
    ∧ (Ready s { fields := [x.fa, x.fb, .vd x.vd true] } → x.ty.toNat ∈ [1, 2, 6, 7] →
      ∃ t, exec (.vdot x) s = .next t ∧ t.cur.y = s.cur.y ∧ t.cur.pc = s.cur.pc + BitVec.ofNat 48 x.len
        ∧ PutsLanes s t x [x.fa, x.fb, .vd x.vd true] 32 32 (fun i =>
          let old := laneOf (s.cur.vreg x.vd.toNat).val 32 i
          let js := (List.range (32 / w)).map (fun j => 32 / w * i + j)
          match x.elem with
          | .flt f => fSum Fmt.fp32 m x.p.sat
              (Fmt.fp32.decode old :: js.map (fun j => f.decode (A j))
                ++ js.map (fun j => f.decode (s.cur.lane x.b w j)))
              (⟨Fmt.fp32.decode old, 0⟩
                :: List.zipWith Machine.Num.mul (js.map (fun j => f.decode (A j))) (js.map (fun j => f.decode (s.cur.lane x.b w j))))
          | e => ⟨(dotAcc e).resI x.p.sat ((dotAcc e).toInt old
              + (js.map (fun j => e.toInt (A j) * e.toInt (s.cur.lane x.b w j))).sum), 0⟩))

/-- A special-function instruction that has issued (R195, R223): its destination is empty, and an entry with its row and its flags
waits at the end of its core's queue. -/
def Queues (i : Instr) (s : State) (x : VOp) (fs : List Field) (out : Nat → FOut) : Prop :=
  ∃ t e, exec i s = .next t ∧ t.sfu = s.sfu ++ [e] ∧ e.core = s.cur.core ∧ e.strand = s.cur.uid ∧ e.vd = x.vd.toNat
    ∧ (∀ k, k < x.elem.lanes → laneOf e.row x.elem.w k =
        (if act s.cur x.p k then (out k).bits % 2 ^ x.elem.w else if x.p.zero then 0
         else laneOf (s.cur.vreg x.vd.toNat).val x.elem.w k))
    ∧ (∀ b, b < 64 → e.flags.getLsbD b =
        (List.range x.elem.lanes).any (fun k => act s.cur x.p k && (out k).fl.testBit b))
    ∧ (t.cur.vreg x.vd.toNat).full = false ∧ (t.cur.vreg x.vd.toNat).pend = true
    ∧ t.cur.y = s.cur.y ∧ t.cur.pc = s.cur.pc + BitVec.ofNat 48 x.len ∧ Retires s t fs [64 + x.vd.toNat]
    ∧ t = { s with sfu := t.sfu, cur := s.cur.withRegs t.cur } ∧ SameMemory s t

/-- R223, R224, R195, R81: the special functions and VDIV enter the special-function unit; with eight entries queued on the core
the instruction does not issue. -/
def Obligations.SpecialFunctionsQueue : Prop :=
  ∀ (s : State) (x : VOp),
    let m := s.cur.rmode x.p.rnd
    let A := fun i => s.cur.lane x.a x.elem.w i
    let B := fun i => s.cur.lane x.b x.elem.w i
    let full := (s.sfu.filter (fun e => e.core == s.cur.core)).length
    let one := fun (i : Instr) (f : Fmt → RMode → Bool → Machine.Num → FOut) =>
      Ready s { fields := [x.fa, x.fd] } →
        (8 ≤ full → Stalls i s)
        ∧ (full < 8 → Queues i s x [x.fa, x.fd] (fun k =>
            match x.elem with | .flt e => f e m x.p.sat (e.decode (A k)) | _ => ⟨0, 0⟩))
    one (.vrcp x) fRcp ∧ one (.vrsq x) fRsq ∧ one (.vsqrt x) fSqrt ∧ one (.vexp2 x) fExp2 ∧ one (.vlog2 x) fLog2
    ∧ one (.vtanh x) fTanh ∧ one (.vsigm x) fSigm
    ∧ (Ready s { fields := [x.fa, x.fb, x.fd] } →
        (8 ≤ full → Stalls (.vdiv x) s)
        ∧ (full < 8 → Queues (.vdiv x) s x [x.fa, x.fb, x.fd] (fun k =>
            match x.elem with
            | .flt e => fDiv e m x.p.sat (e.decode (A k)) (e.decode (B k))
            | e => ⟨((if e.toInt (B k) = 0 then -1 else (e.toInt (A k)).tdiv (e.toInt (B k))) % 2 ^ e.w).toNat, 0⟩)))

/-- A recurrence that has issued (R192, R228): its unit holds an entry with one row for each register from vd to v31 and
then the carry, in which every active channel runs `step` from its carry, strictly in order; no register is empty for it, and
the registers it will write are held back from later instructions. -/
def Recurs (i : Instr) (s : State) (x : VOp) (srcs : List Field) (step : Nat → Nat → Machine.Num → FOut) : Prop :=
  ∃ t e, exec i s = .next t ∧ t.recs = s.recs ++ [e] ∧ e.core = s.cur.core ∧ e.strand = s.cur.uid
    ∧ (let n := 32 - x.vd.toNat
      let c := x.p.c.toNat
      e.rows.length = n + 1
      ∧ (∀ ch, ch < 32 → act s.cur x.p ch = true → ∃ h : Nat → Nat,
          h 0 = laneOf (s.cur.vreg c).val 32 ch
          ∧ (∀ r, r < n → h (r + 1) = (step ch r (Fmt.fp32.decode (h r))).bits)
          ∧ (∀ r, r < n → ∃ row, e.rows[r]? = some (x.vd.toNat + r, row) ∧ laneOf row 32 ch = h (r + 1) % 2 ^ 32)
          ∧ (∃ row, e.rows[n]? = some (c, row) ∧ laneOf row 32 ch = h n % 2 ^ 32))
      ∧ (∀ ch, ch < 32 → act s.cur x.p ch = false →
          (∀ r, r < n → ∃ row, e.rows[r]? = some (x.vd.toNat + r, row)
            ∧ laneOf row 32 ch = (if x.p.zero then 0 else laneOf (s.cur.vreg (x.vd.toNat + r)).val 32 ch))
          ∧ (∃ row, e.rows[n]? = some (c, row)
            ∧ laneOf row 32 ch = (if x.p.zero then 0 else laneOf (s.cur.vreg c).val 32 ch)))
      ∧ (∀ r, r < 32 → r = c ∨ x.vd.toNat ≤ r → (t.cur.vreg r).pend = true ∧ (t.cur.vreg r).full = true))
    ∧ t.cur.y = s.cur.y ∧ t.cur.pc = s.cur.pc + BitVec.ofNat 48 x.len
    ∧ Retires s t (srcs ++ recFields x) ((64 + x.p.c.toNat) :: (List.range (32 - x.vd.toNat)).map (fun r => 64 + (x.vd.toNat + r)))
    ∧ t = { s with recs := t.recs, cur := s.cur.withRegs t.cur } ∧ SameMemory s t

/-- R192, R228, R230, R232: TLRS computes h = A * h + B, and TEMA h = α * h + (1 - α) * X with one rounding, row by
row in every channel; a core whose unit is taken does not issue one. -/
def TemporalRows : Prop :=
  ∀ (s : State) (x : VOp), x.p.c.toNat < 32 →
    let n := 32 - x.vd.toNat
    let m := s.cur.rmode x.p.rnd
    let busy := s.recs.any (fun e => e.core == s.cur.core)
    let A := fun r ch => rowLane s.cur x.a x.ty (recHold x.ty) r ch
    let B := fun r ch => rowLane s.cur x.b x.ty (recHold x.ty) r ch
    let al := fun r ch => rowLane s.cur x.a x.ty true r ch
    let X := fun r ch => rowLane s.cur x.b x.ty false r ch
    let tl := [rangeField x.a x.pa x.ty n, rangeField x.b x.pb x.ty n]
    let te := [x.fa, rangeField x.b x.pb x.ty n]
    (Ready s { fields := tl ++ recFields x } →
      (busy = true → Stalls (.tlrs x) s)
      ∧ (busy = false → Recurs (.tlrs x) s x tl (fun ch r h => fFma Fmt.fp32 m x.p.sat (A r ch) h (B r ch))))
    ∧ (Ready s { fields := te ++ recFields x } →
      (busy = true → Stalls (.tema x) s)
      ∧ (busy = false → Recurs (.tema x) s x te (fun ch r h =>
          fSum Fmt.fp32 m x.p.sat [al r ch, h, X r ch] [Machine.Num.mul (al r ch) h, Machine.Num.mul (oneMinus (al r ch)) (X r ch)])))

/-- R233, R234: VLRS puts the lanes of its five combination steps. -/
def LaneSteps : Prop :=
  ∀ (s : State) (x : VOp), Ready s { fields := [x.fa, x.fb, x.fc, x.fd] } →
    ∃ t, exec (.vlrs x) s = .next t ∧ t.cur.y = s.cur.y ∧ t.cur.pc = s.cur.pc + BitVec.ofNat 48 x.len
      ∧ (∀ i, i < 32 → laneOf (t.cur.vreg x.vd.toNat).val 32 i =
          (if act s.cur x.p i then (vlrsRun s.cur x).1.getD i 0 % 2 ^ 32 else if x.p.zero then 0
           else laneOf (s.cur.vreg x.vd.toNat).val 32 i))
      ∧ RaisesFlags s t 1 (fun _ => true) (fun _ => (vlrsRun s.cur x).2)
      ∧ Retires s t [x.fa, x.fb, x.fc, x.fd] [64 + x.vd.toNat]
      ∧ t = { s with cur := { s.cur.withRegs t.cur with status := t.cur.status, svStatus := t.cur.svStatus } }
      ∧ SameMemory s t

/-- R192, R228, R230, R232 to R234: the recurrences along the rows and along the lanes. -/
def Obligations.RecurrenceInstructions : Prop :=
  TemporalRows ∧ LaneSteps

/-- A forward that has issued (R239): its value is on the way to the register of the slot it names, and its strand waits inside the
instruction; with no neighbour it raises NO_NEIGHBOUR, and in launch mode, to a core that holds no team of the launch,
PROTECTION. -/
def Forwards (i : Instr) (s : State) (fs : List Field) (dir slot : BitVec 2) (reg val len : Nat) (cell : Option Nat) :
    Prop :=
  (s.neighbour s.cur.core dir.toNat = none →
    Traps i s 0x0E (BitVec.ofNat 64 (4 * dir.toNat + slot.toNat)))
  ∧ (∀ c, s.neighbour s.cur.core dir.toNat = some c →
    (s.cur.mode = .launch → s.hasTeam c s.cur.launch = false →
      Traps i s 0x06 (BitVec.ofNat 64 (4 * dir.toNat + slot.toNat)))
    ∧ (s.cur.mode = .supervisor ∨ s.hasTeam c s.cur.launch = true →
      (s.isFenced c = true → Traps i s 0x08 (BitVec.ofNat 64 (4 * dir.toNat + slot.toNat)))
      ∧ (s.isFenced c = false → ∃ t, exec i s = .next t
        ∧ t.fwds = s.fwds ++ [
            { sender := s.cur.uid, launch := s.cur.launch, src := s.cur.core, core := c, slot := slot.toNat,
              reg := reg, val := val, cell := cell, from' := (dir.toNat + 2) % 4 * 4 + s.cur.slot }]
        ∧ t.cur.wait = { kind := .fwd, n := s.cur.uid, since := s.cycles, len := len }
        ∧ t.cur.pc = s.cur.pc ∧ t.cur.y = s.cur.y ∧ Retires s t fs []
        ∧ t = { s with fwds := t.fwds, cur := { s.cur.withRegs t.cur with wait := t.cur.wait } }
        ∧ SameMemory s t)))

/-- R237 to R241: FWD and VFWD send a value to a neighbour and wait for it to land; their arm forms make a register await
one. -/
def Obligations.ForwardsToNeighbours : Prop :=
  ∀ (s : State) (dir slot : BitVec 2),
    (∀ x : A2,
      let fs := [Field.s x.a x.pa 14, { spec := x.d.toNat, lsb := 7, scalar := true, dst := true, src := false }]
      Ready s { fields := fs, mem := true } →
      Forwards (.fwd x dir slot) s fs dir slot x.d.toNat (s.cur.val x.a).toNat 4
        (if (s.cur.reg x.a.toNat).mark = true then some x.a.toNat else none))
    ∧ (∀ (p : Option Pfx) (vd : BitVec 5),
      let fs := [({ spec := vd.toNat, cells := [64 + vd.toNat] } : Field)]
      Ready s { fields := fs } →
      Forwards (.vfwd p dir slot vd) s fs dir slot (64 + vd.toNat) (s.cur.vreg vd.toNat).val.toNat
        (if p.isSome then 8 else 4) (if (s.cur.vreg vd.toNat).mark = true then some (64 + vd.toNat) else none))
    ∧ (∀ d : BitVec 6, d.toNat < 56 → Ready s { fields := [.d d 7], mem := true } →
      ∃ t, exec (.fwdArm d) s = .next t
        ∧ (t.cur.reg d.toNat).full = false ∧ (t.cur.reg d.toNat).mark = true ∧ (t.cur.reg d.toNat).pend = false
        ∧ t.cur.pc = s.cur.pc + 4 ∧ t.cur.y = s.cur.y ∧ RegsOnly s t [.d d 7] [d.toNat] ∧ SameMemory s t)
    ∧ (∀ (p : Option Pfx) (vd : BitVec 5), Ready s { fields := [.vd vd false] } →
      ∃ t, exec (.vfwdArm p vd) s = .next t
        ∧ (t.cur.vreg vd.toNat).full = false ∧ (t.cur.vreg vd.toNat).mark = true ∧ (t.cur.vreg vd.toNat).pend = false
        ∧ t.cur.pc = s.cur.pc + (if p.isSome then 8 else 4) ∧ t.cur.y = s.cur.y
        ∧ RegsOnly s t [.vd vd false] [64 + vd.toNat] ∧ SameMemory s t)

/-- R195, R228, R237, R238: the oldest entry of a core's special-function unit, and the entry of its recurrence unit, write their
rows and flags on their strand, here the one in front; a forward arrives, and in a later cycle the first to have arrived lands in a register that awaits it, which becomes full,
and its sender goes on. -/
def Obligations.CompletionsInTheCore : Prop :=
  ∀ (s : State),
    (∀ e, s.sfu.find? (fun e => e.core == s.arg 0) = some e → s.cur.live = true → s.cur.uid = e.strand → e.vd < 32 →
      ∃ t, exec .sfuEntryComplete s = .next t ∧ t.sfu = s.sfu.erase e
        ∧ (t.cur.vreg e.vd).val = e.row ∧ (t.cur.vreg e.vd).full = true ∧ (t.cur.vreg e.vd).pend = false
        ∧ (∀ r, r ≠ e.vd → t.cur.vreg r = s.cur.vreg r) ∧ t.cur.gk = s.cur.gk
        ∧ t.cur.modeStatus = s.cur.modeStatus ||| e.flags ∧ t.cur.pc = s.cur.pc ∧ SameMemory s t)
    ∧ (∀ e, s.recs.find? (fun e => e.core == s.arg 0) = some e → s.cur.live = true → s.cur.uid = e.strand →
        (e.rows.map (·.1)).Nodup →
      ∃ t, exec .recurrenceComplete s = .next t ∧ t.recs = s.recs.erase e
        ∧ (∀ p, p ∈ e.rows → p.1 < 32 → (t.cur.vreg p.1).val = p.2 ∧ (t.cur.vreg p.1).pend = false)
        ∧ (∀ r, (∀ p, p ∈ e.rows → p.1 ≠ r) → t.cur.vreg r = s.cur.vreg r) ∧ t.cur.gk = s.cur.gk
        ∧ t.cur.modeStatus = s.cur.modeStatus ||| e.flags ∧ t.cur.pc = s.cur.pc ∧ SameMemory s t)
    ∧ (∀ f, s.fwds[s.arg 0]? = some f → f.arr = 0 →
        exec .forwardLand s = .next { s with fwds := s.fwds.set (s.arg 0) { f with arr := s.cycles + 1 } })
    ∧ (∀ f u, s.fwds[s.arg 0]? = some f → s.fwdTarget f = some u → 0 < f.arr → f.arr ≤ s.cycles →
        (∀ g, g ∈ s.fwds → g.launch = f.launch → g.core = f.core → g.slot = f.slot → g.reg = f.reg → 0 < g.arr →
          ¬ (g.arr < f.arr ∨ g.arr = f.arr ∧ g.from' < f.from')) →
        s.cur.live = true → s.cur.uid = u.uid →
        u.uid ≠ f.sender → 48 ≤ f.reg → f.reg < 56 →
      ∃ t, exec .forwardLand s = .next t ∧ t.fwds = s.fwds.eraseIdx (s.arg 0)
        ∧ (t.cur.reg f.reg).val = BitVec.ofNat 64 f.val ∧ (t.cur.reg f.reg).full = true
        ∧ (t.cur.reg f.reg).mark = true ∧ (∀ r, r ≠ f.reg → t.cur.reg r = s.cur.reg r) ∧ t.cur.v = s.cur.v
        ∧ t.strands = mapIf (fun v => v.live && v.uid == f.sender) Strand.wake
            (mapIf (fun v => v.live && v.uid == u.uid) (fun v => v.landCell f.reg f.val) s.strands)
        ∧ SameMemory s t)

/-- The strand past a word of four bytes that no longer waits. -/
def pastWord (s : State) : Strand := { s.cur with pc := s.cur.pc + 4, wait := { } }

/-- The strand past a FENCE with a release part at scope `k`: at package or system scope its later H stores carry what its die has
applied (R325). -/
def pastRelease (s : State) (k : BitVec 6) : Strand :=
  { pastWord s with relClock := if 4 ≤ k.toNat then (s.die (dieOf s.cur.core)).clock else s.cur.relClock }

/-- R326, R323, R324, R432: a FENCE that has just issued: a release completes once every earlier access of the strand is performed
at its scope, an acquire below package scope once its loads and atomics have returned, and the strand then discards its
fetch buffer, and what it observed in its cluster's slice is its own to release (R325); an acquire at package or system scope sends a refresh marker to each other die and completes once the die
has applied what the markers name. Until then the strand tests again. -/
def FenceForms : Prop :=
  ∀ (s : State) (k : BitVec 6), Ready s { } →
    (s.cur.wait = { } →
      (s.released k.toNat = true → exec (.fenceRel k) s = .next { s with cur := pastRelease s k })
      ∧ (s.returned = true → k.toNat < 4 →
          exec (.fenceAcq k) s = .next { s with
            slices := (s.sliceAcquire s.cur.core s.cur.uid).slices, cur := { pastWord s with fetchBuf := none } }
          ∧ (s.released k.toNat = true →
              exec (.fenceFull k) s = .next { s with
                slices := (s.sliceAcquire s.cur.core s.cur.uid).slices, cur := { pastRelease s k with fetchBuf := none } }))
      ∧ (s.returned = true → 4 ≤ k.toNat → ∃ t, exec (.fenceAcq k) s = .next t
          ∧ t.markers = s.markers ++ (([0, 1, 2, 3].filter (fun d => d != dieOf s.cur.core)).map (fun d =>
              { strand := s.cur.uid, src := dieOf s.cur.core, dst := d }))
          ∧ t.cur.wait.kind = .again ∧ t.cur.pc = s.cur.pc ∧ t.stalled = true
          ∧ t = { s with markers := t.markers, stalled := true, cur := { s.cur with wait := t.cur.wait } })
      ∧ (∀ i, (i = .fenceRel k ∨ i = .fenceFull k) ∧ s.released k.toNat = false
            ∨ (i = .fenceAcq k ∧ s.returned = false) →
          ∃ t, exec i s = .next t ∧ t.cur.wait.kind = .again ∧ t.cur.pc = s.cur.pc ∧ t.stalled = true
            ∧ t = { s with stalled := true, cur := { s.cur with wait := t.cur.wait } }))
    ∧ (s.cur.wait.kind = .again → s.cur.wait.n = 1 →
        (∀ m, m ∈ s.markers → m.strand = s.cur.uid → s.markerDone m = true) →
        exec (.fenceAcq k) s = .next { s with
            markers := s.markers.filter (fun m => m.strand != s.cur.uid),
            slices := (s.sliceAcquire s.cur.core s.cur.uid).slices, cur := { pastWord s with fetchBuf := none } }
        ∧ exec (.fenceFull k) s = .next { s with
            markers := s.markers.filter (fun m => m.strand != s.cur.uid),
            slices := (s.sliceAcquire s.cur.core s.cur.uid).slices, cur := { pastRelease s k with fetchBuf := none } })

/-- R67, R68: DRAINST completes once every earlier posted store of the strand is performed or has placed its record, and tests again
until then; ICINV of an empty range only moves on, and of any other waits for its acknowledgement. -/
def DrainForms : Prop :=
  ∀ (s : State),
    (Ready s { } →
      (s.drained s.cur.uid = true → exec .drainst s = .next { s with cur := pastWord s })
      ∧ (s.drained s.cur.uid = false → ∃ t, exec .drainst s = .next t ∧ t.cur.wait.kind = .again
          ∧ t = { s with stalled := true, cur := { s.cur with wait := t.cur.wait } }))
    ∧ (∀ (k : BitVec 6) (x : AB), Ready s { fields := [.s x.a x.pa 14, .s x.b x.pb 21] } →
        let a := (s.cur.val x.a).toNat
        let n := (s.cur.val x.b).toNat
        (n = 0 → Moves (.icinv k x) s [.s x.a x.pa 14, .s x.b x.pb 21] (s.cur.pc + 4))
        ∧ (0 < n → ∃ t, exec (.icinv k x) s = .next t
          ∧ t.icinvs = s.icinvs ++ [(s.cur.uid, k.toNat, a / 64, (a + n - 1) / 64 - a / 64 + 1)]
          ∧ t.cur.wait = { kind := .icinv, n := s.cur.uid, since := s.cycles, len := 4 } ∧ t.cur.pc = s.cur.pc
          ∧ Retires s t [.s x.a x.pa 14, .s x.b x.pb 21] []
          ∧ t = { s with icinvs := t.icinvs, cur := { s.cur.withRegs t.cur with wait := t.cur.wait } }
          ∧ SameMemory s t))
    ∧ (∀ t x, s.bySlot (s.arg 0) (s.arg 1) = some t → s.icinvs.find? (fun x => x.1 == t.uid) = some x →
        (∀ st, st ∈ s.stores → st.beforeIcinv t.uid x.2.1 = false) → x.2.1 < 3 ∨ s.writtenBack t.uid = true →
        ∃ u, exec .icinvAcknowledgement s = .next u
          ∧ (∀ l, l ∈ u.icache → l ∈ s.icache ∧ ¬ (x.2.2.1 ≤ l.line ∧ l.line < x.2.2.1 + x.2.2.2
              ∧ inScope x.2.1 t.core l.owner = true))
          ∧ (∀ l, l ∈ u.islices → l ∈ s.islices ∧ ¬ (x.2.2.1 ≤ l.line ∧ l.line < x.2.2.1 + x.2.2.2
              ∧ clusterInScope x.2.1 t.core l.owner = true))
          ∧ u.icinvs = s.icinvs.filter (fun y => y.1 != t.uid)
          ∧ (s.cur.live = true → s.cur.uid = t.uid → u.cur = s.cur.wake) ∧ SameMemory s u)

/-- R326, R323, R324, R432, R67, R68: the fences, DRAINST and ICINV. -/
def Obligations.FencesAndDrains : Prop :=
  FenceForms ∧ DrainForms

/-- R319 to R322, R259, R317: the steps by which a posted store is performed: in its die's view, or in its cluster's slice, in the program order of
its bytes; at its owner, once everything causally before it is there; and its acknowledgement, after which it is gone. One of whose access a piece fails is
not applied, nor is the rest of the access, and one record travels to its strand. An update that is due is applied to its die's view. -/
def StoreSteps : Prop :=
  ∀ (s : State),
    (∀ x, s.arg 1 = 0 → s.stores[s.arg 2]? = some x → dieOf x.core = s.arg 0 → s.mayPerform x = true →
        inWindow x.addr = false →
      let u := s.touch x.cls x.addr
      let gone := { u with stores := s.stores.filter (fun y => y.uid != x.uid) }
      (∀ c, u.accessFault x = some c → x.origin ≠ .engine →
        ∃ t, exec .dieViewUpdate s = .next t
          ∧ (∀ y, y ∈ t.stores → y.uid ≠ x.uid ∧ (x.fallsWith y = true → y.stage ≠ .issued ∧ y.lost = true))
          ∧ t.faultMsgs = s.faultMsgs ++ x.reports.map (Post.record c)
          ∧ SameMemory s t)
      ∧ (∀ ks, u.storeKeys x = .ok ks → u.accessFault x = none →
          x.scope = 1 ∨ x.scope = 2 → x.rel = false → x.core < 4096 → s.slices.length < 65536 →
        ∃ t, exec .dieViewUpdate s = .next t ∧ t = { gone with slices := t.slices } ∧ SameMemory s t)
      ∧ (∀ ks, u.storeKeys x = .ok ks → u.accessFault x = none →
          3 ≤ x.scope ∨ x.rel = true ∨ 4096 ≤ x.core → ownerOf x.addr = dieOf x.core →
          u.mustStall x.arr x.cls x.addr ks = false →
        exec .dieViewUpdate s =
          .next (((gone.flushLines (dieOf x.core) x.addr x.size).performStore (dieOf x.core) x ks).repairSpan x ks))
      ∧ (∀ ks, u.storeKeys x = .ok ks → u.accessFault x = none →
          3 ≤ x.scope ∨ x.rel = true ∨ 4096 ≤ x.core → ownerOf x.addr ≠ dieOf x.core →
        exec .dieViewUpdate s = .next ((gone.flushLines (dieOf x.core) x.addr x.size).performStore (dieOf x.core) x ks)))
    ∧ (∀ x ks, s.stores[s.arg 0]? = some x → x.origin ≠ .sth → x.stage = .sent →
        s.clockReady (ownerOf x.addr) (dieOf x.core) x.clock = true →
        let u := s.touch x.cls x.addr
        let v := u.flushLines (ownerOf x.addr) x.addr x.size
        u.elementsPass x = true → u.accessFault x = none → x.lost = false → x.more = [] → x.spoils = false →
        u.keys { sup := true, cls := x.cls } .w x.addr x.size = .ok ks → u.mustStall x.arr x.cls x.addr ks = false →
        ∃ t, exec .postedWriteAtOwner s = .next t ∧ t.nextPos = v.nextPos + 1
          ∧ t.hbm = (v.ownerBytes [] x.addr x.val x.mask ks).hbm
          ∧ (∃ u, u ∈ t.updates ∧ u.kind = .ack ∧ u.die = dieOf x.core ∧ u.store = x.uid)
          ∧ (∀ y, y ∈ t.stores → y.uid = x.uid → y.stage = .applied)
          ∧ t.spad = s.spad ∧ t.host = s.host ∧ t.cur = s.cur ∧ t.strands = s.strands)
    ∧ (∀ x, s.stores[s.arg 0]? = some x → x.origin = .sth → s.hBefore x.strand x.ord = false →
        x.rel = false ∨ s.releaseReady x.strand x.ord 5 x.core = true → s.hostRefuses x.addr x.size = false →
        ∃ t, exec .postedWriteAtOwner s = .next t ∧ t = { s with
          stores := s.stores.filter (fun y => y.uid != x.uid), hostW := t.hostW
          host := Mem.write s.host x.addr x.size (blend (Mem.read s.host x.addr x.size) x.val x.mask) })
    ∧ (∀ u, s.updates[s.arg 0]? = some u → u.kind = .ack →
        ∃ t, exec .writeAcknowledgement s = .next t ∧ t.updates = s.updates.eraseIdx (s.arg 0)
          ∧ t.stores = s.stores.filter (fun y => y.uid != u.store)
          ∧ t = { s with updates := t.updates, stores := t.stores, shadows := t.shadows })
    ∧ (∀ u, s.arg 1 ≠ 0 → s.updates[s.arg 2]? = some u → u.kind = .update → u.die = s.arg 0 →
        s.clockReady u.die u.writer u.clock = true →
        ∃ t, exec .dieViewUpdate s = .next t ∧ t.updates = s.updates.eraseIdx (s.arg 2)
          ∧ t.dies = (s.tickFor u.die u.writer).dies
          ∧ (∀ x, x ∈ t.shadows → x ∈ applyUpdate u s.shadows)
          ∧ t = { s with updates := t.updates, shadows := t.shadows, dies := t.dies, lastW := t.lastW,
                         hostW := t.hostW, behind := t.behind })

/-- R317, R326, R400 to R403, R253, R254: a slice writes back a line; a refresh marker takes the position of its owner; a store-fault
record joins its strand's queue of eight, or counts as lost there; the trap it raises is taken at the boundary; and a unit of
an access to a sibling's scratchpad reaches it, after the strand's earlier accesses to that unit. -/
def MemorySide : Prop :=
  ∀ (s : State),
    (s.lineFrozen (s.arg 0) (s.arg 1) = false →
      exec .sliceWriteback s = .next (s.writeBack (s.arg 0) (s.arg 1))
      ∧ ∀ x, x ∈ (s.slices.filter (fun (x : SliceByte) => !(x.cluster == s.arg 0 && x.addr / 128 == s.arg 1))) →
          x ∈ (s.writeBack (s.arg 0) (s.arg 1)).slices)
    ∧ (∀ m, s.markers[s.arg 0]? = some m → m.pos = none →
        exec .refreshMarker s = .next { s with markers := s.markers.set (s.arg 0) { m with pos := some s.nextPos } })
    ∧ (∀ f, s.faultMsgs[s.arg 0]? = some f → f.r.cause ≠ 0x05 → s.cur.live = true → s.cur.uid = f.strand →
        ∃ t, exec .storeFaultRecordArrival s = .next t ∧ t.faultMsgs = s.faultMsgs.eraseIdx (s.arg 0)
          ∧ (s.cur.sfq.length < 8 → t.cur = { s.cur with sfq := s.cur.sfq ++ [f.r] })
          ∧ (8 ≤ s.cur.sfq.length → t.cur.sfq.length = s.cur.sfq.length ∧ t.cur = { s.cur with sfq := t.cur.sfq })
          ∧ SameMemory s t)
    ∧ (∀ r, s.cur.core = s.arg 0 → s.cur.slot = s.arg 1 → s.cur.sfDue = true → s.cur.ending = none →
        s.cur.haltReq = false → s.cur.preTrap = none → s.insideRecv = false → s.cur.sfq.find? (fun r => !r.rpt) = some r →
        exec .storeFault s = .next (takeTrap
          { s with cur := { s.cur with sfq := markRpt s.cur.sfq } } 0x07 r.addr))
    ∧ (∀ n, s.nops[s.arg 0]? = some n → s.isFenced n.target = false →
        s.dead.contains n.target = false →
        (∀ m, m ∈ s.nops → m.strand = n.strand → m.target = n.target → m.addr / 8 = n.addr / 8 → ¬ m.uid < n.uid) →
        s.rebuilding n.target n.addr n.size = false →
        (n.store = true → 8 ≤ n.size ∨ s.spadSoft n.target n.addr n.size = false → Mem.wf s.spad = true →
          ∃ t, exec .nSpaceAccessAtTarget s = .next t ∧ t.nops = s.nops.eraseIdx (s.arg 0)
            ∧ SpadStore s t n.target n.addr n.size n.val (256 ^ n.size - 1)
            ∧ t = { s with
                nops := t.nops, spad := t.spad, badWords := t.badWords, softErrs := t.softErrs, late := t.late })
        ∧ (n.store = false → s.spadSoft n.target n.addr n.size = false →
          s.badWords.any (fun w => w.core == n.target && !w.row && overlap w.addr 8 n.addr n.size) = false →
          let v := Mem.read s.spad (spadKey n.target n.addr) n.size * 256 ^ (n.addr - n.base)
          let unit := 2 ^ (n.addr / 8 - n.base / 8)
          exec .nSpaceAccessAtTarget s = .next { s with
            nops := s.nops.eraseIdx (s.arg 0),
            pends := s.pends.map (fun p =>
              if p.uid = n.uid ∧ p.strand = n.strand then
                { p with left := p.left - unit, acc := p.acc + v, op := if p.left - unit = 0 then .ready (p.acc + v) else p.op }
              else p) }))

/-- R253, R254, R317, R319 to R322, R400 to R403: what is in flight to memory, as it is performed there. -/
def Obligations.StoresAndMemorySide : Prop :=
  StoreSteps ∧ MemorySide

/-- An atomic that has issued (R337, R329): with a destination a long-latency producer on the operands as they stand, with z a posted
operation; misaligned, MISALIGNED. -/
def IssuesAtomic (i : Instr) (s : State) (x : A3) (op : Nat) (ar dw : Bool) : Prop :=
  let fs := [Field.s x.a x.pa 14, .s x.b x.pb 21, .d x.d 7]
  let n := if dw then 8 else 4
  let a := (s.cur.val x.a).toNat
  Ready s { fields := fs, mem := true } →
  (a % n ≠ 0 → Traps i s 0x04 (s.cur.val x.a))
  ∧ (a % n = 0 → x.d.toNat ≠ 60 → Pends i s fs x.d.toNat ar (.atomic op a n (s.cur.val x.b) (s.cur.ext 0) ar) 4)
  ∧ (a % n = 0 → x.d.toNat = 60 → ∃ t, exec i s = .next t
      ∧ t.stores = s.stores ++ postOf s
          { origin := .atomic, addr := a, raw := s.cur.val x.a, data := s.cur.val x.b, code := if dw then 3 else 2, size := n,
            val := (s.cur.ext 0).toNat, mask := 256 ^ n - 1, scope := 4, rel := ar, atomic := some (op, s.cur.val x.b),
            clock := (s.die (dieOf s.cur.core)).clock }
      ∧ t.cur.hold = s.cur.hold + ar.toNat ∧ t.cur.posted = (s.cur.posted + 1) % 65536
      ∧ t.cur.pc = s.cur.pc + 4 ∧ t.cur.y = s.cur.y ∧ Retires s t fs [] ∧ SameMemory s t)

/-- R337, R338, R329, R27: every atomic at issue, relaxed and acquire-release. -/
def AtomicsAtIssue : Prop :=
  ∀ (s : State) (x : A3) (dw : Bool),
    (IssuesAtomic (.aadd x dw) s x 0 false dw ∧ IssuesAtomic (.aand x dw) s x 1 false dw
      ∧ IssuesAtomic (.aor x dw) s x 2 false dw ∧ IssuesAtomic (.axor x dw) s x 3 false dw
      ∧ IssuesAtomic (.amin x dw) s x 4 false dw ∧ IssuesAtomic (.amax x dw) s x 5 false dw
      ∧ IssuesAtomic (.aminn x dw) s x 6 false dw ∧ IssuesAtomic (.amaxn x dw) s x 7 false dw
      ∧ IssuesAtomic (.axchg x dw) s x 8 false dw ∧ IssuesAtomic (.acas x dw) s x 9 false dw
      ∧ IssuesAtomic (.afadd x) s x 10 false false)
    ∧ (IssuesAtomic (.aaddAr x dw) s x 0 true dw ∧ IssuesAtomic (.aandAr x dw) s x 1 true dw
      ∧ IssuesAtomic (.aorAr x dw) s x 2 true dw ∧ IssuesAtomic (.axorAr x dw) s x 3 true dw
      ∧ IssuesAtomic (.aminAr x dw) s x 4 true dw ∧ IssuesAtomic (.amaxAr x dw) s x 5 true dw
      ∧ IssuesAtomic (.aminnAr x dw) s x 6 true dw ∧ IssuesAtomic (.amaxnAr x dw) s x 7 true dw
      ∧ IssuesAtomic (.axchgAr x dw) s x 8 true dw ∧ IssuesAtomic (.acasAr x dw) s x 9 true dw
      ∧ IssuesAtomic (.afaddAr x) s x 10 true false)

/-- What an atomic leaves in its location (R338), of the old value, the operand and e0, all of `n` bits. -/
def atomicSpec (op n : Nat) (old b e0 : BitVec n) : BitVec n :=
  match op with
  | 0 => old + b
  | 1 => old &&& b
  | 2 => old ||| b
  | 3 => old ^^^ b
  | 4 => if old.toInt ≤ b.toInt then old else b
  | 5 => if b.toInt ≤ old.toInt then old else b
  | 6 => if old.toNat ≤ b.toNat then old else b
  | 7 => if b.toNat ≤ old.toNat then old else b
  | 8 => b
  | _ => if old = e0 then b else old

/-- R338, R329, R335, R259: an `.ar` atomic leaves once its release is complete, with the clock of its die. An atomic that may
be performed is performed at the owner at one instant: its location takes the new value, and the producer has the old one; one
whose translation fails changes no memory and gives its register the cause. -/
def AtomicsPerform : Prop :=
  ∀ (s : State) (p : Pend) (op a n : Nat) (b e0 : Word) (ar : Bool),
    s.arg 0 = 0 → s.pends[s.arg 1]? = some p → p.op = .atomic op a n b e0 ar →
    (p.clock = none → s.arMay p.strand p.uid p.core = true →
      exec .atomicPerform s = .next { s with
        nextUid := s.nextUid + 1
        pends := s.pends.map (fun q =>
          if q.uid = p.uid then { q with clock := some (s.die (dieOf p.core)).clock, inj := s.nextUid } else q) })
    ∧ (∀ k, p.clock = some k → s.atomicMay p.strand p.uid p.core p.inj a n k = true →
    inWindow a = false →
    let u := s.touch (s.reqPend p a).cls a
    (∀ c, u.keys (s.reqPend p a) .rw a n = .error c →
      ∃ t, exec .atomicPerform s = .next t ∧ SameMemory s t
        ∧ t = { u with pends := s.pends.map (fun q =>
          if q.uid = p.uid then { q with op := .failed ⟨c, BitVec.ofNat 64 a⟩, clock := some [] } else q) })
    ∧ (∀ ks, u.keys (s.reqPend p a) .rw a n = .ok ks → u.uncorrectable ks = false →
        u.mustStall p.arr (s.reqPend p a).cls a ks = false → s.slices = [] → op < 10 → n = 4 ∨ n = 8 →
        ∃ t, exec .atomicPerform s = .next t
          ∧ t.hbm = (s.ownerBytes [] a (atomicSpec op (8 * n) (BitVec.ofNat (8 * n) (s.ownRead ks))
              (BitVec.ofNat (8 * n) b.toNat) (BitVec.ofNat (8 * n) e0.toNat)).toNat (256 ^ ks.length - 1) ks).hbm
          ∧ (∀ q, q ∈ t.pends → q.uid = p.uid → q.op = .ready (s.ownRead ks))
          ∧ t.spad = s.spad ∧ t.host = s.host ∧ t.cur = s.cur ∧ t.strands = s.strands ∧ t.nextPos = s.nextPos + 1))

/-- R337, R338, R329, R335: the atomics, at issue and at the owner. -/
def Obligations.Atomics : Prop :=
  AtomicsAtIssue ∧ AtomicsPerform

/-- R340, R341: what a wait's condition asks of the variable's 32 bits. -/
abbrev waitHolds (cond c v : Nat) : Prop :=
  if cond = 0 then v ≠ c else if cond = 1 then v = c else (v + 2 ^ 32 - c) % 2 ^ 32 < 2 ^ 31

/-- R340, R341: WAITNE, WAITEQ and WAITGE complete on an aligned variable in memory that the strand may read, nothing of the strand's
or its core's before it: they issue, the engine finds that the condition holds, and its reply brings the value into the register
and moves the pc on. -/
def WaitsComplete : Prop :=
  ∀ (s : State) (x : A3) (i : Instr) (c : Nat), (i = .waitne x ∧ c = 0) ∨ (i = .waiteq x ∧ c = 1) ∨ (i = .waitge x ∧ c = 2) →
    let fs := [Field.s x.a x.pa 14, .s x.b x.pb 21, .d x.d 7]
    let a := (s.cur.val x.a).toNat
    let req := s.reqOf s.cur.core s.cur.launch (s.cur.mode == .supervisor) false a
    let u := s.touch req.cls a
    Ready s { fields := fs, mem := true } → s.cur.live = true → a % 4 = 0 → inWindow a = false →
    s.causal a (s.die (dieOf s.cur.core)).clock = true → s.notAtOwner s.cur.uid s.nextUid a 4 = false →
    s.earlier s.cur.uid s.nextUid a 4 = false → s.injectedBefore s.cur.core s.nextUid a 4 = false → s.readStalls a 4 = false →
    (∀ v, v ∈ s.waits → v.arrived = true → v.found.isSome = true → v.addr / 8 ≠ a / 8) →
    ∀ ks, u.keys req .r a 4 = .ok ks → u.uncorrectable ks = false → waitHolds c ((s.cur.val x.b).toNat % 2 ^ 32) (u.ownRead ks) →
    ∃ t r p, exec i s = .next t ∧ exec .syncEngineOperation { t with pick := [0, s.waits.length] } = .next r
      ∧ exec .waitReply { r with pick := [s.waits.length] } = .next p
      ∧ (x.d.toNat < 56 → (p.cur.reg x.d.toNat).val = BitVec.ofNat 64 (u.ownRead ks))
      ∧ p.cur.pc = s.cur.pc + 4 ∧ p.cur.wait = { } ∧ p.cur.y = s.cur.y ∧ p.waits = s.waits
      ∧ Retires s p fs [x.d.toNat] ∧ SameMemory s p

/-- R340, R341, R346: a WAIT that has issued waits at the engine of its variable; there its condition is tested at once; the value a
test found goes into its register, and the strand goes on; where the condition holds, the three complete. A JOININIT at the
engine arms its counter, and its strand goes on. -/
def Obligations.WaitsAndReplies : Prop :=
  WaitsComplete ∧ ∀ (s : State),
    (∀ x : A3,
      let fs := [Field.s x.a x.pa 14, .s x.b x.pb 21, .d x.d 7]
      let a := (s.cur.val x.a).toNat
      Ready s { fields := fs, mem := true } →
      ∀ i c, (i = .waitne x ∧ c = 0) ∨ (i = .waiteq x ∧ c = 1) ∨ (i = .waitge x ∧ c = 2) →
        (a % 4 ≠ 0 → Traps i s 0x04 (s.cur.val x.a))
        ∧ (a % 4 = 0 → ∃ t, exec i s = .next t
          ∧ t.waits = s.waits ++ [
              { uid := s.nextUid, strand := s.cur.uid, core := s.cur.core, launch := s.cur.launch,
                sup := s.cur.mode == .supervisor, addr := a, cond := c, c := (s.cur.val x.b).toNat % 2 ^ 32,
                dst := x.d, clock := (s.die (dieOf s.cur.core)).clock }]
          ∧ t.cur.wait = { kind := .sync, n := s.nextUid, since := s.cycles, len := 4, cells := t.cur.emptiedCells s.cur }
          ∧ t.cur.pc = s.cur.pc ∧ t.cur.y = s.cur.y ∧ Books s t fs x.d ∧ SameMemory s t))
    ∧ (∀ w ks, s.arg 0 = 0 → s.waits[s.arg 1]? = some w → w.arrived = false → s.causal w.addr w.clock = true →
        s.notAtOwner w.strand w.uid w.addr 4 = false → s.earlier w.strand w.uid w.addr 4 = false →
        s.injectedBefore w.core w.uid w.addr 4 = false → s.readStalls w.addr 4 = false → inWindow w.addr = false →
        let req := s.reqOf w.core w.launch w.sup false w.addr
        let u := s.touch req.cls w.addr
        u.keys req .r w.addr 4 = .ok ks → u.uncorrectable ks = false →
        let v := u.ownRead ks
        exec .syncEngineOperation s = .next { u with
          waits := u.waits.eraseIdx (s.arg 1) ++ [
            { w with arrived := true, keys := ks, found := if waitHolds w.cond w.c v then some v else none,
                     clock := lastClock u.lastW ks }] })
    ∧ (∀ q h n k c body j, s.arg 0 = 1 → s.syncs[s.arg 1]? = some q → q.op = .joininit h n k c body →
        s.cur.live = true → s.cur.uid = q.strand → s.counter? q.launch (h % 4096) = some j → j.armed = false → j.failed = false →
        ∃ t, exec .syncEngineOperation s = .next t
          ∧ t.counter? q.launch (h % 4096) = some { j with armed := true, count := n, queue := k, cluster := c, body := body }
          ∧ t.syncs = s.syncs.filter (fun r => r.uid != q.uid) ∧ t.cur.gk = s.cur.gk
          ∧ t.cur.wait = { } ∧ t.cur.pc = s.cur.pc + BitVec.ofNat 48 s.cur.wait.len ∧ SameMemory s t)
    ∧ (∀ w v, s.waits[s.arg 0]? = some w → w.found = some v → s.repliedFirst w = false →
        s.cur.live = true → s.cur.uid = w.strand →
        ∃ t, exec .waitReply s = .next t ∧ t.waits = s.waits.eraseIdx (s.arg 0)
          ∧ (w.dst.toNat < 56 → (t.cur.reg w.dst.toNat).val = BitVec.ofNat 64 v)
          ∧ t.cur.need = joinClock s.cur.need w.clock
          ∧ t.cur.wait = { } ∧ t.cur.pc = s.cur.pc + BitVec.ofNat 48 s.cur.wait.len ∧ SameMemory s t)

/-- A request that has gone to a synchronisation engine (R372): the strand waits inside the instruction. -/
def Asks (i : Instr) (s : State) (fs : List Field) (l : Nat) (dst : BitVec 6) (op : SyncOp) : Prop :=
  ∃ t, exec i s = .next t
    ∧ t.syncs = s.syncs ++ [
        { uid := s.nextUid, strand := s.cur.uid, core := s.cur.core, launch := s.cur.launch,
          sup := s.cur.mode == .supervisor, l := l, dst := dst, op := op, clock := (s.die (dieOf s.cur.core)).clock }]
    ∧ t.nextUid = s.nextUid + 1
    ∧ t.cur.wait = { kind := .sync, n := s.nextUid, since := s.cycles, len := 4, cells := t.cur.emptiedCells s.cur }
    ∧ t.cur.pc = s.cur.pc ∧ t.cur.y = s.cur.y ∧ Books s t fs dst
    ∧ t = { s with syncs := t.syncs, nextUid := t.nextUid, cur := { s.cur.withRegs t.cur with wait := t.cur.wait } }
    ∧ SameMemory s t

/-- R372 to R376, R370, R346: the capsule instructions and JOININIT at issue: their checks, and the request they send. A step
that has been displaced ends with status 1, and CAPS and CAPE outside a capsule are illegal. -/
def Obligations.CapsuleInstructionsIssue : Prop :=
  ∀ (s : State),
    (∀ (x : A2) (i : Instr) (op : SyncOp) (fs : List Field),
      (i = .capb x ∧ op = .capb ∧ fs = fields2 x ++ [cregField x.d])
        ∨ (i = .capa x ∧ op = .capa ∧ fs = fields2 x ++ [cregDest])
        ∨ (i = .capq x ∧ op = .capq ∧ fs = fields2 x) →
      let a := (s.cur.val x.a).toNat
      Ready s { fields := fs, mem := true, cap := .opens } →
        (a % 128 ≠ 0 → Traps i s 0x04 (s.cur.val x.a)) ∧ (a % 128 = 0 → Asks i s fs a x.d op))
    ∧ (∀ x : A3,
      let a := (s.cur.val x.a).toNat
      Ready s { fields := fields3 x, mem := true, cap := .opens } →
        (a % 128 ≠ 0 → Traps (.capr x) s 0x04 (s.cur.val x.a))
        ∧ (a % 128 = 0 → Asks (.capr x) s (fields3 x) a x.d (.capr ((s.cur.val x.b).toNat % 2 ^ 32))))
    ∧ (∀ d : BitVec 6,
      (Ready s
          { fields := [.d d 7, cregField d], mem := true, cap := .allowed,
            own := if s.cur.cap.mode = .opened ∧ s.cur.cap.idx = 7 then some 5 else none } →
        (s.cur.cap.mode = .none → Traps (.caps d) s 0x01 (wordOf (.caps d)))
        ∧ (s.cur.cap.mode = .opened → Asks (.caps d) s [.d d 7, cregField d] s.cur.cap.l d (.caps d false 0))
        ∧ (s.cur.cap.mode = .displaced → s.cur.cap.viaCapa = false → ∃ t, exec (.caps d) s = .next t
          ∧ (d.toNat < 56 → (t.cur.reg d.toNat).val = 1) ∧ t.cur.cap.mode = .none ∧ t.cur.pc = s.cur.pc + 4
          ∧ SameMemory s t)))
    ∧ (∀ x : A2, Ready s { fields := fields2 x, mem := true, cap := .allowed } →
        (s.cur.cap.mode = .none → Traps (.cape x) s 0x01 (wordOf (.cape x)))
        ∧ (s.cur.cap.mode = .opened → Asks (.cape x) s (fields2 x) s.cur.cap.l x.d (.caps x.d true (s.cur.val x.a))))
    ∧ (∀ x : A3,
      let fs := [Field.s x.a x.pa 14, .s x.b x.pb 21, .sd x.d false 7]
      let h := (s.cur.val x.a).toNat
      let b := (s.cur.val x.b).toNat
      let d := (s.cur.val x.d).toNat
      Ready s { fields := fs, mem := true } →
      let bad := s.badHandle s.cur.launch h || s.counterFailed s.cur.launch h
      let fits := d < 2 ^ 36 ∧ d % 2 ^ 32 ≠ 0
      (bad = true → Traps (.joininit x) s 0x06 (s.cur.val x.a))
      ∧ (bad = false → ¬ fits → Traps (.joininit x) s 0x06 (s.cur.val x.d))
      ∧ (bad = false → fits → b % 64 ≠ 0 → Traps (.joininit x) s 0x04 (s.cur.val x.b))
      ∧ (bad = false → fits → b % 64 = 0 → 0x3FFC0 ≤ b → Traps (.joininit x) s 0x06 (s.cur.val x.b))
      ∧ (bad = false → fits → b % 64 = 0 → b < 0x3FFC0 →
          Asks (.joininit x) s fs 0 60 (.joininit h (d % 2 ^ 32) (d / 2 ^ 32) (clusterOf s.cur.core)
            ((List.range 8).map (fun k => BitVec.ofNat 64 (Mem.read s.spad (spadKey s.cur.core (b + 8 * k)) 8))))))

/-- R351, R352, R353: ENQ and ENQ.ack to a queue of the launch, of another launch or of another package: a record of e0 to e7 is on
its way with its release, and ENQ.ack writes its ticket; reserved bits, or a cluster the launch does not use, raise PROTECTION;
with no room, no credit or 64 tickets out, they do not issue. ACKW reads the status of a ticket, and waits while it is out. -/
def EnqueueForms : Prop :=
  ∀ (s : State),
    (∀ (i : Instr) (fs : List Field) (a b d : BitVec 6) (ack : Bool),
      (∃ x : AB, i = .enq x ∧ fs = [Field.s x.a x.pa 14, .s x.b x.pb 21] ∧ a = x.a ∧ b = x.b ∧ d = 60 ∧ ack = false)
        ∨ (∃ x : A3, i = .enqAck x ∧ fs = fields3 x ∧ a = x.a ∧ b = x.b ∧ d = x.d ∧ ack = true) →
      Ready s { fields := fs, mem := true } →
      let v := (s.cur.val a).toNat
      let q := v % 16
      let c := v / 16 % 64
      let other := decide (v / 2 ^ 15 % 2 = 1)
      let pkg := v / 2 ^ 16 % 256
      let away := other && pkg != (s.die (dieOf s.cur.core)).package
      let target := if other then (s.cur.val b).toNat % 2 ^ 32 else s.cur.launch
      let reserved := v / 2 ^ 24 ≠ 0 ∨ v / 2 ^ 11 % 16 ≠ 0
      let wrong := reserved ∨ (other = false ∧ s.usesCluster s.cur.launch c = false)
      let waits := (ack = true ∧ 64 ≤ s.cur.ackPend.length) ∨ (away = false ∧ s.enqStalls s.cur.core target q c = true)
      (wrong → Traps i s 0x06 (s.cur.val a))
      ∧ (¬ wrong → waits → Stalls i s)
      ∧ (¬ wrong → ¬ waits → ∃ t, exec i s = .next t
          ∧ t.enqs = s.enqs ++ [
              { uid := s.nextUid, strand := s.cur.uid, core := s.cur.core, launch := s.cur.launch,
                target := target, q := q, cluster := c,
                body := { w := s.cur.e.toList, run := v / 2 ^ 10 % 2 == 1 },
                scope := max 4 (s.queueD target q).scope,
                ticket := if ack then some (s.cur.tickets % 65536) else none,
                pkg := if away then some pkg else none,
                credit := !away && dieOf s.cur.core != dieOfCluster c }]
          ∧ t.nextUid = s.nextUid + 1
          ∧ (ack = true → d.toNat < 56 → (t.cur.reg d.toNat).val = BitVec.ofNat 64 (s.cur.tickets % 65536))
          ∧ (ack = true → t.cur.tickets = s.cur.tickets + 1
              ∧ t.cur.ackPend = s.cur.ackPend ++ [s.cur.tickets % 65536])
          ∧ (ack = false → t.cur.tickets = s.cur.tickets ∧ t.cur.ackPend = s.cur.ackPend)
          ∧ t.cur.pc = s.cur.pc + 4 ∧ t.cur.y = s.cur.y ∧ Retires s t fs [d.toNat]
          ∧ t = { s with enqs := t.enqs, nextUid := t.nextUid,
                         cur := { s.cur.withRegs t.cur with tickets := t.cur.tickets, ackPend := t.cur.ackPend } }
          ∧ SameMemory s t))
    ∧ (∀ x : A2, Ready s { fields := fields2 x, mem := true } →
        let k := (s.cur.val x.a).toNat % 65536
        (s.cur.knowsTicket k = false → Traps (.ackw x) s 0x06 (s.cur.val x.a))
        ∧ (s.cur.knowsTicket k = true → k ∈ s.cur.ackPend → ∃ t, exec (.ackw x) s = .next t
            ∧ t.cur.wait.kind = .ackw ∧ t = { s with stalled := true, cur := { s.cur with wait := t.cur.wait } })
        ∧ (s.cur.knowsTicket k = true → k ∉ s.cur.ackPend → ∃ t, exec (.ackw x) s = .next t
            ∧ (x.d.toNat < 56 → (t.cur.reg x.d.toNat).val = (if s.cur.acks.getLsbD (k % 64) then 1 else 0))
            ∧ t.cur.pc = s.cur.pc + 4 ∧ t.cur.wait = { } ∧ t.cur.y = s.cur.y ∧ Retires s t (fields2 x) [x.d.toNat]
            ∧ SameMemory s t))

/-- R354, R51, R54, R347: DEQ is a long-latency producer that acquires; SUSP leaves a continuation of the strand on its way to a queue
and frees its slot; SPAWN sends a continuation of its own; JOINDEC sends a counter message. -/
def DequeueForms : Prop :=
  ∀ (s : State),
    (∀ x : A3, s.cur.isHandler = false → Ready s { fields := fields3 x, mem := true } →
      let q := (s.cur.val x.a).toNat
      let b := (s.cur.val x.b).toNat
      (16 ≤ q → Traps (.deq x) s 0x06 (s.cur.val x.a))
      ∧ (q < 16 → b % 64 ≠ 0 → Traps (.deq x) s 0x04 (s.cur.val x.b))
      ∧ (q < 16 → b % 64 = 0 → 0x3FFC0 ≤ b → Traps (.deq x) s 0x06 (s.cur.val x.b))
      ∧ (q < 16 → b % 64 = 0 → b < 0x3FFC0 → s.cur.heldRec = none →
          Pends (.deq x) s (fields3 x) x.d.toNat true (.deq q b s.cur.pc none) 4)
      ∧ (∀ r, q < 16 → b % 64 = 0 → b < 0x3FFC0 → s.cur.heldRec = some r →
          ∃ t, exec (.deq x) s = .next t
            ∧ t.pends = s.pends ++ [pendOf s x.d.toNat true (.deq q b s.cur.pc (some r))] ∧ t.cur.heldRec = none
            ∧ t.cur.pc = s.cur.pc + 4 ∧ t.cur.y = s.cur.y ∧ t.cur.hold = s.cur.hold + 1
            ∧ Retires s t (fields3 x) [x.d.toNat] ∧ SameMemory s t))
    ∧ (∀ x : A3, s.cur.isHandler = true → Ready s { fields := fields3 x, mem := true, cap := .unchecked } →
        Traps (.deq x) s 0x01 (wordOf (.deq x)))
    ∧ (∀ x : A1, s.cur.isHandler = true → Ready s { fields := [.s x.a x.pa 14, suspField], cap := .unchecked } →
        Traps (.susp x) s 0x01 (wordOf (.susp x)))
    ∧ (∀ x : A1, s.cur.isHandler = false → Ready s { fields := [.s x.a x.pa 14, suspField] } →
        let q := (s.cur.val x.a).toNat % 16
        let c := clusterOf s.cur.core
        let idle := s.noPends s.cur.uid = true ∧ s.nops.any (fun n => n.strand == s.cur.uid) = false
          ∧ s.writtenBack s.cur.uid = true
        (¬ idle → Stalls (.susp x) s)
        ∧ (idle → s.ending s.cur.launch = true → ∃ t, exec (.susp x) s = .next t ∧ t.enqs = s.enqs
          ∧ t.cur.live = false ∧ (∀ u, u ∈ t.strands → u.uid ≠ s.cur.uid) ∧ SameMemory s t)
        ∧ (idle → s.ending s.cur.launch = false → s.enqStalls s.cur.core s.cur.launch q c = true → Stalls (.susp x) s)
        ∧ (idle → s.ending s.cur.launch = false → s.enqStalls s.cur.core s.cur.launch q c = false →
          ∃ t, exec (.susp x) s = .next t
          ∧ (∃ e, t.enqs = s.enqs ++ [e] ∧ e.strand = s.cur.uid ∧ e.core = s.cur.core ∧ e.target = s.cur.launch ∧ e.q = q
            ∧ e.cluster = c ∧ e.spawn = false ∧ e.pkg = none ∧ e.body.run = true
            ∧ e.body.w = [pcBits ((s.cur.pc + 4).setWidth 64), (s.cur.reg 47).val, (s.cur.reg 48).val,
                (s.cur.reg 49).val, (s.cur.reg 50).val, (s.cur.reg 51).val, (s.cur.reg 52).val, (s.cur.reg 53).val])
          ∧ t.cur.live = false ∧ (∀ u, u ∈ t.strands → u.uid ≠ s.cur.uid) ∧ SameMemory s t))
    ∧ (∀ x : AB, Ready s { fields := [.s x.a x.pa 14, .s x.b x.pb 21, spawnField] } →
        let v := s.cur.val x.a
        (¬ (v.toNat % 2 = 0 ∧ v.toNat < 2 ^ 48) → Traps (.spawn x) s 0x04 v)
        ∧ (v.toNat % 2 = 0 → v.toNat < 2 ^ 48 → ∃ t, exec (.spawn x) s = .next t
          ∧ t.enqs = s.enqs ++ [
              { uid := s.nextUid, strand := s.cur.uid, core := s.cur.core, launch := s.cur.launch,
                target := s.cur.launch, q := 0, cluster := clusterOf s.cur.core,
                scope := max 1 (s.queueD s.cur.launch 0).scope, spawn := true,
                body := { run := true, w := [v, s.cur.val x.b, (s.cur.reg 0).val, (s.cur.reg 1).val, (s.cur.reg 2).val,
                  (s.cur.reg 3).val, (s.cur.reg 4).val, (s.cur.reg 5).val] } }]
          ∧ t.cur.pc = s.cur.pc + 4 ∧ t.cur.y = s.cur.y ∧ Retires s t [.s x.a x.pa 14, .s x.b x.pb 21, spawnField] []
          ∧ t = { s with enqs := t.enqs, nextUid := t.nextUid, cur := s.cur.withRegs t.cur } ∧ SameMemory s t))
    ∧ (∀ x : AB, Ready s { fields := [.s x.a x.pa 14, .s x.b x.pb 21], mem := true } →
        let h := (s.cur.val x.a).toNat
        let bad := s.badHandle s.cur.launch h || s.counterFailed s.cur.launch h
        let twin := s.cur.twin.isSome
        let n := s.flowCount s.cur.core (fun m =>
          if twin then m.isItem && m.entry == s.cur.entry
          else m.isCounter && !m.isItem && (m.w.getD 2 0).toNat / 4096 % 4 == h / 4096 % 4)
        let spent := twin = true ∧ 32 ≤ s.cur.twinSends
        (bad = true → Traps (.joindec x) s 0x06 (s.cur.val x.a))
        ∧ (bad = false → spent → Traps (.joindec x) s 0x06 33)
        ∧ (bad = false → ¬ spent → 32 ≤ n → Stalls (.joindec x) s)
        ∧ (bad = false → ¬ spent → n < 32 → ∃ t, exec (.joindec x) s = .next t
          ∧ t.msgs = s.msgs ++ [
              { uid := s.nextUid, launch := s.cur.launch, die := dieOf s.cur.core, strand := some s.cur.uid,
                core := s.cur.core, stage := if twin then .twin else .queued, entry := s.cur.entry,
                w := [BitVec.ofNat 64 (2 ^ 48 + s.logicalOf s.cur.core * 2 ^ 32),
                  BitVec.ofNat 64 (s.cur.seq * 2 ^ 48 + s.timeNs % 2 ^ 48), s.cur.val x.a,
                  BitVec.ofNat 64 ((s.cur.val x.b).toNat % 2 ^ 32), 0, 0, 0, 0] }]
          ∧ t.cur.twinSends = s.cur.twinSends + 1
          ∧ t.cur.pc = s.cur.pc + 4 ∧ t.cur.y = s.cur.y ∧ Retires s t [.s x.a x.pa 14, .s x.b x.pb 21] []
          ∧ t = { s with msgs := t.msgs, nextUid := t.nextUid,
                         cur := { s.cur.withRegs t.cur with twinSends := t.cur.twinSends } }
          ∧ SameMemory s t))

/-- R351 to R354, R51, R54, R347: the instructions on queues, and those that leave a continuation or a counter message. -/
def Obligations.QueueForms : Prop :=
  EnqueueForms ∧ DequeueForms

/-- R349, R352, R140, R54, R347: the steps by which records travel: once its release is complete a record is placed at the end of its queue
and acknowledged; an acknowledgement sets its ticket's status; a credit comes back; a spawned record starts on a free slot; and a counter
message counts down its counter, whose record is sent when the count reaches zero. -/
def Obligations.RecordSteps : Prop :=
  ∀ (s : State),
    (∀ e, s.enqs[s.arg 0]? = some e → e.spawn = false → e.pkg = none → e.origin = none → s.recBefore e = false →
        s.releaseReady e.strand e.uid e.scope e.core = true → s.usesCluster e.target e.cluster = true →
        s.queueRoom e.target e.q e.cluster 0 = true →
        exec .enqRecordArrival s = .next (
          let s1 := ({ s with enqs := s.enqs.eraseIdx (s.arg 0) }).placeRec e.target e.q e.cluster
            { e.body with clock := joinClock e.body.clock (s.die (dieOf e.core)).clock }
          let s2 := match e.ticket with
            | none => s1
            | some k => { s1 with acks := s1.acks ++ [{ strand := e.strand, ticket := k, status := false }] }
          if e.credit then { s2 with creditRets := s2.creditRets ++ [(dieOf e.core, e.cluster)] } else s2))
    ∧ (∀ a, s.acks[s.arg 0]? = some a → s.cur.live = true → s.cur.uid = a.strand →
        ∃ t, exec .enqAckArrival s = .next t ∧ t.acks = s.acks.eraseIdx (s.arg 0)
          ∧ a.ticket ∉ t.cur.ackPend ∧ t.cur.acks.getLsbD (a.ticket % 64) = a.status
          ∧ (∀ j, j < 64 → j ≠ a.ticket % 64 → t.cur.acks.getLsbD j = s.cur.acks.getLsbD j)
          ∧ t.cur = { s.cur with ackPend := t.cur.ackPend, acks := t.cur.acks } ∧ SameMemory s t)
    ∧ exec .vc3CreditReturn s = .next { s with creditRets := s.creditRets.eraseIdx (s.arg 0) }
    ∧ (∀ e l h, s.enqs[s.arg 0]? = some e → e.spawn = true → s.releaseReady e.strand e.uid 1 e.core = true →
        s.launch? e.launch = some l → s.holdOf e.core e.launch = some h → s.ending e.launch = false →
        h.ended = false → h.ending = none → h.drained = none → s.arg 1 < 4 → s.slotFree e.core (s.arg 1) = true →
        exec .spawnPlace s =
          .next (({ s with enqs := s.enqs.eraseIdx (s.arg 0) }).startRecord e.core (s.arg 1) l h e.body))
    ∧ (∀ m c, s.msgs[s.arg 0]? = some m → m.isCounter = true → m.stage = .sent →
        (s.msgs.take (s.arg 0)).any (fun o => o.isCounter && !o.isItem && o.core == m.core
          && (o.w.getD 2 0).toNat / 4096 % 4 == (m.w.getD 2 0).toNat / 4096 % 4) = false →
        s.counter? m.launch ((m.w.getD 2 0).toNat % 4096) = some c → c.failed = false → c.armed = true →
        let n := (m.w.getD 3 0).toNat % 2 ^ 32
        0 < n →
        (n < c.count → ∃ t, exec .counterMessage s = .next t ∧ t.msgs = s.msgs.eraseIdx (s.arg 0)
          ∧ t.counter? m.launch ((m.w.getD 2 0).toNat % 4096) =
              some { c with count := c.count - n, clock := joinClock c.clock m.clock }
          ∧ t = { s with msgs := t.msgs, counters := t.counters })
        ∧ (n = c.count → (m.w.getD 2 0).toNat / 4096 % 4 = dieOfCluster c.cluster →
          ∃ t e, exec .counterMessage s = .next t ∧ t.msgs = s.msgs.eraseIdx (s.arg 0)
          ∧ t.counter? m.launch ((m.w.getD 2 0).toNat % 4096) = some { c with count := 0, armed := false, clock := [] }
          ∧ t.enqs = s.enqs ++ [e] ∧ e.q = c.queue ∧ e.cluster = c.cluster ∧ e.target = m.launch
          ∧ e.body = { w := c.body, run := true, clock := joinClock c.clock m.clock } ∧ SameMemory s t))

/-- R287, R284, R286, R69, R25: TDEF and TREL set an entry of the core's tile table, whose generation advances, once it is not busy; a
bad TDEF value raises PROTECTION; TSTAT reads an entry, with PIN, into a register and y0; FENCESP advances the generations a
mask names. -/
def Obligations.TileTableInstructions : Prop :=
  ∀ (s : State) (n : BitVec 5),
    let c := s.cur.core
    let old := s.tile c n.toNat
    (∀ x : A1, Ready s { fields := [.s x.a x.pa 14], mem := true } →
      let e := s.cur.val x.a
      let bad := tdefBad e (s.tensors s.cur.launch).length
      (s.tileBusy c n.toNat = true → Stalls (.tdef n x) s)
      ∧ (s.tileBusy c n.toNat = false → bad = true → Traps (.tdef n x) s 0x06 e)
      ∧ (s.tileBusy c n.toNat = false → bad = false → ∃ t, exec (.tdef n x) s = .next t
          ∧ (∃ v, (t.core c).tiles = (s.core c).tiles.set n.toNat v ∧ v.toNat % 2 ^ 56 = e.toNat % 2 ^ 56
              ∧ tGen v = (tGen old + 1) % 256)
          ∧ (∀ d, d ≠ c → t.core d = s.core d) ∧ t.cur.pc = s.cur.pc + 4 ∧ t.cur.y = s.cur.y
          ∧ Retires s t [.s x.a x.pa 14] [] ∧ t = { s with cores := t.cores, cur := s.cur.withRegs t.cur }
          ∧ SameMemory s t))
    ∧ (Ready s { mem := true } →
      (s.tileBusy c n.toNat = true → Stalls (.trel n) s)
      ∧ (s.tileBusy c n.toNat = false → ∃ t, exec (.trel n) s = .next t
          ∧ (∃ v, (t.core c).tiles = (s.core c).tiles.set n.toNat v ∧ tState v = 0 ∧ tGen v = (tGen old + 1) % 256
              ∧ tBase v = tBase old ∧ tFormat v = tFormat old)
          ∧ (∀ d, d ≠ c → t.core d = s.core d) ∧ t.cur.pc = s.cur.pc + 4
          ∧ t = { s with cores := t.cores, cur := s.cur.withRegs t.cur } ∧ SameMemory s t))
    ∧ (∀ d : BitVec 6, Ready s { fields := [.d d 7], mem := true } →
        ∃ v, Yields (.tstat n d) s [.d d 7] d v 4 ∧ v.getLsbD 34 = decide ((s.use c n.toNat).pins ≠ 0)
          ∧ (∀ b, b < 64 → b ≠ 34 → v.getLsbD b = old.getLsbD b))
    ∧ (∀ x : A1, Ready s { fields := [.s x.a x.pa 14] } → ∃ t, exec (.fencesp x) s = .next t
        ∧ (∀ i, t.tile c i = (if i < (s.core c).tiles.length ∧ (s.cur.val x.a).toNat / 2 ^ i % 2 = 1
            then tNextGen (s.tile c i) else s.tile c i))
        ∧ (∀ d, d ≠ c → t.core d = s.core d) ∧ t.late = s.fenceSpad.late ∧ t.cur.pc = s.cur.pc + 4 ∧ t.cur.y = s.cur.y
        ∧ t = { s with cores := t.cores, late := t.late, cur := s.cur.withRegs t.cur } ∧ SameMemory s t)

/-- R289, R290, R294, R295, R303, R304: a copy job at issue, with the checks of its operand, its tile and its format: it takes the next job
identifier, which goes into d and y0, and its tile fills or drains meanwhile; an MXDR takes rows v0 to v31, which are empty until the engine has
them, and one sequence number. -/
def JobsAtIssue : Prop :=
  ∀ (s : State),
    (∀ (n : BitVec 5) (x : A2) (i : Instr) (kind : JobKind),
      (i = .cpyj n x ∧ kind = .load) ∨ (i = .cpyjSt n x ∧ kind = .store) ∨ (i = .cpyq n x ∧ kind = .quant) →
      Ready s { fields := fields2 x, mem := true } →
      let v := s.cur.val x.a
      let c := s.cur.core
      let e := s.tile c n.toNat
      let id := (s.core c).nextJob
      let wait := s.tileBusy c n.toNat || s.idPending c id || !s.copyRoom c
      let wrong := (kind = .store ∧ tState e = 0)
        ∨ (kind = .quant ∧ (fmtPlanes (tFormat e) = 0 ∨ tPlanes e ≠ fmtPlanes (tFormat e)))
      (jobOperandBad v = true → Traps i s 0x06 v)
      ∧ (jobOperandBad v = false → v.toNat % 64 ≠ 0 → Traps i s 0x04 (BitVec.ofNat 64 (v.toNat % 2 ^ 52)))
      ∧ (jobOperandBad v = false → v.toNat % 64 = 0 → wait = true → Stalls i s)
      ∧ (jobOperandBad v = false → v.toNat % 64 = 0 → wait = false → wrong → Traps i s 0x06 (n.setWidth 64))
      ∧ (jobOperandBad v = false → v.toNat % 64 = 0 → wait = false → ¬ wrong → ∃ t, exec i s = .next t
          ∧ t.jobs = s.jobs ++ [s.newJob v n.toNat kind] ∧ (t.core c).nextJob = (id + 1) % 256
          ∧ (t.core c).tiles = (s.core c).tiles.set n.toNat (tSetState e (if kind = .store then 3 else 1))
          ∧ (x.d.toNat < 56 → (t.cur.reg x.d.toNat).val = BitVec.ofNat 64 id)
          ∧ t.cur.y = #v[BitVec.ofNat 64 id, s.cur.y[0], s.cur.y[1], s.cur.y[2]] ∧ t.cur.pc = s.cur.pc + 4
          ∧ Retires s t (fields2 x) [x.d.toNat]
          ∧ t = { s with jobs := t.jobs, cores := t.cores, nextUid := t.nextUid, cur := s.cur.withRegs t.cur }
          ∧ SameMemory s t))
    ∧ (∀ (x : A1) (i : Instr) (add i32 : Bool),
      (i = .mxdrStF32 x ∧ add = false ∧ i32 = false) ∨ (i = .mxdrAddF32 x ∧ add = true ∧ i32 = false)
        ∨ (i = .mxdrStI32 x ∧ add = false ∧ i32 = true) ∨ (i = .mxdrAddI32 x ∧ add = true ∧ i32 = true) →
      Ready s { fields := [.s x.a x.pa 14, rowsField], mem := true } →
      let v := s.cur.val x.a
      (jobOperandBad v = true → Traps i s 0x06 v)
      ∧ (jobOperandBad v = false → v.toNat % 64 ≠ 0 → Traps i s 0x04 (BitVec.ofNat 64 (v.toNat % 2 ^ 52)))
      ∧ (jobOperandBad v = false → v.toNat % 64 = 0 → s.copyRoom s.cur.core = false → Stalls i s)
      ∧ (jobOperandBad v = false → v.toNat % 64 = 0 → s.copyRoom s.cur.core = true → ∃ t, exec i s = .next t
          ∧ t.jobs = s.jobs ++ [s.newJob v 0 (.drain add i32 ((List.range 32).map (fun k => (s.cur.vreg k).val)))]
          ∧ (∀ k, k < 32 → (t.cur.vreg k).full = false ∧ (t.cur.vreg k).pend = true
              ∧ (t.cur.vreg k).val = (s.cur.vreg k).val)
          ∧ t.cur.posted = (s.cur.posted + 1) % 65536 ∧ t.cur.pc = s.cur.pc + 4 ∧ t.cur.y = s.cur.y
          ∧ SameMemory s t))

/-- R343, R344, R291: JWAIT is a long-latency producer that acquires; JTEST reads the mailbox word at issue, which is 0 while the job runs; an
identifier above 255 raises PROTECTION. -/
def JobWaits : Prop :=
  ∀ (s : State) (x : A2), Ready s { fields := fields2 x, mem := true } →
    let v := s.cur.val x.a
    (256 ≤ v.toNat → Traps (.jwait x) s 0x06 v ∧ Traps (.jtest x) s 0x06 v)
    ∧ (v.toNat < 256 → Pends (.jwait x) s (fields2 x) x.d.toNat true (.jwait v.toNat) 4
      ∧ ∃ t, exec (.jtest x) s = .next t
        ∧ (x.d.toNat < 56 → (t.cur.reg x.d.toNat).full = true ∧ (t.cur.reg x.d.toNat).val =
            (if s.jobs.any (fun j => j.core == s.cur.core && j.id == v.toNat && !j.isDrain) then 0
             else (((s.core s.cur.core).mail.find? (fun p => p.1 == v.toNat)).map (·.2)).getD 0x8000000000000000))
        ∧ t.cur.y = s.cur.y ∧ t.cur.pc = s.cur.pc + 4 ∧ RegsOnly s t (fields2 x) [x.d.toNat] ∧ SameMemory s t)

/-- R288, R292, R293, R286, R291, R297, R303: the copy engine at work: the oldest job of a core reads its record first, and one that breaks
the record's rules stops with BAD_RECORD; a job that is over leaves its queue and writes its mailbox word, and a load makes its tile READY; and an
MXDR whose rows are taken gives them back full and unchanged. -/
def CopyEngine : Prop :=
  ∀ (s : State),
    (∀ j, s.jobs.find? (fun j => j.core == s.arg 0) = some j → s.octetFrozen j.core = false →
        s.jobOver j = false → s.jobRead? j = false → s.releaseReady j.strand j.uid 1 j.core = true → j.shape = none →
        s.arg 1 = 0 → s.arg 2 = 1 →
        (∀ c, s.jobRead j j.recAddr 64 = .error c → c ≠ 0 →
          exec .copyJobElementBlock s = .next (s.setJob { j with fault := some (c, j.recAddr % 2 ^ 52) }))
        ∧ (∀ p, s.jobRead j j.recAddr 64 = .ok p →
          let r := shapeOf p.2
          let bad := shapeBad p.2 r || j.unfit (s.tile j.core j.tile) r
          exec .copyJobElementBlock s = .next (p.1.setJob
            (if bad then { j with fault := some (0x20, j.recAddr % 2 ^ 52) } else { j with shape := some r, block := 1 }))))
    ∧ (∀ j u, s.jobs.find? (fun j => j.core == s.arg 0) = some j → s.octetFrozen j.core = false → s.jobOver j = false →
        s.releaseReady j.strand j.uid 1 j.core = true → s.arg 1 = 1 → j.units[s.arg 2]? = some u → Mem.wf s.spad = true →
        s.rebuilding j.core (tBase (s.tile j.core j.tile) + 8 * u.1) 8 = false →
        ∃ t, exec .copyJobElementBlock s = .next t
          ∧ SpadStore s t j.core (tBase (s.tile j.core j.tile) + 8 * u.1) 8 u.2 (256 ^ 8 - 1)
          ∧ t.jobs = s.jobs.map (fun k => if k.uid == j.uid then { j with units := j.units.eraseIdx (s.arg 2) } else k)
          ∧ t.cur = s.cur ∧ t.strands = s.strands ∧ t.cores = s.cores)
    ∧ (∀ j, s.jobs.find? (fun j => j.core == s.arg 0) = some j → s.octetFrozen j.core = false →
        s.jobOver j = true → j.isDrain = false → s.jobReleased j = true → j.fault = none →
        ∃ t, exec .copyJobComplete s = .next t ∧ t.jobs = s.jobs.filter (fun k => k.uid != j.uid)
          ∧ t.mailbox j.core j.id = (if t.idPending j.core j.id then 0 else 0x8000000000000000)
          ∧ (∀ r, j.kind = .load → j.shape = some r →
              ∃ v, (t.core j.core).tiles = (s.core j.core).tiles.set j.tile v ∧ tState v = 2
                ∧ tScale v = j.scale % 256 ∧ tGen v = (tGen (s.tile j.core j.tile) + 1) % 256)
          ∧ t.cur = s.cur ∧ t.strands = s.strands ∧ t.hbm = s.hbm ∧ t.host = s.host)
    ∧ (∀ t p, s.bySlot (s.arg 0) (s.arg 1) = some t →
        s.pends.find? (fun p => p.strand == t.uid && p.op == .rows) = some p → s.cur.live = true → s.cur.uid = t.uid →
        ∃ u, exec .mxdrRowsTaken s = .next u ∧ u.pends = s.pends.filter (fun q => q.uid != p.uid)
          ∧ (∀ k, k < 32 → (u.cur.vreg k).full = true ∧ (u.cur.vreg k).pend = false
              ∧ (u.cur.vreg k).val = (s.cur.vreg k).val)
          ∧ u.cur.gk = s.cur.gk ∧ u.cur.pc = s.cur.pc ∧ SameMemory s u)

/-- R343, R344, R288, R291 to R293: waiting for a copy job, and the copy engine at work. -/
def JobsAtWork : Prop :=
  JobWaits ∧ CopyEngine

/-- R286 to R297, R303, R304, R343, R344: the copy jobs, at issue and at work. -/
def Obligations.CopyJobs : Prop :=
  JobsAtIssue ∧ JobsAtWork

/-- R300, R301, R298, R302, R307, R314: an MXQ whose plane counts, tiles and scales pass its checks is queued with its pairs as it captured them; rows
v0 to v31 are empty until it completes; an EMPTY or unfit tile raises PROTECTION with its number, a tile still to be filled stalls the chain; the checks come in the
order of R301. MXZ writes zeros into v0 to v31; AUDX marks the next chain of the strand for an audit (R305). -/
def Obligations.MatrixInstructions : Prop :=
  (∀ (s : State) (a b : BitVec 5) (i32 : Bool), Ready s { fields := [rowsField], mem := true } →
    let i : Instr := if i32 then .mxqI32 a b else .mxqF32 a b
    let core := s.cur.core
    let e := (s.cur.ext 5).toNat
    let ka := e / 2 ^ 12 % 16
    let kb := e / 2 ^ 8 % 16
    let j := e % 256
    let wait := s.mxFull core || s.cur.audx && decide (4 ≤ (s.octetSamples (octetOf core)).length)
    let ts := chainTiles a.toNat b.toNat j ka kb
    let side := tSide (s.tile core a.toNat)
    let cap := fun (n : Nat) => capOf n (s.tile core n)
    let ps := (List.range j).map (fun p => (cap (a.toNat + p), cap (b.toNat + p)))
    let ready := ∀ x, x ∈ ts → tState (s.tile core x.1) = 2
    let fit := ∀ x, x ∈ ts → tileUnfit side (s.tile core x.1) x.2 = false
    (wait = true → Stalls i s)
    ∧ (wait = false → mxqBad e a.toNat b.toNat = true → Traps i s 0x06 (s.cur.ext 5))
    ∧ (wait = false → mxqBad e a.toNat b.toNat = false → ∀ x, ts.find? (fun y => tState (s.tile core y.1) != 2) = some x →
        if tState (s.tile core x.1) = 0 then Traps i s 0x06 (BitVec.ofNat 64 x.1) else Stalls i s)
    ∧ (wait = false → mxqBad e a.toNat b.toNat = false → ready →
        ∀ x, ts.find? (fun y => tileUnfit side (s.tile core y.1) y.2) = some x → Traps i s 0x06 (BitVec.ofNat 64 x.1))
    ∧ (wait = false → mxqBad e a.toNat b.toNat = false → ready → fit → scalesBad i32 ps = true → Traps i s 0x09 0)
    ∧ (wait = false → mxqBad e a.toNat b.toNat = false → ready → fit → scalesBad i32 ps = false →
        ∃ t c, exec i s = .next t ∧ t.mxCmds = s.mxCmds ++ [c] ∧ c.core = core ∧ c.strand = s.cur.uid ∧ c.i32 = i32
          ∧ c.t = side ∧ c.ka = ka ∧ c.kb = kb ∧ c.pairs = ps ∧ c.next = 0 ∧ c.sums = []
          ∧ (∀ k, k < 32 → (t.cur.vreg k).full = false ∧ (t.cur.vreg k).pend = true
              ∧ (t.cur.vreg k).val = (s.cur.vreg k).val)
          ∧ (t.core core).lfsr = lfsrStep (s.core core).lfsr ∧ t.cur.audx = false
          ∧ t.cur.gk = s.cur.gk ∧ t.cur.pc = s.cur.pc + 4 ∧ t.cur.y = s.cur.y))
  ∧ (∀ (s : State),
    (Ready s { fields := [{ rowsField with src := false }], mem := true } → ∃ t, exec .mxz s = .next t
      ∧ (∀ k, k < 32 → (t.cur.vreg k).val = 0 ∧ (t.cur.vreg k).full = true) ∧ t.cur.gk = s.cur.gk
      ∧ t.cur.y = s.cur.y ∧ t.cur.pc = s.cur.pc + 4
      ∧ t = { s with cur := { s.cur with v := t.cur.v, pc := t.cur.pc } } ∧ SameMemory s t)
    ∧ (Ready s { mem := true } →
      exec .audx s = .next { s with cur := { s.cur with audx := true, pc := s.cur.pc + 4 } }))

/-- R298, R301, R87, R89: a round of an octet's engine gives every core with a command up to MX_WEIGHT pairs, in the order of the cores; a pair is performed by
adding its exact product to the sums of its command; and a command with no pair left completes: it writes its accumulator lanes, and the
rows are full again. -/
def MatrixEngine : Prop :=
  ∀ (s : State),
    (let before := s.samples.any (fun x => x.octet == s.arg 0 && (s.overdue x && decide (x.next < x.pairs.length)))
     (s.octetStopped (s.arg 0) = false → before = false → exec .matrixRound s = .next ((octetCores (s.arg 0)).foldl
        (fun (s' : State) core => s'.doPairs core (s.core core).mxWeight) s))
     ∧ (s.octetStopped (s.arg 0) = true ∨ before = true →
        exec .matrixRound s = .next (if s.octetSoft (s.arg 0) then s.octetFind (s.arg 0) else s)))
    ∧ (∀ core c p,
        s.mxCmds.find? (fun c => c.core == core && decide (c.next < c.pairs.length)) = some c →
        c.pairs[c.next]? = some p →
        let rd := s.planePicks c.uid 1
        (∀ y, y ∈ (s.doPair core).mxCmds → y.uid = c.uid →
          y.next = c.next + 1
          ∧ y.sums = addPair (minScale c.pairs) c.sums p
              (State.pairProduct { s with pick := s.pick.take 1 ++ s.pick.drop 4 } core c.t c.ka c.kb rd.1 rd.2 p).2)
        ∧ SameMemory s (s.doPair core) ∧ (s.doPair core).cur = s.cur)
    ∧ (∀ c, s.mxCmds.find? (fun c => c.core == s.arg 0) = some c → c.pairs.length ≤ c.next →
        s.octetFrozen c.core = false → s.cur.live = true → s.cur.uid = c.strand →
        ∃ t, exec .mxqComplete s = .next t ∧ t.mxCmds = s.mxCmds.filter (fun y => y.uid != c.uid)
          ∧ t.pends = s.pends.filter (fun p => p.uid != c.uid)
          ∧ (∀ i k, i < 32 → k < 32 → laneOf (t.cur.vreg i).val 32 k =
              (let old := laneOf (s.cur.vreg i).val 32 k
              let sum := c.sums.getD (c.t * i + k) 0
              if i < c.t ∧ k < c.t then
                (if c.i32 then
                  ((if sext old 32 + sum < -(2 ^ 31) then -(2 ^ 31) else if 2 ^ 31 - 1 < sext old 32 + sum then 2 ^ 31 - 1
                    else sext old 32 + sum) % 2 ^ 32).toNat
                else (accF32 old (minScale c.pairs) sum).bits % 2 ^ 32)
              else old))
          ∧ (∀ i, i < 32 → (t.cur.vreg i).full = true ∧ (t.cur.vreg i).pend = false) ∧ t.cur.gk = s.cur.gk
          ∧ SameMemory s t)

/-- R309 to R312: the next pair of the oldest sample of an octet, or of one that is overdue, once its chain has completed and, unless overdue,
no pair of a command of the octet is ready, is re-executed with every stored plane; the sample is abandoned if a tile's generation has changed,
and ends with its last tensor's histogram; one that AUDIT_RATE alone selected is abandoned when its deadline has passed before its last pair; what
that adds to ABANDONED comes once the owner has applied what is causally before it. The drover core sets the deadline. -/
def AuditEngine : Prop :=
  ∀ (s : State),
    (∀ x, s.arg 4 ≠ 1 → x ∈ s.samples → x.octet = s.arg 0 → x.doneAt.isSome = true → s.octetStopped x.octet = false →
        ((s.octetSamples (s.arg 0)).find? s.overdue = some x
          ∨ ((s.octetSamples (s.arg 0)).find? s.overdue = none ∧ (s.octetSamples (s.arg 0)).head? = some x)) →
        let busy := s.mxCmds.any (fun c => octetOf c.core == x.octet && decide (c.next < c.pairs.length))
        (x.audx = false → s.late? x = true → x.ended = none → exec .auditSampleComplete s = .next (s.abandon x))
        ∧ (∀ p, x.audx = true ∨ s.late? x = false ∨ x.ended.isSome = true → x.pairs[x.next]? = some p → busy = false ∨ s.overdue x = true →
          (tGen (s.tile x.core p.1.tile) ≠ p.1.gen ∨ tGen (s.tile x.core p.2.tile) ≠ p.2.gen →
            exec .auditSampleComplete s = .next (s.abandon x))
          ∧ (tGen (s.tile x.core p.1.tile) = p.1.gen → tGen (s.tile x.core p.2.tile) = p.2.gen →
            let rd := s.planePicks x.uid 1
            let f := addPair (minScale x.pairs) x.f p
              (s.pairProduct x.core x.t p.1.planes p.2.planes rd.1 rd.2 p).2
            exec .auditSampleComplete s = .next { s with
              samples := s.samples.map (fun y => if y.uid = x.uid then { x with next := x.next + 1, f := f } else y) }))
        ∧ (x.audx = true ∨ s.late? x = false → x.pairs.length ≤ x.next → x.ended = none →
          exec .auditSampleComplete s = .next { s with
            samples := s.samples.map (fun y => if y.uid = x.uid then { y with ended := some (s.die (dieOf x.core)).clock } else y) })
        ∧ (∀ r, x.ended.isSome = true → x.pairs.length ≤ x.next → x.reduced = [r] →
          s.tensorStalls x (divergenceMax (minScale x.pairs) x.f x.u) r.1 = false →
          ∃ t, exec .auditSampleComplete s = .next t ∧ t.samples = s.samples.filter (fun y => y.uid != x.uid)
            ∧ t.cur = s.cur ∧ t.strands = s.strands ∧ t.spad = s.spad ∧ t.host = s.host))
    ∧ (∀ x, s.arg 4 = 1 → s.auditAdds.find? (fun x => x.octet == s.arg 0) = some x →
        (s.auditStalls x.core x.launch x.addr x.clock = true → exec .auditSampleComplete s = .next s)
        ∧ (s.auditStalls x.core x.launch x.addr x.clock = false → ∃ t, exec .auditSampleComplete s = .next t
            ∧ t.auditAdds = s.auditAdds.erase x ∧ t.cur = s.cur ∧ t.strands = s.strands ∧ t.spad = s.spad ∧ t.host = s.host))
    ∧ (∀ x, s.arg 1 = 0 → s.samples[s.arg 0]? = some x → x.audx = false → s.late? x = true → x.ended = none → s.octetStopped x.octet = false →
        ∃ t, exec .auditDeadline s = .next t ∧ t.samples = s.samples.filter (fun y => y.uid != x.uid)
          ∧ t = (s.dropSample x).countAbandoned x.core x.launch x.reduced ∧ t.cur = s.cur ∧ t.spad = s.spad)
    ∧ (s.arg 1 ≠ 0 → s.arg 1 ≤ 10000 →
        exec .auditDeadline s = .next (s.onDie (s.arg 0) (fun d => { d with auditDeadline := 1000 * s.arg 1 })))

/-- R298, R301, R87, R89, R309 to R312: the matrix engine and the audit engine at work. -/
def Obligations.MatrixAndAuditEngines : Prop :=
  MatrixEngine ∧ AuditEngine

/-- R384, R385, R386, R387: PSEND and EOS put an item or a token of their team's channel on its way, at the price of a credit, and wait
where there is none, or the flow is full (R141); toward a team that has ended they send nothing, and the first is reported; a pipe or an address they may not use
raises PROTECTION or MISALIGNED. PRECV is a long-latency producer that acquires. -/
def PipesAtIssue : Prop :=
  ∀ (s : State),
    (∀ (i : Instr) (fs : List Field) (a : BitVec 6) (kind : Nat) (data : PipeD → Nat) (fit : PipeD → Prop),
      (∃ x : AB, i = .psend x ∧ fs = [Field.s x.a x.pa 14, .s x.b x.pb 21] ∧ a = x.a ∧ kind = 0
          ∧ data = (fun d => s.spadRead s.cur.core (s.cur.val x.b).toNat d.slotSize)
          ∧ fit = (fun d => (s.cur.val x.b).toNat % 8 = 0 ∧ (s.cur.val x.b).toNat + d.slotSize ≤ 0x40000))
        ∨ (∃ x : A1, i = .eos x ∧ fs = [Field.s x.a x.pa 14] ∧ a = x.a ∧ kind = 1 ∧ data = (fun _ => 0)
          ∧ fit = (fun _ => True)) →
      Ready s { fields := fs, mem := true } →
      let v := (s.cur.val a).toNat
      let l := s.cur.launch
      ((s.pipe? l v = none ∨ s.pipeTeam = none ∨ 64 ≤ v) → Traps i s 0x06 (s.cur.val a))
      ∧ (∀ d h, s.pipe? l v = some d → s.pipeTeam = some h → v < 64 →
        let n := s.teamIndex h
        let c := s.channel l v n
        (h.kernel ≠ d.producer → Traps i s 0x06 (s.cur.val a))
        ∧ (h.kernel = d.producer → fit d → c.token = true → Traps i s 0x06 (s.cur.val a))
        ∧ (h.kernel = d.producer → fit d → c.token = false → s.teamGone l d.consumer n = false →
          ((s.teamAt l d.consumer n = none ∨ (∃ g, s.teamAt l d.consumer n = some g ∧ g.started = false) ∨ c.credits = 0
              ∨ s.pipeAhead v = true) →
            ∃ t, exec i s = .next t ∧ t.cur.wait.kind = .psend ∧ t.cur.wait.n = v
              ∧ t = { s with stalled := true, cur := { s.cur with wait := t.cur.wait } })
          ∧ (∀ g, s.teamAt l d.consumer n = some g → g.started = true → c.credits ≠ 0 → s.pipeAhead v = false →
            (s.nFlowFull s.cur.core g.core = true → Stalls i s)
            ∧ (s.nFlowFull s.cur.core g.core = false → ∃ t, exec i s = .next t
            ∧ t.pipeItems = s.pipeItems ++ [
                { uid := s.nextUid, strand := s.cur.uid, core := s.cur.core, dst := g.core, launch := l, p := v, i := n,
                  k := c.sent, kind := kind, data := data d, scope := scopeBetween s.cur.core g.core }]
            ∧ t.channel l v n = { c with credits := c.credits - 1, sent := c.sent + 1, token := kind != 0 }
            ∧ t.cur.wait = { } ∧ t.cur.pc = s.cur.pc + 4 ∧ t.cur.y = s.cur.y ∧ Retires s t fs [] ∧ SameMemory s t)))
        ∧ (h.kernel = d.producer → fit d → c.token = false → s.teamGone l d.consumer n = true → ∃ t, exec i s = .next t
            ∧ t.pipeItems = s.pipeItems ∧ t.cur.pc = s.cur.pc + 4 ∧ Retires s t fs [] ∧ SameMemory s t
            ∧ (c.reported = true → t.msgs = s.msgs)
            ∧ (c.reported = false → ∃ m, t.msgs = s.msgs ++ [m] ∧ m.launch = l ∧ m.sel = 7
                ∧ m.w.drop 3 = [BitVec.ofNat 64 v, BitVec.ofNat 64 n, 0, 0, 0]))))
    ∧ (∀ (i : Instr) (fs : List Field) (a b : BitVec 6) (send : Bool),
      (∃ x : AB, i = .psend x ∧ fs = [Field.s x.a x.pa 14, .s x.b x.pb 21] ∧ a = x.a ∧ b = x.b ∧ send = true)
        ∨ (∃ x : A3, i = .precv x ∧ fs = fields3 x ∧ a = x.a ∧ b = x.b ∧ send = false) →
      Ready s { fields := fs, mem := true } →
      ∀ d h, s.pipe? s.cur.launch (s.cur.val a).toNat = some d → s.pipeTeam = some h →
        (s.cur.val a).toNat < 64 → h.kernel = (if send then d.producer else d.consumer) →
        ((s.cur.val b).toNat % 8 ≠ 0 → Traps i s 0x04 (s.cur.val b))
        ∧ ((s.cur.val b).toNat % 8 = 0 → 0x40000 < (s.cur.val b).toNat + d.slotSize → Traps i s 0x06 (s.cur.val b)))
    ∧ (∀ x : A3, Ready s { fields := fields3 x, mem := true } →
      let v := (s.cur.val x.a).toNat
      let b := (s.cur.val x.b).toNat
      ((s.pipe? s.cur.launch v = none ∨ s.pipeTeam = none ∨ 64 ≤ v) →
        Traps (.precv x) s 0x06 (s.cur.val x.a))
      ∧ (∀ d h, s.pipe? s.cur.launch v = some d → s.pipeTeam = some h → v < 64 →
        (h.kernel ≠ d.consumer → Traps (.precv x) s 0x06 (s.cur.val x.a))
        ∧ (h.kernel = d.consumer → b % 8 = 0 → b + d.slotSize ≤ 0x40000 →
          Pends (.precv x) s (fields3 x) x.d.toNat true (.precv v b) 4)))

/-- R383, R386, R388: an item lands at its consumer core in the order of its channel, once its release has completed, in the slot of its number;
toward a team that has ended it is discarded; a credit that comes back is one more at the producer. -/
def PipesOnTheWay : Prop :=
  ∀ (s : State),
    (∀ x d, s.pipeItems[s.arg 0]? = some x → s.pipe? x.launch x.p = some d →
        (∀ y, y ∈ s.pipeItems → y.launch = x.launch → y.p = x.p → y.i = x.i → x.k ≤ y.k) →
        s.releaseReady x.strand x.uid x.scope x.core = true →
      (s.teamGone x.launch d.consumer x.i = true →
        exec .pipeItemArrival s = .next { s with pipeItems := s.pipeItems.eraseIdx (s.arg 0) })
      ∧ (∀ h, s.teamGone x.launch d.consumer x.i = false → s.teamAt x.launch d.consumer x.i = some h → h.away = false →
        s.rebuilding h.core (d.buf + x.k % d.slots * d.slotSize) d.slotSize = false →
        ∃ t, exec .pipeItemArrival s = .next t ∧ t.pipeItems = s.pipeItems.eraseIdx (s.arg 0)
          ∧ t.channel x.launch x.p x.i = { s.channel x.launch x.p x.i with
              landed := (s.channel x.launch x.p x.i).landed ++ [(x.k, x.kind, if x.strand = 0 then [] else (s.die (dieOf x.core)).clock)] }
          ∧ t.cur = s.cur ∧ t.strands = s.strands
          ∧ (x.kind = 0 → Mem.wf s.spad = true →
              SpadStore s t h.core (d.buf + x.k % d.slots * d.slotSize) d.slotSize x.data (256 ^ d.slotSize - 1))
          ∧ (x.kind ≠ 0 → SameMemory s t)))
    ∧ (∀ l p i, s.pipeCredits[s.arg 0]? = some (l, p, i) → (s.channel l p i).abort = false →
        ∃ t, exec .pipeCreditReturn s = .next t ∧ t.pipeCredits = s.pipeCredits.eraseIdx (s.arg 0)
          ∧ t.channel l p i = { s.channel l p i with credits := (s.channel l p i).credits + 1 }
          ∧ t.cur = s.cur ∧ t.strands = s.strands ∧ t.pipeItems = s.pipeItems ∧ SameMemory s t)

/-- R383 to R388: the pipe instructions, and the items and credits on their way. -/
def Obligations.Pipes : Prop :=
  PipesAtIssue ∧ PipesOnTheWay

/-- R149, R150, R151, R141, R152, R153: MCAST sends a packet of 128 bytes toward the cores of its rectangle, or nothing where the rectangle is
empty or holds no core that may receive it; a rectangle or an address outside raises PROTECTION or MISALIGNED; with 32 packets
out it does not issue. NETRX takes the oldest packet of its core's receive queue, and does not issue while there is none. -/
def MulticastAtIssue : Prop :=
  ∀ (s : State),
    (∀ x : AB, Ready s { fields := [.s x.a x.pa 14, .s x.b x.pb 21], mem := true } →
      let v := (s.cur.val x.a).toNat
      let b := (s.cur.val x.b).toNat
      let m : Mcast :=
        { uid := s.nextUid, src := s.cur.core, launch := s.cur.launch, sup := s.cur.mode == .supervisor,
          tag := v / 2 ^ 48 % 2 ^ 16, data := s.spadRead s.cur.core b 128, x0 := v % 256, y0 := v / 2 ^ 8 % 256,
          w := v / 2 ^ 16 % 256, h := v / 2 ^ 24 % 256, router := meshPlace s.cur.core
          inp := if s.cur.core < 4096 then 4 else 5 }
      let some' := m.w ≠ 0 ∧ m.h ≠ 0
      let inside := m.x0 + m.w ≤ 64 ∧ m.y0 + m.h ≤ 64
      let at' := b % 128 = 0 ∧ b < 0x40000
      let held := ∃ c, c ∈ s.destsOf m ∧ 32 ≤ (s.mcasts.filter (fun y => y.src == m.src && y.dests.contains c)).length
      ((¬ some' ∨ (inside ∧ at' ∧ s.anyDest m = false)) → ∃ t, exec (.mcast x) s = .next t
          ∧ t.cur.pc = s.cur.pc + 4 ∧ t.cur.y = s.cur.y ∧ RegsOnly s t [.s x.a x.pa 14, .s x.b x.pb 21] [])
      ∧ (some' → ¬ inside → Traps (.mcast x) s 0x06 (s.cur.val x.a))
      ∧ (some' → inside → b % 128 ≠ 0 → Traps (.mcast x) s 0x04 (s.cur.val x.b))
      ∧ (some' → inside → b % 128 = 0 → 0x40000 ≤ b → Traps (.mcast x) s 0x06 (s.cur.val x.b))
      ∧ (some' → inside → at' → s.anyDest m = true → held → Stalls (.mcast x) s)
      ∧ (some' → inside → at' → s.anyDest m = true → ¬ held → ∃ t, exec (.mcast x) s = .next t
          ∧ t.mcasts = s.mcasts ++ [{ m with dests := s.destsOf m }] ∧ t.cur.pc = s.cur.pc + 4 ∧ t.cur.y = s.cur.y
          ∧ Retires s t [.s x.a x.pa 14, .s x.b x.pb 21] []
          ∧ t = { s with mcasts := t.mcasts, nextUid := s.nextUid + 1, cur := s.cur.withRegs t.cur } ∧ SameMemory s t))
    ∧ (∀ x : A2, Ready s { fields := fields2 x, mem := true } →
      let a := (s.cur.val x.a).toNat
      (s.rxq.find? (fun p => p.core == s.cur.core) = none → Stalls (.netrx x) s)
      ∧ (∀ p, s.rxq.find? (fun p => p.core == s.cur.core) = some p →
        (a % 128 ≠ 0 → Traps (.netrx x) s 0x04 (s.cur.val x.a))
        ∧ (a % 128 = 0 → 0x40000 ≤ a → Traps (.netrx x) s 0x06 (s.cur.val x.a))
        ∧ (a % 128 = 0 → a < 0x40000 → ∃ t, exec (.netrx x) s = .next t
          ∧ (x.d.toNat < 56 → (t.cur.reg x.d.toNat).val = BitVec.ofNat 64 (p.tag * 2 ^ 48 + meshPlace p.src / 64 * 2 ^ 8 + meshPlace p.src % 64))
          ∧ t.rxq = s.rxq.eraseP (fun q => q.core == s.cur.core)
          ∧ (Mem.wf s.spad = true → SpadStore s t s.cur.core a 128 p.data (256 ^ 128 - 1))
          ∧ t.cur.pc = s.cur.pc + 4 ∧ t.cur.y = s.cur.y ∧ Retires s t (fields2 x) [x.d.toNat]
          ∧ t = { s with rxq := t.rxq, spad := t.spad, late := t.late, softErrs := t.softErrs, badWords := t.badWords
                         dies := (s.cornerTook s.cur.core).dies,
                         cur := s.cur.withRegs t.cur })))

/-- R147, R148, R139, R143: a packet at a router is sent into every branch of the multicast tree that has room, and the residue buffer keeps the
branches not taken and sends into them later; a router passes the occupancy counts of nearer regions to its neighbours. -/
def MeshMoves : Prop :=
  ∀ (s : State),
    (∀ (i : Instr) m (bs : List Nat), s.mcasts[s.arg 0]? = some m →
        (i = .multicastFork ∧ m.left = none ∧ bs = m.branches
          ∧ (∀ x, x ∈ s.mcasts.take (s.arg 0) → x.router = m.router → x.inp ≠ m.inp)
          ∧ (∀ x, x ∈ s.mcasts → x.router = m.router → x.inp = m.inp → x.left = none))
        ∨ (i = .residueBranchSend ∧ m.left = some bs) →
      ∃ t, exec i s = .next t
        ∧ (∀ b, b ∈ bs → b < 4 → s.branchRoom m b = true →
            { m with router := linkTo m.router b, inp := (b + 2) % 4, left := none, dests := m.beyond b } ∈ t.mcasts)
        ∧ (4 ∈ bs → s.branchRoom m 4 = true → s.mcastBefore m m.router = true →
            { m with inp := 6, left := some [4], dests := m.dests.filter (· == m.router) } ∈ t.mcasts)
        ∧ (4 ∈ bs → s.branchRoom m 4 = true → s.mcastBefore m m.router = false → m.router ∈ m.dests → s.dead.contains m.router = false →
            s.isFenced m.router = false →
            ({ core := m.router, src := m.src, tag := m.tag, data := m.data } : RxItem) ∈ t.rxq)
        ∧ ((∃ b, b ∈ bs ∧ s.branchRoom m b = false) →
            let left := bs.filter (fun b => !s.branchRoom m b)
            { m with left := some left, dests := (left.flatMap m.beyond).eraseDups } ∈ t.mcasts)
        ∧ t = { s with mcasts := t.mcasts, rxq := t.rxq } ∧ SameMemory s t)
    ∧ (s.arg 0 < 4096 → s.arg 2 ≠ 0 → s.arg 1 ≤ 15 → exec .occupancyPropagate s =
        .next (s.onDie (dieOf (s.arg 0)) (fun d => { d with imbalance := s.arg 1 })))
    ∧ (s.arg 0 < 4096 → s.arg 2 = 0 → ∃ t, exec .occupancyPropagate s = .next t
        ∧ t.occOf (s.arg 0) (clusterOf (s.arg 0)) = min 15 (s.arg 1)
        ∧ (∀ n q, n ∈ neighboursOf (s.arg 0) → q < 64 → regionDist (s.arg 0) q < regionDist n q →
            t.occOf n q = if q = clusterOf (s.arg 0) then min 15 (s.arg 1) else s.occOf (s.arg 0) q)
        ∧ t = { s with occ := t.occ } ∧ SameMemory s t)

/-- R139, R141, R143, R147 to R153: MCAST and NETRX, and the packets on the mesh. -/
def Obligations.MulticastAndMesh : Prop :=
  MulticastAtIssue ∧ MeshMoves

/-- R178, R179, R180, R141, R173: SEND and SENDC send a message of e0 to e4 with the class and selector of a and the key b, its sender's LOGICAL_ID,
sequence number and time; a class that is 0 or not declared raises PROTECTION; where the message cannot inject, SEND does not
issue and SENDC gives 0, else SENDC gives 1. A message leaves its core, in the order of its flow, once its release is complete. -/
def MessagesLeave : Prop :=
  ∀ (s : State),
    (∀ (i : Instr) (fs : List Field) (a b d : BitVec 6) (c : Bool),
      (∃ x : AB, i = .send x ∧ fs = [Field.s x.a x.pa 14, .s x.b x.pb 21] ∧ a = x.a ∧ b = x.b ∧ d = 60 ∧ c = false)
        ∨ (∃ x : A3, i = .sendc x ∧ fs = fields3 x ∧ a = x.a ∧ b = x.b ∧ d = x.d ∧ c = true) →
      Ready s { fields := fs, mem := true } →
      let cls := (s.cur.val a).toNat / 2 ^ 16 % 2 ^ 16
      let bad := cls = 0 ∨ (cls ≠ 0xFFFF ∧ s.classOf s.cur.launch cls = none)
      let m : Msg :=
        { uid := s.nextUid, launch := s.cur.launch, die := dieOf s.cur.core, strand := some s.cur.uid,
          core := s.cur.core, stage := if s.cur.twin = none then .queued else .twin, entry := s.cur.entry,
          w := [BitVec.ofNat 64 (s.logicalOf s.cur.core * 2 ^ 32 + (s.cur.val a).toNat % 2 ^ 32),
            BitVec.ofNat 64 (s.cur.seq * 2 ^ 48 + s.timeNs % 2 ^ 48), s.cur.val b,
            s.cur.e[0], s.cur.e[1], s.cur.e[2], s.cur.e[3], s.cur.e[4]] }
      (bad → Traps i s 0x06 (BitVec.ofNat 64 cls))
      ∧ (¬ bad → s.cur.twin ≠ none → 32 ≤ s.cur.twinSends → Traps i s 0x06 33)
      ∧ (¬ bad → s.cur.twin = none ∨ s.cur.twinSends < 32 → s.cannotInject m = true →
          (c = false → Stalls i s)
          ∧ (c = true → ∃ t, exec i s = .next t ∧ (d.toNat < 56 → (t.cur.reg d.toNat).val = 0)
              ∧ t.cur.pc = s.cur.pc + 4 ∧ t.cur.y = s.cur.y ∧ RegsOnly s t fs [d.toNat]))
      ∧ (¬ bad → s.cur.twin = none ∨ s.cur.twinSends < 32 → s.cannotInject m = false →
          ∃ t, exec i s = .next t ∧ t.msgs = s.msgs ++ [m] ∧ t.cur.seq = (s.cur.seq + 1) % 65536
            ∧ (c = true → d.toNat < 56 → (t.cur.reg d.toNat).val = 1)
            ∧ t.cur.pc = s.cur.pc + 4 ∧ t.cur.y = s.cur.y ∧ Retires s t fs [d.toNat]
            ∧ t = { s with msgs := t.msgs, nextUid := s.nextUid + 1,
                           cur := { s.cur.withRegs t.cur with seq := t.cur.seq, twinSends := s.cur.twinSends + 1 } }
            ∧ SameMemory s t))
    ∧ (∀ m, s.msgs[s.arg 0]? = some m → m.stage = .queued →
        (∀ o, o ∈ s.msgs.take (s.arg 0) → o.stage = .queued → s.sameFlow m o = false) →
        (∀ u, m.strand = some u → s.releaseReady u m.uid (if m.isCounter = false ∧ m.cls = 0xFFFF then 5 else 4) m.core = true) →
        (m.strand = none → m.isReport = true ∨ s.dieAtOwners m.die = true) →
        let there := s.packageOf m.die m.cls m.key
        let away := m.isCounter = false ∧ m.cls ≠ 0xFFFF ∧ there ≠ (s.die m.die).package
        exec .messageInject s = .next { s with
          msgs := s.msgs.set (s.arg 0)
            { m with stage := if away then .away else .sent, clock := joinClock m.clock (s.die m.die).clock } })

/-- R163, R164, R165, R175: a message that reaches the flow table is forwarded to the core of a LIVE entry that holds none and has a credit, else it is held behind
the others; one that finds no entry makes it; a message from another package goes to the launch of the lowest slot that declares its
class. -/
def MessagesLand : Prop :=
  ∀ (s : State),
    (∀ m d, s.msgs[s.arg 0]? = some m → m.stage = .sent → m.isCounter = false → m.cls ≠ 0xFFFF →
        (∀ o, o ∈ s.msgs.take (s.arg 0) → o.stage = .sent → s.sameFlow m o = false) →
        s.classOf m.launch m.cls = some d → s.ending m.launch = false →
      let die := homeDie m.cls m.key
      let set := setOf m.cls m.key
      let stopped := s.wsFull.any (fun x => x.1 == 4 * die + portOf m.cls m.key)
      let listed := s.msgs.any (fun o => o.stage == .deferred && homeDie o.cls o.key == die && setOf o.cls o.key == set)
      stopped = false → listed = false →
      (∀ e, s.entryOf m.launch m.cls m.key = some e →
        (e.held = [] → e.ring = [] → s.mayForward e = true → ∃ t, exec .flowMessageArrival s = .next t
          ∧ t.inq = s.inq ++ ({ core := e.core, entry := e.uid, msg := some m, tIn := s.timeNs } ::
              if e.twin then [{ core := e.core2, entry := e.uid, msg := some m, tIn := s.timeNs }] else [])
          ∧ t = { s with msgs := s.msgs.eraseIdx (s.arg 0), inq := t.inq })
        ∧ (e.held ≠ [] ∨ e.ring ≠ [] ∨ s.mayForward e = false →
          let buffer := e.ring = [] ∧ e.held.length < 32 ∧ s.bufUsed e.die < 16384
          (buffer → ∃ t, exec .flowMessageArrival s = .next t
            ∧ (∀ x, x ∈ s.entries → x.uid = e.uid → { x with held := x.held ++ [m] } ∈ t.entries)
            ∧ t = { s with msgs := s.msgs.eraseIdx (s.arg 0), entries := t.entries })
          ∧ (¬ buffer → s.ringUsed die < 4194304 → ∃ t, exec .flowMessageArrival s = .next t
            ∧ (∀ x, x ∈ s.entries → x.uid = e.uid → { x with ring := x.ring ++ [m] } ∈ t.entries)
            ∧ t = { s with msgs := s.msgs.eraseIdx (s.arg 0), entries := t.entries })
          ∧ (¬ buffer → 4194304 ≤ s.ringUsed die → exec .flowMessageArrival s = .next { s with
              wsFull := s.wsFull ++ [(4 * die + portOf m.cls m.key, s.timeNs, [m.launch])] })))
      ∧ (s.entryOf m.launch m.cls m.key = none → 72 ≤ s.setCount die set → s.ringUsed die < 4194304 →
        exec .flowMessageArrival s = .next { s with
          msgs := s.msgs.eraseIdx (s.arg 0) ++ [{ m with stage := .deferred }] })
      ∧ (s.entryOf m.launch m.cls m.key = none → s.setCount die set < 72 →
        s.bufUsed die < 16384 ∨ s.ringUsed die < 4194304 → (∀ x, x ∈ s.entries → x.uid ≠ s.nextUid) →
        ∃ t, exec .flowMessageArrival s = .next t ∧ t.msgs = s.msgs.eraseIdx (s.arg 0)
          ∧ (∃ x, x ∈ t.entries ∧ x.uid = s.nextUid ∧ x.held ++ x.ring = [m] ∧ x.launch = m.launch ∧ x.cls = m.cls
              ∧ x.key = m.key)
          ∧ t = { s with msgs := t.msgs, entries := t.entries, nextUid := s.nextUid + 1 }))
    ∧ (∀ m, s.arg 0 = 0 → s.msgs[s.arg 1]? = some m → m.stage = .away →
        (∀ o, o ∈ s.msgs.take (s.arg 1) → o.stage = .away → o.strand ≠ m.strand) → s.arg 2 ≠ 1 →
        exec .remoteMessageArrival s = .next { s with msgs := s.msgs.eraseIdx (s.arg 1) })
    ∧ (∀ l ls, s.arg 0 = 1 → s.declarers (s.arg 2 / 2 ^ 16 % 2 ^ 16) = l :: ls → ∃ t m, exec .remoteMessageArrival s = .next t
        ∧ t = { s with msgs := s.msgs ++ [m], nextUid := s.nextUid + 1 } ∧ m.launch = l.id ∧ m.cls = s.arg 2 / 2 ^ 16 % 2 ^ 16
        ∧ (m.w.headD 0).getLsbD 50 = true
        ∧ m.key = BitVec.ofNat 64 (s.arg 4) ∧ m.w.drop 1 = (List.range 7).map (fun i => BitVec.ofNat 64 (s.arg (i + 3))))
    ∧ (s.arg 0 = 2 → (s.enqs.filter (fun e => e.origin.isSome && e.cluster == s.arg 3 % 64)).length < 16 →
        ∃ t e, exec .remoteMessageArrival s = .next t ∧ t = { s with enqs := s.enqs ++ [e], nextUid := s.nextUid + 1 }
        ∧ e.origin = some (s.arg 1 % 256) ∧ e.q = s.arg 2 % 16 ∧ e.cluster = s.arg 3 % 64 ∧ e.target = s.arg 5 % 2 ^ 32
        ∧ e.spawn = false ∧ e.pkg = none
        ∧ e.body.w = (List.range 8).map (fun i => BitVec.ofNat 64 (s.arg (i + 7))) ∧ e.body.run = (s.arg 4 % 2 == 1))

/-- R163 to R165, R173, R175, R178 to R180: messages as they are sent and as they arrive. -/
def Obligations.Messages : Prop :=
  MessagesLeave ∧ MessagesLand

/-- R171, R162, R182: a handler starts with the registers of R171 on a slot of its actor's core, whose input queue gives its credit back; DONE waits
until everything of its strand is complete, and then the strand is gone and its entry keeps the time. DONE outside a handler is illegal. -/
def HandlerForms : Prop :=
  ∀ (s : State),
    (∀ n i e l d m, (∀ k, k < s.arg 1 → s.choice (s.arg 0) k = none) → s.resumption (s.arg 0) (s.arg 1) = none →
        s.handlerSlot (s.arg 0) (s.arg 1) = true → s.coreUp (s.arg 0) = true → s.octetFrozen (s.arg 0) = false →
        nextReady s (s.arg 0) 0 s.inq = some (n, i) → i.msg = some m → s.entry? i.entry = some e →
        s.launch? e.launch = some l → s.classOf e.launch e.cls = some d →
        ∃ t h, exec .handlerStart s = .next t ∧ t.strands = s.strands ++ [h] ∧ t.inq = s.inq.eraseIdx n
          ∧ t.inqRets = s.inqRets ++ [s.arg 0]
          ∧ h.live = true ∧ h.kind = .handler ∧ h.mode = .launch ∧ h.core = s.arg 0 ∧ h.slot = s.arg 1
          ∧ h.launch = l.id ∧ h.pc = d.handler.setWidth 48 ∧ h.trapVector = l.m.trapVector
          ∧ h.actorClass = d.cls ∧ h.actorKey = e.key ∧ h.actorSize = d.stateSize ∧ h.msgSender = m.sender ∧ h.need = m.clock
          ∧ (h.reg 48).val = BitVec.ofNat 64 ((m.w.headD 0).toNat / 2 ^ 48 * 2 ^ 16 + m.sel) ∧ (h.reg 49).val = m.key
          ∧ (∀ k, k < 5 → (h.reg (50 + k)).val = m.w.getD (3 + k) 0) ∧ (h.reg 55).val = BitVec.ofNat 64 m.time
          ∧ (∀ c, c < 48 → (h.reg c).val = 0) ∧ (∀ c, c < 56 → (h.reg c).full = true)
          ∧ t.cur = s.cur ∧ SameMemory s t)
    ∧ (∀ i : Instr, i = .done ∨ i = .cDone →
        (s.cur.isHandler = false → Traps i s 0x01 (wordOf i))
        ∧ (s.cur.isHandler = true → Ready s { } →
          (s.quiet s.cur.uid = false → Stalls i s)
          ∧ (s.quiet s.cur.uid = true → ∃ t, exec i s = .next t ∧ t.cur.live = false
            ∧ t.strands = s.strands.filter (fun u => u.uid != s.cur.uid) ∧ t.spad = s.spad ∧ t.host = s.host
            ∧ (s.cur.kind = .handler → s.cur.twin = none → ∀ x, x ∈ t.entries → x.uid = s.cur.entry →
                x.lastDone = s.timeNs ∧ x.barred = false)
            ∧ (s.cur.kind = .creator → s.cur.twin = none → ∀ x, x ∈ t.entries → x.uid = s.cur.entry → x.st = .live)
            ∧ (s.cur.twin ≠ none → ∃ m, m ∈ t.msgs ∧ m.stage = .twinDone ∧ m.entry = s.cur.entry ∧ m.core = s.cur.core))))

/-- R163, R167, R168, R162, R165, R181: the steps of a flow-table entry: the heap is searched for the state, which is fetched into the record, or created as zeros;
a record in place makes the entry LIVE; an eviction reads the record out and writes it back, or is abandoned and reported where
the heap is full; a returned credit releases held messages in order; and an episode of a full waystation ring is reported. -/
def ActorTable : Prop :=
  ∀ (s : State),
    (∀ e d, s.entries[s.arg 0]? = some e → s.classOf e.launch e.cls = some d →
      (e.st = .probing → e.twin = false →
        let r := s.touchSearch d e.key
        (∀ a v, r.search d e.key = .slot a v → ∃ t, exec .heapProbeDone s = .next t
          ∧ (∀ x, x ∈ t.entries → x.uid = e.uid → x.st = .fetched ∧ x.version = v)
          ∧ t = { r with
              spad := t.spad, entries := t.entries, late := t.late, softErrs := t.softErrs, badWords := t.badWords }
          ∧ (Mem.wf s.spad = true → SpadStore s t e.core (s.recordAddr d e.launch e.core e.slot) d.stateSize
              (r.engineRead (a + 64) d.stateSize) (256 ^ d.stateSize - 1)))
        ∧ ((∀ a v, r.search d e.key ≠ .slot a v) → ∃ t, exec .heapProbeDone s = .next t
          ∧ (∀ x, x ∈ t.entries → x.uid = e.uid → x.version = 0
              ∧ x.st = if d.creator = 0 then .fetched else .creating)
          ∧ t.inq = s.inq ++ (if d.creator = 0 then [] else [{ core := e.core, entry := e.uid, tIn := s.timeNs }])
          ∧ t = { r with
              spad := t.spad, entries := t.entries, inq := t.inq, late := t.late, softErrs := t.softErrs, badWords := t.badWords }
          ∧ (Mem.wf s.spad = true → SpadStore s t e.core (s.recordAddr d e.launch e.core e.slot) d.stateSize
              0 (256 ^ d.stateSize - 1))))
      ∧ (e.st = .fetched → ∃ t, exec .activationComplete s = .next t ∧ (∀ x, x ∈ t.entries → x.uid = e.uid → x.st = .live)
          ∧ t = { s with entries := t.entries, inq := t.inq })
      ∧ (e.st = .evicting none → s.fencedEntry e = true → exec .evictionWritebackDone s = .next s)
      ∧ (e.st = .evicting none → s.fencedEntry e = false → e.twin = false → exec .evictionWritebackDone s = .next { s with
          entries := s.entries.map (fun x =>
            if x.uid = e.uid then { x with st := .evicting (some (s.recordRead d e.launch e.core e.slot)) } else x) })
      ∧ (∀ b a, e.st = .evicting (some b) → s.search d e.key = .free a ∨ (∃ v, s.search d e.key = .slot a v) →
          s.writeStalls d e.key = false → e.held = [] → e.ring = [] →
          ∃ t, exec .evictionWritebackDone s = .next t ∧ (∀ x, x ∈ t.entries → x.uid ≠ e.uid)
            ∧ t.hbm = (s.writeSlot d a e.key (e.version + 1) b).hbm ∧ t.spad = s.spad ∧ t.cur = s.cur)
      ∧ (∀ b, e.st = .evicting (some b) → s.search d e.key = .none → e.final = false →
          ∃ t, exec .evictionWritebackDone s = .next t
            ∧ (∀ x, x ∈ t.entries → x.uid = e.uid → x.st = .live ∧ x.barred = true)
            ∧ (∃ m, t.msgs = s.msgs ++ [m] ∧ m.launch = e.launch ∧ m.sel = 0x0E
                ∧ m.w.drop 3 = [BitVec.ofNat 64 e.cls, e.key, BitVec.ofNat 64 e.version, BitVec.ofNat 64 d.heapBase, 0])
            ∧ SameMemory s t))
    ∧ (s.arg 0 ∈ s.inqRets → ∃ t, exec .inputQueueCreditReturn s = .next t ∧ t.inqRets = s.inqRets.erase (s.arg 0)
        ∧ (∀ x, x ∈ t.entries → ∃ e, e ∈ s.entries ∧ x.uid = e.uid ∧ x.held ++ x.ring <:+ e.held ++ e.ring)
        ∧ t = { s with inqRets := t.inqRets, entries := t.entries, inq := t.inq } ∧ SameMemory s t)
    ∧ (∀ x, s.wsFull.find? (fun y => y.1 == s.arg 0) = some x → s.ringUsed (x.1 / 4) < 4194304 →
        ∃ t, exec .waystationFull s = .next t ∧ t.wsFull = s.wsFull.filter (fun y => y.1 != x.1)
          ∧ (∀ l, l ∈ x.2.2 → s.launch? l ≠ none → ∃ m, m ∈ t.msgs ∧ m.launch = l ∧ m.sel = 0x10
              ∧ m.w.drop 3 = [BitVec.ofNat 64 (x.1 / 4), BitVec.ofNat 64 (s.timeNs - x.2.1),
                  BitVec.ofNat 64 (s.wsCount.getD (x.1 / 4) 0 + 1), 0, 0])
          ∧ t.cur = s.cur ∧ SameMemory s t)

/-- R162 to R171, R181, R182: the handlers, and the entries of the flow table. -/
def Obligations.Actors : Prop :=
  HandlerForms ∧ ActorTable

/-- R173, R174, R423: the comparator takes the items of a twin pair's runs in the order of each run: one whose partner is still to come waits,
a mismatch fails the pair, and two equal runs with both DONEs match; a partner that does not come within COMPARE_WINDOW fails the
pair. A pair that fails has no handler left. -/
def Obligations.TwinComparison : Prop :=
  ∀ (s : State),
    (∀ m e, s.msgs[s.arg 0]? = some m → m.isItem = true →
        (∀ o, o ∈ s.msgs.take (s.arg 0) → o.isItem = true → o.core = m.core → o.entry ≠ m.entry) →
        s.entry? m.entry = some e →
        let x := e.addItem m
        let s1 := { s with
          msgs := s.msgs.eraseIdx (s.arg 0), entries := s.entries.map (fun y => if y.uid = e.uid then x else y) }
        let n := min x.digA.length x.digB.length
        let differ := x.digA.take n ≠ x.digB.take n
          ∨ (x.doneA = true ∧ x.doneB = true ∧ x.digA.length ≠ x.digB.length)
        (differ → exec .twinItem s = .next (s1.pairFails x))
        ∧ (¬ differ → x.doneA = true → x.doneB = true →
            (∀ d, s.classOf e.launch e.cls = some d → s.writeStalls d e.key = false) → exec .twinItem s = .next (s1.pairMatches x))
        ∧ (¬ differ → x.doneA = false ∨ x.doneB = false → exec .twinItem s = .next s1))
    ∧ (s.arg 1 ≠ 0 → s.arg 1 ≤ 1000 → exec .compareWindow s =
        .next (s.onDie (s.arg 0) (fun d => { d with compareWindow := 1000 * s.arg 1 })))
    ∧ (∀ e n, s.arg 1 = 0 → s.entries[s.arg 0]? = some e → e.openAt = some n → n + (s.die e.die).compareWindow ≤ e.ran →
        ∃ t, exec .compareWindow s = .next t
          ∧ (∀ u, u ∈ t.strands → u.live = true → u.isHandler = true → u.entry ≠ e.uid)
          ∧ (∀ v, v ∈ t.saved → v.t.isHandler = true → v.t.entry ≠ e.uid) ∧ t.spad = s.spad ∧ t.hbm = s.hbm)
    ∧ (∀ e d, s.classOf e.launch e.cls = some d → e.st ≠ .creating → ∀ x, x ∈ (s.pairMatches e).entries → x.uid = e.uid →
        x.version = e.version + 1 ∧ x.running = none ∧ x.fails = 0 ∧ x.lastDone = e.doneAt)

/-- The result of producer `p` arrives at its strand, which is the one in front (R26): its register holds `v`, is full and holds no
tag; the producer is gone. -/
def Answered (o : Host.Outcome State Fault Refusal) (s : State) (p : Pend) (v : Nat) : Prop :=
  ∃ t, o = .next t ∧ t.pends = s.pends.filter (fun q => q.uid != p.uid)
    ∧ (p.dst < 56 → (t.cur.reg p.dst).val = BitVec.ofNat 64 v ∧ (t.cur.reg p.dst).full = true
        ∧ (t.cur.reg p.dst).pend = false ∧ (t.cur.reg p.dst).tag = none)
    ∧ (64 ≤ p.dst → p.dst < 96 → (t.cur.vreg (p.dst - 64)).val = BitVec.ofNat 1024 v
        ∧ (t.cur.vreg (p.dst - 64)).full = true ∧ (t.cur.vreg (p.dst - 64)).tag = none)
    ∧ (∀ c, c ≠ p.dst → t.cur.reg c = s.cur.reg c) ∧ (∀ c, 64 + c ≠ p.dst → t.cur.vreg c = s.cur.vreg c)
    ∧ t.cur.hold = s.cur.hold - p.acq.toNat ∧ t.cur.pc = s.cur.pc ∧ t.cur.y = s.cur.y
    ∧ t.hbm = s.hbm ∧ t.host = s.host

/-- The fault tag `g` arrives in place of the result of producer `p` (R259, R399). -/
def Tagged (o : Host.Outcome State Fault Refusal) (s : State) (p : Pend) (g : Tag) : Prop :=
  ∃ t, o = .next t ∧ t.pends = s.pends.filter (fun q => q.uid != p.uid)
    ∧ (p.dst < 56 → (t.cur.reg p.dst).tag = some g ∧ (t.cur.reg p.dst).full = true)
    ∧ (64 ≤ p.dst → p.dst < 96 → (t.cur.vreg (p.dst - 64)).tag = some g) ∧ SameMemory s t

/-- A unit of the load that `p` is has been read, as `v` in its place (R246): after the last the register is written, else the
next is awaited; of an acquire the strand acquires what it read of. -/
def UnitRead (o : Host.Outcome State Fault Refusal) (s : State) (p : Pend) (j v : Nat) (value : Nat → Nat) : Prop :=
  (p.left - 2 ^ j = 0 → Answered o s p (value (p.acc + v)))
  ∧ (p.left - 2 ^ j ≠ 0 → ∃ t, o = .next t ∧ t.cur = { s.cur with need := t.cur.need }
      ∧ (p.acq = false → t.cur = s.cur ∧ t.strands = s.strands) ∧ SameMemory s t
      ∧ t.pends = s.pends.map (fun q => if q.uid = p.uid then { q with left := p.left - 2 ^ j, acc := p.acc + v } else q))

/-- R26, R259, R317, R325, R344, R354, R387, R371: the results of long-latency producers: of an LDG at the scope of its view, of an LDH at the
host, of a JWAIT on its mailbox, of a DEQ and a PRECV with the record or item in the scratchpad; an access that fails gives its
register the cause. -/
def Obligations.LongLatencyResults : Prop :=
  ∀ (s : State) (p : Pend), s.pends[s.arg 0]? = some p → s.cur.live = true → s.cur.uid = p.strand →
    let o := exec .longLatencyResult s
    (∀ v, p.op = .ready v → Answered o s p v
        ∧ (p.acq = true → ∃ t, o = .next t ∧ t.cur.need = joinClock s.cur.need (p.clock.getD [])))
    ∧ (∀ g, p.op = .failed g → Tagged o s p g)
    ∧ (∀ a code n el scope, p.op = .ldg a code n el scope → s.earlier p.strand p.uid a n = false →
        s.readStalls a n = false → inWindow a = false ∨ p.sup = false ∨ (s.reqPend p a).drover = false →
        s.inRecord a n = false →
        let j := p.nextUnit (s.arg 1)
        let u := (unitsOf a n).getD j (a, n)
        let s1 := s.touch (s.reqPend p a).cls u.1
        let c := clusterOf p.core
        let given := fun (v : Nat) => UnitRead o s p j (v * 256 ^ (u.1 - a)) (loadValue code el)
        (∀ k, s1.keys (s1.reqPend p a) .r u.1 u.2 = .error k → Tagged o s p ⟨k, BitVec.ofNat 64 a⟩)
        ∧ (∀ ks, s1.keys (s1.reqPend p a) .r u.1 u.2 = .ok ks →
          (s1.uncorrectable ks = true → Tagged o s p ⟨0x10, BitVec.ofNat 64 (s1.badAddr u.1 ks)⟩)
          ∧ (s1.uncorrectable ks = false → scope = 1 ∨ scope = 2 → p.acq = false → p.core < 4096 →
              given (s1.sliceRead c u.1 ks))
          ∧ (s1.uncorrectable ks = false → (scope ≠ 1 ∧ scope ≠ 2) ∨ p.acq = true ∨ 4096 ≤ p.core →
              s.slices.any (fun x => Machine.inCluster x.cluster p.core && overlap x.addr 1 u.1 u.2) = false →
              given (s1.viewRead (dieOf p.core) u.1 ks))))
    ∧ (∀ a n (buf : List BufStore) (value : Nat → Nat),
        (∃ code el scope, p.op = .ldg a code n el scope ∧ buf = [] ∧ value = loadValue code el ∧ s.inRecord a n = true
            ∧ (inWindow a = false ∨ p.sup = false ∨ (s.reqPend p a).drover = false))
          ∨ (p.op = .ldgCap a n buf ∧ value = (fun v => v) ∧ s.causal a (p.clock.getD []) = true) →
        s.earlier p.strand p.uid a n = false → s.readStalls a n = false → s.notAtOwner p.strand p.uid a n = false →
        let j := p.nextUnit (s.arg 1)
        let u := (unitsOf a n).getD j (a, n)
        let s1 := s.touch (s.reqPend p a).cls u.1
        (∀ k, s1.keys (s1.reqPend p a) .r u.1 u.2 = .error k → Tagged o s p ⟨k, BitVec.ofNat 64 a⟩)
        ∧ (∀ ks, s1.keys (s1.reqPend p a) .r u.1 u.2 = .ok ks → s1.uncorrectable ks = false →
          UnitRead o s p j (s1.capRead buf u.1 ks * 256 ^ (u.1 - a)) value))
    ∧ (∀ a n, p.op = .ldh a n → s.hBefore p.strand p.uid = false →
        (s.hostRefuses a n = true → Tagged o s p ⟨0x06, BitVec.ofNat 64 a⟩)
        ∧ (s.hostRefuses a n = false → Answered o s p (Mem.read s.host a n)
          ∧ (p.acq = true → ∃ t, o = .next t
              ∧ t.cur.need = joinClock s.cur.need (lastClock s.hostW ((List.range n).map (a + ·))))))
    ∧ (∀ id w, p.op = .jwait id → s.mailDone p.core id = some w → s.isSaved p.strand = false → Answered o s p w.toNat)
    ∧ (∀ q addr pc b, p.op = .deq q addr pc (some b) →
        Answered o s p (b.headD 0).toNat
        ∧ ∃ t, o = .next t ∧ (Mem.wf s.spad = true → SpadStore s t p.core addr 64 (bodyBits b) (256 ^ 64 - 1)))
    ∧ (∀ q addr pc r rs w, p.op = .deq q addr pc none →
        (s.queue p.launch q (clusterOf p.core)).hw = r :: rs → s.oldestDeq p.launch q (clusterOf p.core) = some w →
        w.uid = p.uid → s.leftFirst p.launch q (clusterOf p.core) = none →
        Answered o s p (r.w.headD 0).toNat
        ∧ ∃ t, o = .next t ∧ t.cur.need = joinClock s.cur.need r.clock
          ∧ (Mem.wf s.spad = true → SpadStore s t p.core addr 64 (bodyBits r.w) (256 ^ 64 - 1)))
    ∧ (∀ n addr h d, p.op = .precv n addr → s.isSaved p.strand = false →
        (∀ q m x, q ∈ s.pends → q.op = .precv m x → q.launch = p.launch → q.core = p.core → m = n → q.uid = p.uid) →
        s.holdOf p.core p.launch = some h → s.pipe? p.launch n = some d →
        let c := s.channel p.launch n (s.teamIndex h)
        (∀ k, c.closed = some k → Answered o s p (k * 2 ^ 32 + c.taken % 2 ^ 32))
        ∧ (∀ x, c.closed = none → c.landed.find? (fun x => x.1 == c.taken) = some x →
          s.rebuilding p.core (d.buf + c.taken % d.slots * d.slotSize) d.slotSize = false →
          s.rebuilding p.core addr d.slotSize = false →
          s.spadSoft p.core (d.buf + c.taken % d.slots * d.slotSize) d.slotSize = false →
          Answered o s p (x.2.1 * 2 ^ 32 + c.taken % 2 ^ 32)
          ∧ ∃ t, o = .next t ∧ t.pipeCredits = s.pipeCredits ++ [(p.launch, n, s.teamIndex h)]
            ∧ (t.channel p.launch n (s.teamIndex h)).taken = c.taken + 1
            ∧ t.cur.need = joinClock s.cur.need x.2.2
            ∧ (x.2.1 = 0 → Mem.wf s.spad = true → SpadStore s t p.core addr d.slotSize
                (s.spadRead p.core (d.buf + c.taken % d.slots * d.slotSize) d.slotSize) (256 ^ d.slotSize - 1))))

/-- R53, R397, R440, R441, R183, R184: EXIT waits until everything of its strand is complete, and then the strand is gone; the last strand of a team
ends the team; in a trap handler EXIT ends the work of the team; in a handler it is illegal. The fetch unit fills a strand's
fetch buffer from memory at package scope. -/
def Obligations.StrandsEndAndFetch : Prop :=
  ∀ (s : State),
    (∀ i : Instr, i = .exit ∨ i = .cExit →
        (s.cur.isHandler = true → Traps i s 0x01 (wordOf i))
        ∧ (s.cur.isHandler = false → Ready s { } →
          (s.cur.mode = .launch → inTrap s.cur.status = true → s.cur.live = true → ∃ t, exec i s = .next t
            ∧ t.cur.ending = some (s.cur.ending.getD 1) ∧ t.cur.endReport = trapReport s s.cur ∧ SameMemory s t)
          ∧ ((s.cur.mode = .supervisor ∨ inTrap s.cur.status = false) →
            (s.quiet s.cur.uid = false → Stalls i s)
            ∧ (s.quiet s.cur.uid = true → ∃ t, exec i s = .next t ∧ t.cur.live = false
              ∧ t.strands = s.strands.filter (fun u => u.uid != s.cur.uid)
              ∧ (∀ h, s.holdOf s.cur.core s.cur.launch = some h → h.ended = false →
                  t.coreBusy s.cur.core s.cur.launch = false → ∃ it, it ∈ t.link.items ∧ it.launch = s.cur.launch
                    ∧ it.kind = .teamEnd s.cur.core h.team h.endCode)
              ∧ SameMemory s t))))
    ∧ (∀ ks, s.cur.live = true → s.cur.core = s.arg 0 → s.cur.slot = s.arg 1 → s.arg 2 ≠ 1 → s.cur.fetchBuf = none →
        (s.cur.mode = .supervisor ∨ s.leased s.cur.launch s.cur.pc.toNat = true) →
        let line := s.cur.pc.toNat / 64
        findLine s.icache s.cur.core line = none → findLine s.islices (clusterOf s.cur.core) line = none →
        s.keys (s.reqCur s.cur (64 * line)) .x (64 * line) 64 = .ok ks → s.uncorrectable ks = false →
        s.readStalls (64 * line) 64 = false →
        ∃ t, exec .instructionFetch s = .next t
          ∧ t.cur = { s.cur with fetchBuf := some (s.cur.pc.toNat / 32 * 32,
              s.viewRead (dieOf s.cur.core) (64 * line) ks / 256 ^ (s.cur.pc.toNat % 64 / 32 * 32) % 256 ^ 32) }
          ∧ SameMemory s t)

/-- R187, R189, R185, R197, R198, R199, R200, R201, R407: a dispatcher starts the head record of a queue on the slot of its choice; a strand that has
waited 8192 cycles is PARKED, and may give up its slot and come back; the strands of a displaced launch are saved when its drain
limit has passed, and come back with their registers, and with FORCED_SAVE_RESUME, when the core is free, and those of a
caravan's unit together (R389). -/
def Obligations.SlotsAndSaves : Prop :=
  ∀ (s : State),
    (∀ c level pos launch q l h r rs, (∀ n, n < s.arg 1 → s.choice (s.arg 0) n = none) →
        s.choice (s.arg 0) (s.arg 1) = some (.record c level pos launch q) → s.launch? launch = some l →
        s.holdOf (s.arg 0) launch = some h → s.heldWaiter launch q c = none → (s.queue launch q c).hw = r :: rs →
        (r.w.headD 0).toNat % 2 = 0 → (r.w.headD 0).toNat < 2 ^ 48 →
        ∃ t u, exec .dispatch s = .next t ∧ u ∈ t.strands ∧ u.live = true ∧ u.core = s.arg 0 ∧ u.slot = s.arg 1
          ∧ u.launch = l.id ∧ u.mode = .launch ∧ u.pc = (r.w.headD 0).setWidth 48 ∧ (u.reg 47).val = r.w.getD 1 0
          ∧ (∀ k, k < 6 → (u.reg (48 + k)).val = r.w.getD (2 + k) 0) ∧ (u.reg 54).full = false ∧ (u.reg 55).full = false
          ∧ (∀ n, n < 47 → (u.reg n).val = 0) ∧ u.trapVector = l.m.trapVector ∧ u.need = r.clock ∧ t.cur = s.cur
          ∧ (u.spillSize = 0 → SameMemory s t)
          ∧ (u.spillSize ≠ 0 → Mem.wf s.spad = true → SpadStore s t u.core u.spillBase 8 8 (256 ^ 8 - 1)))
    ∧ (∀ n, s.cur.live = true → s.cur.core = s.arg 0 → s.cur.slot = s.arg 1 → s.waitSince s.cur = some n →
        s.cur.run = .run → n + 8192 ≤ s.cycles →
        ∃ t, exec .swapDelay s = .next t ∧ t.cur = { s.cur with run := .parked } ∧ SameMemory s t)
    ∧ (∀ (i : Instr) (u : Strand) (swap : Bool), s.bySlot (s.arg 0) (s.arg 1) = some u → s.byUid u.uid = some u →
        (i = .swapOut ∧ swap = true ∧ u.run = .parked
          ∧ (∀ w, w ∈ s.all → w.core = s.arg 0 → w.run = .parked → u.slot ≤ w.slot)
          ∧ (∀ n, n < 4 → s.handlerSlot (s.arg 0) n = false) ∧ (nextReady s (s.arg 0) 0 s.inq).isSome = true
          ∧ s.mayLeave u = true)
        ∨ (i = .forcedSave ∧ swap = false ∧ s.saveDue u = true ∧ u.run ≠ .halted ∧ u.ending = none
          ∧ s.mayLeave u = true) →
        ∃ t v, exec i s = .next t ∧ v ∈ t.saved ∧ v.swap = swap ∧ v.t.uid = u.uid ∧ v.t.core = u.core ∧ v.t.slot = u.slot
          ∧ (∀ c, (v.t.reg c).val = (u.reg c).val) ∧ (∀ c, (v.t.vreg c).val = (u.vreg c).val)
          ∧ v.t.y = u.y ∧ v.t.m = u.m ∧ v.t.e = u.e ∧ v.at' = s.timeNs
          ∧ (s.recvOf u = none → v.t.pc = u.pc) ∧ (∀ p l, s.recvOf u = some p → u.lastAt = some l → v.t.pc = l.pc)
          ∧ (∀ w, w ∈ t.waits → w.strand ≠ u.uid)
          ∧ (Mem.wf s.hbm = true → ∀ c, c < 56 →
              Mem.read t.hbm (ctxKey (dieOf u.core) v.record + 8 * c) 8 = (u.reg c).val.toNat)
          ∧ (∀ w, w ∈ t.strands → w.uid ≠ u.uid) ∧ (t.cur.live = true → t.cur.uid ≠ u.uid)
          ∧ (swap = false → (s.holdOf u.core u.launch).any (fun h => h.limit) = true →
              ∃ x, x ∈ t.savedTiles ∧ x.core = u.core ∧ x.launch = u.launch ∧ x.tiles = (s.core u.core).tiles)
          ∧ t.spad = s.spad ∧ t.host = s.host)
    ∧ (∀ v, s.resumption (s.arg 0) (s.arg 1) = some v → (s.readCtx v).cap.mode = .none →
        let word := fun (off : Nat) => BitVec.ofNat 64 (Mem.read s.hbm (ctxKey (dieOf v.t.core) v.record + off) 8)
        ∃ t u, exec .strandResume s = .next t
        ∧ u ∈ t.strands ∧ u.uid = v.t.uid ∧ u.core = v.t.core ∧ u.slot = v.t.slot ∧ u.wait = { }
        ∧ (∀ c, c < 56 → (u.reg c).val = word (8 * c)) ∧ u.pc = (pcBits (word 0x2C0)).setWidth 48
        ∧ u.status = word 0x2C8 ∧ u.trapVector = word 0x2D0
        ∧ (∀ x, x ∈ t.saved → x.t.uid ≠ v.t.uid) ∧ t.cur = s.cur ∧ SameMemory s t)
    ∧ (∀ h l n, s.holdOf (s.arg 0) (s.arg 1) = some h → s.launch? (s.arg 1) = some l → h.drained = some n →
        n + l.m.drainLimit ≤ s.timeNs → (∀ t, t ∈ s.all → t.launch = l.id → t.run ≠ .halted) →
        exec .drainLimit s = .next { s with holds := s.holds.map (fun x =>
          if x.core = s.arg 0 ∧ x.launch = s.arg 1 then { x with limit := true } else x) })
    ∧ (let cores := s.restoredWith (s.arg 0) (s.arg 1)
       s.savedOn (s.arg 0) (s.arg 1) ≠ [] ∨ (∃ h, s.holdOf (s.arg 0) (s.arg 1) = some h ∧ h.drained ≠ none) →
        (∀ c, c ∈ cores → s.mayRestore (s.arg 1) c = true) → (s.saved.map (fun v => v.t.uid)).Nodup →
        (∀ v, v ∈ s.saved → v.swap = false → v.t.core ∈ cores → v.t.launch = s.arg 1 → (s.readCtx v).cap.mode = .none) →
        ∃ t, exec .teamRestore s = .next t
          ∧ (∀ h, h ∈ t.holds → h.core ∈ cores → h.launch = s.arg 1 → h.drained = none ∧ h.limit = false ∧ h.away = false)
          ∧ (∀ v, v ∈ s.saved → v.swap = false → v.t.core ∈ cores → v.t.launch = s.arg 1 →
            (∀ w, w ∈ s.saved → w.swap = false → w.t.core = v.t.core → w.t.launch = s.arg 1 → w.t.slot = v.t.slot → w.t.uid = v.t.uid) →
            let word := fun (off : Nat) => BitVec.ofNat 64 (Mem.read s.hbm (ctxKey (dieOf v.t.core) v.record + off) 8)
            ∃ u, u ∈ t.strands ∧ u.uid = v.t.uid ∧ u.slot = v.t.slot ∧ (∀ c, c < 56 → (u.reg c).val = word (8 * c))
              ∧ u.pc = (pcBits (word 0x2C0)).setWidth 48 ∧ u.status = word 0x2C8 ∧ u.trapVector = word 0x2D0
              ∧ (inTrap u.status = false → u.trapVector ≠ 0 → u.preTrap = some (0x12,
                  BitVec.ofNat 64 ((s.timeNs % 2 ^ 48 + 2 ^ 48 - v.at' % 2 ^ 48) % 2 ^ 48))))
          ∧ t.cur = s.cur ∧ t.host = s.host)

/-- R55, R431, R426, R427, R428, R430, R434: BKPT halts its strand at its own address, and its cluster with it, where breakpoint halting is armed, and else raises
BREAKPOINT; the debug module halts a cluster, resumes it, steps a strand, and writes the state of a halted one; the cross-trigger
network carries a halt to a cluster that lets it in; the trace ring samples in turn and dumps the profile table. -/
def Obligations.BreakpointsAndDebug : Prop :=
  ∀ (s : State),
    let c := s.arg 0
    let halts := fun (u t : State) =>
      (t.cluster c).frozen = true
      ∧ (u.cur.live = true → Machine.inCluster c u.cur.core = true → u.cur.run ≠ .halted →
          t.cur = { u.cur with haltReq := true })
      ∧ (∀ w, w ∈ u.strands → Machine.inCluster c w.core = true → w.run ≠ .halted → { w with haltReq := true } ∈ t.strands)
    let runs := fun (w : Strand) =>
      { w with run := w.before, before := RunState.run, haltReq := false, quietHalt := false, fetchBuf := none }
    let resumes := fun (u t : State) =>
      (t.cluster c).frozen = false
      ∧ (u.cur.live = true → Machine.inCluster c u.cur.core = true → u.cur.run = .halted → u.cur.stopped = false →
          t.cur = runs u.cur)
    (∀ i : Instr, i = .bkpt ∨ i = .cBkpt → Ready s { } →
        ((s.cluster (clusterOf s.cur.core)).dbgCtl.getLsbD 0 = false ∨ 4096 ≤ s.cur.core → Traps i s 0x0C 0)
        ∧ ((s.cluster (clusterOf s.cur.core)).dbgCtl.getLsbD 0 = true → s.cur.core < 4096 → ∃ t, exec i s = .next t
          ∧ t.cur = { s.cur with
              before := s.cur.run, run := .halted, haltReq := false, stepReq := false, haltAt := s.timeNs }
          ∧ (t.cluster (clusterOf s.cur.core)).frozen = true
          ∧ (∀ w, w ∈ s.strands → Machine.inCluster (clusterOf s.cur.core) w.core = true → w.run ≠ .halted →
              { w with haltReq := true } ∈ t.strands) ∧ t.spad = s.spad))
    ∧ ((s.cluster c).power ≠ 0 → exec .dbgHalt s = .next s ∧ exec .dbgResume s = .next s ∧ exec .dbgStep s = .next s
        ∧ exec .dbgStrandWrite s = .next s ∧ exec .traceDump s = .next s ∧ exec .traceSample s = .next s)
    ∧ (c < 64 → (s.cluster c).power = 0 → s.arg 1 < 256 →
        (∃ t, exec .dbgHalt s = .next t ∧ (t.cluster c).dbgCtl = BitVec.ofNat 64 (s.arg 1) &&& 7 ∧ halts s t
          ∧ SameMemory s t)
        ∧ (∃ t, exec .dbgResume s = .next t ∧ (t.cluster c).dbgCtl = BitVec.ofNat 64 (s.arg 1) &&& 7 ∧ resumes s t
          ∧ SameMemory s t)
        ∧ (s.cur.live = true → (s.cur.core, s.cur.slot) = s.dbgSelected c → s.cur.run = .halted → s.cur.stopped = false →
          ∃ t, exec .dbgStep s = .next t ∧ t.cur = { runs s.cur with stepReq := true } ∧ SameMemory s t))
    ∧ (∀ h, c < 64 → s.xtNet.find? (fun x => x.1 == c) = some (c, h) →
        ((s.cluster c).dbgCtl.getLsbD 2 = false → exec .crossTrigger s = .next { s with xtNet := s.xtNet.erase (c, h) })
        ∧ ((s.cluster c).dbgCtl.getLsbD 2 = true → ∃ t, exec .crossTrigger s = .next t ∧ t.xtNet = s.xtNet.erase (c, h)
          ∧ (h = true → halts s t) ∧ (h = false → resumes s t) ∧ SameMemory s t))
    ∧ (let off := s.arg 1 / 8 * 8
       let v : Word := BitVec.ofNat 64 (s.arg 2)
       (s.cluster c).power = 0 → (∃ t, exec .dbgStrandWrite s = .next t
         ∧ (c < 64 → off = 0x010 → (t.cluster c).dbgSel = v &&& 0xFF)
         ∧ (c < 64 → off = 0x020 → (t.cluster c).traceBase = v &&& 0x000FFFFFFFFFFFC0)
         ∧ (s.cur.live = true → (s.cur.core, s.cur.slot) = s.dbgSelected c → s.cur.run = .halted →
             (0x800 ≤ off → off < 0x9C0 → (t.cur.reg ((off - 0x800) / 8)).val = v
               ∧ ∀ k, k ≠ (off - 0x800) / 8 → t.cur.reg k = s.cur.reg k)
             ∧ (off = 0xAC0 → t.cur.pc = (v &&& 0x0000FFFFFFFFFFFE).setWidth 48)
             ∧ (off = 0xAC8 → t.cur.status = v &&& 0x11F))))
    ∧ (c < 64 → (s.cluster c).power = 0 → ∃ t, exec .traceDump s = .next t ∧ (t.cluster c).traceCtl = BitVec.ofNat 64 (s.arg 1) &&& 0x1F3F
        ∧ t.cur = s.cur ∧ t.spad = s.spad
        ∧ ((∀ p, p ∈ s.profiles → p.2.count = 0) → SameMemory s t))
    ∧ (let p := (s.cluster c).traceCtl.toNat / 256 % 32
       c < 64 → (s.cluster c).power = 0 → 10 ≤ p → p ≤ 24 → (s.cluster c).lastSample < s.cycles / 2 ^ p * 2 ^ p →
         ∃ t, exec .traceSample s = .next t
         ∧ (t.cluster c).sampleCore = ((s.cluster c).sampleCore + 1) % 64 ∧ (t.cluster c).lastSample = s.cycles / 2 ^ p * 2 ^ p
         ∧ t.cur = s.cur ∧ t.strands = s.strands ∧ t.spad = s.spad
         ∧ ((s.cluster c).traceCtl.getLsbD 2 = false → SameMemory s t))

/-- R412, R413, R414, R416, R417, R418, R279, R280: flips of a scratchpad word that leave every parity group even change it unseen, any others are kept until a read
or the patrol meets them: alone in its column group the word, or the vertical row, is rebuilt and counted at its bank, beside another both are
uncorrectable, the strands of the core stop and the drover core is told. A lost pseudo-channel stays lost; bad symbols are corrected within the code's
reach, and counted at the frame, which at 8 is retired and its page moved; beyond it the unit is uncorrectable. -/
def ErrorForms : Prop :=
  ∀ (s : State),
    (s.arg 0 = 0 →
      let w : SoftErr := { core := s.arg 1, addr := s.arg 2 % 0x40000 / 8 * 8, mask := s.arg 3 % 2 ^ 68 }
      (∀ x, x ∈ s.softErrs ∨ x ∈ s.badWords → x.core = w.core → x.row = false → x.addr ≠ w.addr) → w.mask ≠ 0 →
      Mem.wf s.spad = true →
      ∃ t, exec .softError s = .next t ∧ t.softErrs = s.softErrs ++ [w]
        ∧ SpadStore s t w.core w.addr 8 (s.spadRead w.core w.addr 8 ^^^ (if undetected w.mask then w.mask % 2 ^ 64 else 0)) (2 ^ 64 - 1)
        ∧ t = { s with spad := t.spad, softErrs := t.softErrs })
    ∧ (∀ (i : Instr) (w : SoftErr),
        (i = .sramRebuildDone ∧ s.softErrs[s.arg 0]? = some w ∧ w.found = true)
        ∨ (i = .patrolScrub ∧ s.softErrs.find? (fun x =>
            let a := s.arg 1 % 16 * 16384 + s.cycles / 4096 % 2048 * 8
            x.core == s.arg 0 && !undetected x.mask && (if x.row then x.addr / 512 == a / 512 else x.addr == a)) = some w) →
        let here := fun (x : BankCount) => x.unit == .scratchpad && x.place == w.core && x.bank == w.addr / 16384
        let known := s.softErrs.filter (fun x => x.sameGroup w && !x.same w && !undetected x.mask)
          ++ s.badWords.filter (fun x => x.sameGroup w && !x.same w)
        ((∀ x, x ∈ s.softErrs → x.sameGroup w = true → x.same w = true) → known = [] → ∃ t b, exec i s = .next t
          ∧ t.softErrs = s.softErrs.filter (fun x => !x.sameGroup w)
          ∧ t.banks.find? here = some b ∧ b.corrected = min (((s.banks.find? here).map (·.corrected)).getD 0 + 1) 65535
          ∧ t = { s with softErrs := t.softErrs, banks := t.banks })
        ∧ (known ≠ [] → ∃ t, exec i s = .next t
          ∧ (∃ n, t.notes = s.notes ++ [n] ∧ n.die = dieOf w.core ∧ n.cause = 0x10 ∧ n.core = w.core ∧ n.info = BitVec.ofNat 64 w.addr)
          ∧ { w with mask := 0, found := false } ∈ t.badWords
          ∧ (∀ x, x ∈ s.softErrs → x ∈ known → { x with mask := 0, found := false } ∈ t.badWords)
          ∧ (s.cur.live = true → s.cur.core = w.core → t.cur.run = .halted ∧ t.cur.stopped = true)
          ∧ (∀ u, u ∈ t.strands → u.core = w.core → u.run = .halted ∧ u.stopped = true) ∧ SameMemory s t))
    ∧ (s.arg 0 = 1 → ∃ t, exec .pseudoChannelLoss s = .next t ∧ (s.arg 1 % 4, s.arg 2 % 2, s.arg 3) ∈ t.lost
        ∧ (∀ x, x ∈ s.lost → x ∈ t.lost) ∧ t = { s with lost := t.lost })
    ∧ (∀ l, s.arg 0 ≠ 1 → s.leaf (s.ownerClass (s.arg 1)) (s.arg 1) = some l →
        let a := s.arg 1
        let cls := s.ownerClass a
        let k := l.key (s.die (ownerOf a)).startMap cls a
        let page := if cls = 0 then 2 ^ 21 else 2 ^ 10
        let frame := k / page * page
        let size := 32 * 2 ^ l.gran
        let e := errorWord l.gran (pairsOf (s.pick.drop 2))
        let bad := (e.filter (fun x => x != 0)).length
        let decoded := decodeError l.gran ((granCode l.gran).syndromes e)
        let corrected := if l.gran < 3 then bad ≤ 2 else bad ≤ 16 ∨ decoded = some e
        let n := (match s.frameErrs.find? (fun x => x.1 == frame) with | some x => x.2 | none => 0) + 1
        let errs := (frame, n) :: s.frameErrs.filter (fun x => x.1 != frame)
        (corrected → n ≠ 8 → exec .pseudoChannelLoss s = .next { s with frameErrs := errs })
        ∧ (corrected → n = 8 → exec .pseudoChannelLoss s =
            .next ({ s with frameErrs := errs, retired := frame :: s.retired }.startMove cls a l.gran l.tier))
        ∧ (¬ corrected → decoded = none → ∃ t, exec .pseudoChannelLoss s = .next t ∧ (k / size * size, size) ∈ t.badUnits
          ∧ t = { s with badUnits := t.badUnits }))

/-- R281, R282, R283, R419, R420, R422: the move of a page begins with its copy and goes on through passes over the units written meanwhile to FINAL and the switch;
containment fences the rectangles of a failing core, or of the two cores of a pair (R425), and stops every strand in them, and then resets their cores. -/
def RecoveryForms : Prop :=
  ∀ (s : State),
    (∀ p l f, let u := s.mapOwn (s.arg 1) 0
        (u.die (ownerOf (s.arg 1))).startMap = false → (u.leaf (s.arg 0 % 2) (s.arg 1)).isSome = true →
        u.pairFor (ownerOf (s.arg 1)) (s.arg 0 % 2) (s.arg 1 % 2 ^ 50) = some p →
        p.2.leafFor (ownerOf (s.arg 1)) (s.arg 0 % 2) (s.arg 1) p.1 = some l →
        p.2.newFrame (ownerOf (s.arg 1)) (s.arg 3 % 2) (s.arg 0 % 2) (s.arg 2 % 4) = some f → l.mig = false →
        ∃ t m, exec .pageMove s = .next t ∧ t.moves = s.moves ++ [m] ∧ m.phase = .copy ∧ m.marked = []
          ∧ m.src = hbmKey (ownerOf (s.arg 1)) l.tier l.frame ∧ m.dst = hbmKey (ownerOf (s.arg 1)) (s.arg 3 % 2) f.1
          ∧ m.gran = s.arg 2 % 4 ∧ m.pair = p.1 ∧ t.cur = s.cur ∧ t.spad = s.spad)
    ∧ (∀ m, s.moves[s.arg 0]? = some m →
        let into := fun (ph : MovePhase) (marked : List Nat) =>
          { s with moves := s.moves.set (s.arg 0) { m with phase := ph, marked := marked } }
        (s.arg 1 ≠ 1 → m.phase = .copy → exec .migrationPhaseEnd s = .next
          (if m.marked.length ≤ 512 then into .final m.marked else into (.recopy 1) []))
        ∧ (∀ n, s.arg 1 ≠ 1 → m.phase = .recopy n → exec .migrationPhaseEnd s = .next
          (if m.marked.length ≤ 512 ∨ 16 ≤ n then into .final m.marked else into (.recopy (n + 1)) []))
        ∧ (s.arg 1 = 1 → ∃ t, exec .migrationPhaseEnd s = .next t
          ∧ t.moves = s.moves.eraseIdx (s.arg 0) ∧ t.cur = s.cur
          ∧ ((s.leafAt m.die m.pair).isSome = true → t.retired = m.dst :: s.retired))
        ∧ (s.arg 1 ≠ 1 → m.phase = .final → ∃ t, exec .migrationPhaseEnd s = .next t
          ∧ (m.cls = 1 → t.moves = s.moves.eraseIdx (s.arg 0)) ∧ t.moves.length = (s.moves.eraseIdx (s.arg 0)).length
          ∧ t.cur = s.cur ∧ t.spad = s.spad))
    ∧ (∀ cores : List Nat,
        let told := s.notes.find? (fun n => (n.core == s.arg 0 || n.core2 == some (s.arg 0)) && (n.cause == 0x10 || n.cause == 0x11))
        (∃ n, told = some n ∧ cores = n.core :: n.core2.toList) ∨ (told = none ∧ s.arg 1 = 1 ∧ cores = [s.arg 0]) →
        ∃ t c, exec .containment s = .next t ∧ t.fenced = s.fenced ++ c.rects
          ∧ t.contains = s.contains ++ [c] ∧ c.rects = (cores.flatMap s.containRects).eraseDups ∧ c.cores = cores ∧ c.resetDone = false
          ∧ (∀ u, u ∈ t.strands → u.live = true → inRects c.rects u.core = false)
          ∧ (t.cur.live = true → inRects c.rects t.cur.core = false))
    ∧ (∀ c, s.contains[s.arg 0]? = some c → c.resetDone = false →
        (∀ e b, e ∈ s.entries → e.st = .evicting (some b) → inRects c.rects e.core = false
          ∧ (e.twin = true → inRects c.rects e.core2 = false)) →
        ∃ t, exec .containmentResetDone s = .next t
          ∧ (∀ k, k / 0x40000 < 4096 → inRects c.rects (k / 0x40000) = true → Mem.get t.spad k = 0)
          ∧ (∀ i, i ∈ t.inq → inRects c.rects i.core = false) ∧ (∀ p, p ∈ t.rxq → inRects c.rects p.core = false)
          ∧ t.host = s.host)

/-- R279 to R283, R412 to R422: errors of the arrays, and what the machine does about them. -/
def Obligations.ErrorsAndTheirRecovery : Prop :=
  ErrorForms ∧ RecoveryForms

/-- The state in which item `i` is the next of the broadcast sequence and has been taken from it (R117, R120, R128). -/
def Taken (s : State) (i : Item) (is : List Item) (s' : State) : Prop :=
  s.link.items = i :: is ∧ (∀ l, l ∈ s.launches → l.stage ≠ .leases) ∧ s.link.events.length < 256
    ∧ s' = { s with link := { s.link with items := is } }

/-- Words 0 to 2 of a COMPLETION event (R120, R121). -/
def completionWords (source tag status w1 : Nat) (detail : Word) : List Word :=
  [BitVec.ofNat 64 (status * 2 ^ 32 + tag % 65536 * 2 ^ 16 + source * 2 ^ 8 + 1), BitVec.ofNat 64 w1, detail]

/-- The step completes with the state `t`, and the event of these words joins the event buffer. -/
def Reports (o : Host.Outcome State Fault Refusal) (t : State) (ws : List Word) : Prop :=
  o = .next t ∧ ∃ e, e ∈ t.link.events ∧ e.take 3 = ws

/-- R390, R391, R124, R121, R275, R127, R100: a LAUNCH instruction places a launch in the broadcast sequence once its release at package scope is complete;
a launch at the head of the sequence is refused, with its status, or distributed and given the next identifier; when its leases
are resident it is live and its teams are placed; and a team whose turn has come starts its strands at the kernel's ENTRY. -/
def Obligations.LaunchesBegin : Prop :=
  ∀ (s : State),
    (∀ x : AB, Ready s { fields := [.s x.a x.pa 14, .s x.b x.pb 21], mem := true } →
      let a := s.cur.val x.a
      let b := s.cur.val x.b
      let bad := b ≠ 0 ∧ s.badHandle s.cur.launch b.toNat = true
      (a.toNat % 256 ≠ 0 → Traps (.launch x) s 0x04 a)
      ∧ (a.toNat % 256 = 0 → bad → Traps (.launch x) s 0x06 b)
      ∧ (a.toNat % 256 = 0 → ¬ bad → s.releaseReady s.cur.uid s.nextUid 4 s.cur.core = false →
          ∃ t, exec (.launch x) s = .next t ∧ t.cur.wait.kind = .again
            ∧ t = { s with stalled := true, cur := { s.cur with wait := t.cur.wait } })
      ∧ (a.toNat % 256 = 0 → ¬ bad → s.releaseReady s.cur.uid s.nextUid 4 s.cur.core = true →
          ∃ t, exec (.launch x) s = .next t
            ∧ t.link.items = s.link.items ++ [
                { seq := s.link.nextSeq, source := 16 + dieOf s.cur.core, tag := 0, launch := 0,
                  kind := .childLaunch a.toNat (if b = 0 then none else some b) s.cur.launch,
                  clock := (s.die (dieOf s.cur.core)).clock }]
            ∧ t.link.nextSeq = s.link.nextSeq + 1 ∧ t.cur.wait = { } ∧ t.cur.pc = s.cur.pc + 4 ∧ t.cur.y = s.cur.y
            ∧ Retires s t [.s x.a x.pa 14, .s x.b x.pb 21] [] ∧ SameMemory s t))
    ∧ (∀ i is s' a v tok, Taken s i is s' → i.kind = .launch a v tok → s.covers 0 i.clock = false →
        exec .launchCommand s = .next s)
    ∧ (∀ i is s' a v tok, Taken s i is s' → i.kind = .launch a v tok → i.source < 16 → s.covers 0 i.clock = true →
        (32 ≤ (s.launches.filter (fun l => l.stage != .over)).length → ∃ t,
          Reports (exec .launchCommand s) t (completionWords i.source i.tag 7 0 0) ∧ t.launches = s.launches)
        ∧ ((s.launches.filter (fun l => l.stage != .over)).length < 32 →
          (∀ off, s'.readManifest a = .error off → ∃ t,
            Reports (exec .launchCommand s) t (completionWords i.source i.tag 1 0 (BitVec.ofNat 64 off))
              ∧ t.launches = s.launches)
          ∧ (∀ m, s'.readManifest a = .ok m →
            let l : Launch :=
              { id := s.link.launches + 1, slot := s.freeSlot, source := i.source, tag := i.tag, seqNo := i.seq, addr := a,
                vector := v, token := tok, clock := i.clock, m := m }
            let s1 := { s' with launches := s.launches ++ [l] }
            (s1.areasFit l = none → ∃ t,
              Reports (exec .launchCommand s) t (completionWords i.source i.tag 2 0 0xFFFFFFFF) ∧ t.launches = s.launches)
            ∧ (∀ areas, s1.areasFit l = some areas →
              let r := ({ s1 with areas := areas } : State).distribute l m.numbered s1.holds []
              (∀ u, r = .error u → ∃ t,
                Reports (exec .launchCommand s) t (completionWords i.source i.tag 2 0 (BitVec.ofNat 64 u))
                  ∧ t.launches = s.launches)
              ∧ (∀ hs ps, r = .ok (hs, ps) → ∃ t x, exec .launchCommand s = .next t ∧ x ∈ t.launches
                  ∧ x = { l with plan := hs.filter (fun h => h.launch == l.id), pending := ps
                                 areaPlan := areas.filter (fun a => a.launch == l.id) }
                  ∧ x.stage = .leases ∧ t.link.events = s.link.events ∧ t.link.items = is ∧ t.cur = s.cur
                  ∧ SameMemory s t)))))
    ∧ (∀ l, s.launch? (s.arg 0) = some l → l.stage = .leases → l.source < 16 →
        (∀ n, s.mapLeases l.id l.m 0 l.m.leases = .error n → ∃ t,
          Reports (exec .leaseResidency s) t (completionWords l.source l.tag 3 0 (BitVec.ofNat 64 n))
            ∧ t.launches = s.launches.filter (fun x => x.id != l.id) ∧ SameMemory s t)
        ∧ (∀ u, s.mapLeases l.id l.m 0 l.m.leases = .ok u → l.thermal = none → ∃ t,
          Reports (exec .leaseResidency s) t (completionWords l.source l.tag 0 l.id (BitVec.ofNat 64 l.id))
            ∧ (∀ x, x ∈ t.launches → x.id = l.id → x.stage = .live ∧ x.plan = []) ∧ (∀ h, h ∈ l.plan → h ∈ t.holds)
            ∧ t.link.launches = l.id))
    ∧ (∀ l h, s.launch? (s.arg 0) = some l → l.stage = .live →
        s.holds.filter (fun h => h.launch == l.id && h.unit == s.arg 1 && !h.toStart.isEmpty) = [h] → h.started = false →
        s.teamReady h = true →
        let kd := l.m.kernels.getD h.kernel { }
        let g := s.teamIndex h
        kd.entry.toNat % 2 = 0 → kd.entry.toNat < 2 ^ 48 →
        ∃ t, exec .teamStart s = .next t
          ∧ (∀ x, x ∈ t.holds → x.core = h.core → x.launch = h.launch → x.started = true)
          ∧ (∀ n, n ∈ s.startable h → ∃ u, u ∈ t.strands ∧ u.live = true ∧ u.core = h.core ∧ u.slot = n ∧ u.launch = l.id
            ∧ u.team = h.team ∧ u.pc = kd.entry.setWidth 48
            ∧ (u.reg 47).val = kd.frameBase + BitVec.ofNat 64 (g * kd.strands + n) * kd.frameStride
            ∧ (∀ k, k < 6 → (u.reg (48 + k)).val = (kd.args ++ [BitVec.ofNat 64 g, BitVec.ofNat 64 n]).getD k 0))
          ∧ t.cur = s.cur)

/-- R119, R441, R442, R443, R444, R445, R447, R357, R358: MESSAGE and END at the head of the sequence take effect or complete with their status; a team's end leaves its core; a
launch that is ending stops its strands when its drain limit has passed, is retired when nothing of it is left, and raises
LAUNCH_ENDED at its end item; a deadlock is reported once to the owner. -/
def Obligations.LaunchesEnd : Prop :=
  ∀ (s : State),
    (∀ i is s' cls sel key pl time seq, Taken s i is s' → i.kind = .message cls sel key pl time seq →
        ((∀ l, s.launch? i.launch = some l → l.stage ≠ .live) → ∃ t,
          Reports (exec .messageCommand s) t (completionWords i.source i.tag 5 i.launch 0) ∧ t.msgs = s.msgs)
        ∧ (∀ l, s.launch? i.launch = some l → l.stage = .live →
          (s.classOf i.launch cls = none → ∃ t,
            Reports (exec .messageCommand s) t (completionWords i.source i.tag 6 i.launch (BitVec.ofNat 64 cls))
              ∧ t.msgs = s.msgs)
          ∧ (s.classOf i.launch cls ≠ none → ∃ t m,
            Reports (exec .messageCommand s) t (completionWords i.source i.tag 0 i.launch 0) ∧ t.msgs = s.msgs ++ [m]
              ∧ m.launch = i.launch ∧ m.w.getD 1 0 = BitVec.ofNat 64 (seq % 65536 * 2 ^ 48 + time % 2 ^ 48)
              ∧ m.w.drop 2 = key :: pl ∧ SameMemory s t)))
    ∧ (∀ i is s', Taken s i is s' → i.kind = .endLaunch →
        ((∀ l, s.launch? i.launch = some l → l.stage ≠ .live) → ∃ t,
          Reports (exec .endCommand s) t (completionWords i.source i.tag 5 i.launch 0) ∧ t.launches = s.launches)
        ∧ (∀ l, s.launch? i.launch = some l → l.stage = .live → ∃ t,
          Reports (exec .endCommand s) t (completionWords i.source i.tag 0 i.launch 0)
            ∧ (∀ x, x ∈ t.launches → x.id = i.launch → x.stage = .ending ∧ x.endAt = s.timeNs ∧ x.pending = [])
            ∧ (∀ h, h ∈ t.holds → h.launch = i.launch → h.toStart = []) ∧ SameMemory s t))
    ∧ (∀ l, s.launch? (s.arg 0) = some l → l.stage = .ending → l.endAt + l.m.drainLimit ≤ s.timeNs →
        (∀ t, t ∈ s.all → t.launch = l.id → t.run ≠ .halted) → (∀ v, v ∈ s.saved → v.t.launch ≠ l.id) →
        s.cur.live = true → s.cur.launch = l.id → s.cur.mode = .launch →
        ∃ t, exec .endDrainLimit s = .next t ∧ t.cur = { s.cur with ending := some (s.cur.ending.getD 4) }
          ∧ (∀ u, u ∈ t.strands → u.live = true → u.launch = l.id → u.mode = .launch → u.ending ≠ none) ∧ SameMemory s t)
    ∧ (∀ i is s' core team code, Taken s i is s' → i.kind = .teamEnd core team code →
        ∃ t, exec .teamEnd s = .next t ∧ (∀ x, x ∈ t.launches → x.id = i.launch → team ∈ x.endedTeams)
          ∧ ((∀ x, x ∈ s.launches → x.pending = []) → ∀ h, h ∈ t.holds → h.core = core → h.launch ≠ i.launch)
          ∧ t.cur = s.cur ∧ t.strands = s.strands)
    ∧ (∀ l, s.launch? (s.arg 0) = some l →
        (let u := s.endClean l
         l.stage = .ending → u.hasStrands l.id = false → (∀ e, e ∈ u.entries → e.launch ≠ l.id) →
          (∀ h, h ∈ u.holds → h.launch ≠ l.id) → u.settled l.id = true → ∃ t, exec .launchEnded s = .next t
            ∧ (∀ x, x ∈ t.launches → x.id = l.id → x.stage = .over)
            ∧ (∃ it, it ∈ t.link.items ∧ it.kind = .launchEnd ∧ it.launch = l.id)
            ∧ (∀ q, q ∈ t.queues → q.launch ≠ l.id) ∧ (∀ c, c ∈ t.counters → c.launch ≠ l.id)
            ∧ (∀ r, r ∈ t.regions → r.launch ≠ l.id) ∧ t.cur = s.cur
            ∧ (Mem.wf s.spad = true → ∀ k, k / 0x40000 < 4096 → Mem.get t.spad k = Mem.get s.spad k))
        ∧ (∀ i is s', l.stage = .over → Taken s i is s' → i.kind = .launchEnd → i.launch = l.id → l.source < 16 →
            l.thermal = none → ∃ t e, exec .launchEnded s = .next t ∧ e ∈ t.link.events
              ∧ e.take 3 = [BitVec.ofNat 64 (l.tag % 65536 * 2 ^ 16 + l.source * 2 ^ 8 + 2), BitVec.ofNat 64 l.id, l.counts]
              ∧ e.drop 4 = [BitVec.ofNat 64 l.vector, l.token]
              ∧ (∀ x, x ∈ t.launches → x.id ≠ l.id) ∧ t.cur = s.cur))
    ∧ (∀ l, s.launches.filter (fun l => l.stage == .live) = [l] → s.deadlockOf l.id = [] →
        (∀ t, t ∈ s.all → t.launch = l.id → t.mode = .launch → t.run ≠ .halted) →
        exec .deadlock s = .next { s with deadlocks := s.deadlocks.filter (fun x => x.1 != l.id) })
    ∧ (∀ l d ds, s.launches.filter (fun l => l.stage == .live) = [l] → s.launch? l.id = some l →
        s.deadlockOf l.id = d :: ds → (l.id, (d :: ds).map (·.id)) ∉ s.deadlocks →
        (∀ t, t ∈ s.all → t.launch = l.id → t.mode = .launch → t.run ≠ .halted) →
        ∃ t m, exec .deadlock s = .next t ∧ m ∈ t.msgs ∧ m.launch = l.id ∧ m.sel = 2
          ∧ m.w.getD 3 0 = BitVec.ofNat 64 ((l.reports + 1) * 2 ^ 32 + (d :: ds).length)
          ∧ (l.id, (d :: ds).map (·.id)) ∈ t.deadlocks ∧ t.cur = s.cur ∧ SameMemory s t)

/-- R116, R117, R118, R120, R123, R129: host writes of the register window, command queues and their doorbells, the taking of commands in turn, the event ring, the receive
rings and the interrupt window. That a HOST_REGISTER_WRITE whose pick 2 is 2 writes the flash's routing table and package number is the
model's choice (the log, 12), and so is what a write of CQ_BASE does to a queue that has not stopped (the log, 53). -/
def Obligations.HostQueuesAndRings : Prop :=
  ∀ (s : State),
    let off := s.arg 0
    let v := s.arg 1 % 2 ^ 64
    let pow := fun (lo hi : Nat) => ∃ i, lo ≤ i ∧ i ≤ hi ∧ v = 2 ^ i
    (s.arg 2 = 1 → ∃ t, exec .hostRegisterWrite s = .next t
      ∧ t = { s with link := { s.link with readData := t.link.readData } }
      ∧ (off = 0 → t.link.readData = 0x40960B4A) ∧ (off = 8 → t.link.readData = 0)
      ∧ (off = 0x10 → s.link.failed = [false, false, false, false] → s.link.started = true →
          s.link.steps = [9, 9, 9, 9] → t.link.readData = 0x18)
      ∧ (off = 0x20 → t.link.readData = s.link.evqBase) ∧ (off = 0x28 → t.link.readData = s.link.evqSize)
      ∧ (off = 0x30 → t.link.readData = s.link.evqProd) ∧ (off = 0x38 → t.link.readData = s.link.evqCons)
      ∧ (off = 0x40 → t.link.readData = s.link.uliWindow)
      ∧ (∀ k, k < 32 → off = 0x100 + 8 * k → t.link.readData = (s.link.startRecord.getD k 0).toNat)
      ∧ (∀ q c, q < 16 → s.link.cqs[q]? = some c → (off = 0x1000 + 32 * q → t.link.readData = c.base)
          ∧ (off = 0x1008 + 32 * q → t.link.readData = c.size) ∧ (off = 0x1010 + 32 * q → t.link.readData = c.tail)
          ∧ (off = 0x1018 + 32 * q → t.link.readData = c.head))
      ∧ (∀ r x, r < 64 → s.link.rings[r]? = some x → (off = 0x2010 + 32 * r → t.link.readData = x.prod)
          ∧ (off = 0x2018 + 32 * r → t.link.readData = x.cons) ∧ (off = 0x3008 + 16 * r → t.link.readData = x.token.toNat)))
    ∧ (s.arg 2 = 2 → (off < 256 → exec .hostRegisterWrite s = .next { s with flashRoutes := s.flashRoutes.set off (s.arg 1 % 256) })
      ∧ (off = 256 → exec .hostRegisterWrite s = .next { s with flashPackage := s.arg 1 % 256 }))
    ∧ (s.arg 2 ≠ 1 → s.arg 2 ≠ 2 → ∃ t, exec .hostRegisterWrite s = .next t ∧ t = { s with link := t.link }
      ∧ (off = 0x20 → (v % 32 = 0 → t.link = { s.link with evqBase := v }) ∧ (v % 32 ≠ 0 → t.link = s.link))
      ∧ (off = 0x28 → (v = 0 ∨ pow 6 16 → t.link = { s.link with evqSize := v })
          ∧ (¬ (v = 0 ∨ pow 6 16) → t.link = s.link))
      ∧ (off = 0x38 → v < 2 ^ 32 → t.link = { s.link with evqCons := v })
      ∧ (off = 0x40 → (v ≤ 1000000 → t.link = { s.link with uliWindow := v }) ∧ (1000000 < v → t.link = s.link))
      ∧ (∀ q, q < 16 → off = 0x1008 + 32 * q → pow 4 12 →
          t.link = { s.link with cqs := s.link.cqs.modify q (fun x => { x with size := v }) })
      ∧ (∀ r, r < 64 → off = 0x2000 + 32 * r → v % 64 = 0 →
          t.link = { s.link with rings := s.link.rings.modify r (fun x => { x with base := v }) })
      ∧ (∀ r, r < 64 → off = 0x2008 + 32 * r → v = 0 ∨ pow 4 16 →
          t.link = { s.link with rings := s.link.rings.modify r (fun x => { x with size := v }) })
      ∧ (∀ r, r < 64 → off = 0x2018 + 32 * r → v < 2 ^ 32 →
          t.link = { s.link with rings := s.link.rings.modify r (fun x => { x with cons := v }) })
      ∧ (∀ r, r < 64 → off = 0x3008 + 16 * r →
          t.link = { s.link with rings := s.link.rings.modify r (fun x => { x with token := BitVec.ofNat 64 v }) }))
    ∧ (v % 64 = 0 → exec .cqBase s = .next { s with link := { s.link with
        cqs := s.link.cqs.modify (s.arg 0) (fun q => { q with base := v, head := 0, tail := 0, stopped := false }) } })
    ∧ (v % 64 ≠ 0 → exec .cqBase s = .next s)
    ∧ (∀ q, s.link.cqs[s.arg 0]? = some q → q.stopped = false → s.arg 1 < 2 ^ 32 → s.pick.length ≤ 2 →
        let count := (s.arg 1 + 2 ^ 32 - q.head) % 2 ^ 32
        (count ≤ q.size → exec .cqTail s = .next { s with link := { s.link with
          cqs := s.link.cqs.modify (s.arg 0) (fun _ => { q with tail := s.arg 1 }) } })
        ∧ (q.size < count → ∃ t e, exec .cqTail s = .next t ∧ e ∈ t.link.events
          ∧ e.take 3 = [BitVec.ofNat 64 (s.arg 0 * 2 ^ 8 + 4), 0, 0]
          ∧ t.link.cqs = s.link.cqs.modify (s.arg 0) (fun _ => { q with tail := s.arg 1, stopped := true })))
    ∧ (∀ n q, s.link.started = true → s.link.events.length < 256 → s.link.nextQueue = some n → s.link.cqs[n]? = some q →
        let w := (List.range 8).map (fun i => Mem.read s.host (q.base + 64 * (q.head % q.size) + 8 * i) 8)
        let tag := w.headD 0 / 2 ^ 16 % 2 ^ 16
        ∃ t, exec .commandTake s = .next t ∧ t.link.nextSeq = s.link.nextSeq + 1 ∧ t.link.lastQ = n
          ∧ (∃ x, t.link.cqs[n]? = some x ∧ x.head = (q.head + 1) % 2 ^ 32 ∧ x.tail = q.tail ∧ x.base = q.base
              ∧ (commandKind w s.timeNs q.seq = none → x.seq = q.seq))
          ∧ (∀ k, commandKind w s.timeNs q.seq = some k → t.link.items = s.link.items ++ [
              { seq := s.link.nextSeq, source := n, tag := tag, launch := w.headD 0 / 2 ^ 32, kind := k
                clock := s.link.released }])
          ∧ (commandKind w s.timeNs q.seq = none → t.link.items = s.link.items
              ∧ ∃ e, e ∈ t.link.events ∧ e.take 3 = completionWords n tag 4 0 0) ∧ SameMemory s t)
    ∧ (∀ e es, s.link.events = e :: es → s.link.evqSize ≠ 0 →
        let used := (s.link.evqProd + 2 ^ 32 - s.link.evqCons) % 2 ^ 32
        (s.link.evqSize ≤ used → exec .eventRingWrite s = .next s)
        ∧ (used < s.link.evqSize → ∃ t, exec .eventRingWrite s = .next t ∧ t.link.events = es
          ∧ t.link.evqProd = (s.link.evqProd + 1) % 2 ^ 32
          ∧ t.host = putWords s.host (s.link.evqBase + 32 * (s.link.evqProd % s.link.evqSize))
              ((e.take 4).map (fun w => w.toNat))
          ∧ t = { s with host := t.host, link := t.link }))
    ∧ (∀ m, s.msgs[s.arg 0]? = some m → m.stage = .sent → m.isCounter = false → m.cls = 0xFFFF →
        (∀ o, o ∈ s.msgs.take (s.arg 0) → o.stage = .sent → s.sameFlow m o = false) →
        let r := m.key.toNat % 64
        let x := s.link.rings.getD r { }
        let used := (x.prod + 2 ^ 32 - x.cons) % 2 ^ 32
        x.size ≠ 0 →
        (x.size ≤ used → exec .hostRingDelivery s = .next s)
        ∧ (used < x.size → ∃ t, exec .hostRingDelivery s = .next t
          ∧ t.link.rings = s.link.rings.modify r (fun y => { y with prod := (y.prod + 1) % 2 ^ 32 })
          ∧ t.host = putWords s.host (x.base + 64 * (x.prod % x.size)) (m.w.map (fun w => w.toNat))
          ∧ t = { s with msgs := s.msgs.eraseIdx (s.arg 0), host := t.host, link := t.link }))
    ∧ (∀ w, s.link.windows[s.arg 0]? = some w → w.closeAt ≤ s.timeNs → exec .uliWindow s = .next { s with
        link := { s.link with
          windows := s.link.windows.eraseIdx (s.arg 0), raised := s.link.raised ++ [(w.vector, w.token, s.timeNs)] } })

/-- R134, R135, R132, R270: POWER moves its clusters unless one in RUN holds work, and completes when the last has moved; a thermal trip takes a die's clusters off with
everything in them; an attestation report is written to the host; the host reads and writes device memory at its owner. -/
def Obligations.PowerAttestationAndHostAccess : Prop :=
  ∀ (s : State),
    (∀ i is s' mask state, Taken s i is s' → i.kind = .power mask state →
        let cs := (List.range 64).filter (fun c => mask.getLsbD c)
        let busy := fun (c : Nat) => (s.cluster c).power = 0 ∧ s.clusterHolds c = true
        (state ≠ 0 → (∃ c, c ∈ cs ∧ busy c) → ∃ t n,
          Reports (exec .powerCommand s) t (completionWords i.source i.tag 8 0 (BitVec.ofNat 64 n))
            ∧ (∀ c, c < 64 → (n.testBit c = true ↔ c ∈ cs ∧ busy c)) ∧ t.clusters = s.clusters)
        ∧ (cs = [] → ∃ t, Reports (exec .powerCommand s) t (completionWords i.source i.tag 0 0 0)
            ∧ t.clusters = s.clusters)
        ∧ (cs ≠ [] → state = 0 ∨ (∀ c, c ∈ cs → ¬ busy c) → ∃ t, exec .powerCommand s = .next t
            ∧ t.link.powers = s.link.powers ++ [(i.source, i.tag, cs, state)]
            ∧ (state = 0 → t.clusters = s.clusters)
            ∧ (state ≠ 0 → ∀ c, c ∈ cs → s.link.powers = [] ∨ (s.cluster c).power = 0 → (t.cluster c).power = state)))
    ∧ (∀ src tag cs st, s.link.powers[s.arg 0]? = some (src, tag, cs, st) → s.arg 1 ∈ cs → s.arg 1 < 64 →
        (∀ y, y ∈ s.link.powers.take (s.arg 0) → s.arg 1 ∉ y.2.2.1) →
        (∀ y, y ∈ s.link.powers.drop (s.arg 0 + 1) → s.arg 1 ∉ y.2.2.1) → s.link.events.length < 256 →
        ∃ t, exec .powerTransitionDone s = .next t ∧ (t.cluster (s.arg 1)).power = st
          ∧ (cs.erase (s.arg 1) = [] → (∃ e, e ∈ t.link.events ∧ e.take 3 = completionWords src tag 0 0 0)
              ∧ t.link.powers = s.link.powers.eraseIdx (s.arg 0))
          ∧ (cs.erase (s.arg 1) ≠ [] → t.link.powers = s.link.powers.set (s.arg 0) (src, tag, cs.erase (s.arg 1), st)))
    ∧ (s.arg 0 < 4 → ∃ t, exec .thermalTrip s = .next t
        ∧ (∀ c, c < 64 → c / 16 = s.arg 0 → (t.cluster c).power = 3)
        ∧ (∃ e, e ∈ t.link.events ∧ e.take 3 = [BitVec.ofNat 64 ((16 + s.arg 0) * 2 ^ 8 + 3), 0, 0])
        ∧ (∀ u, u ∈ t.strands → u.live = true → u.core < 4096 → dieOf u.core ≠ s.arg 0)
        ∧ ((∀ c, c < 64 → (s.cluster c).power ≠ 3) → ∀ k, k / 0x40000 < 4096 → dieOf (k / 0x40000) = s.arg 0 →
            Mem.get t.spad k = 0)
        ∧ t.host = s.host)
    ∧ (∀ i is s' nonce buf, Taken s i is s' → i.kind = .attest nonce buf → Mem.wf s.host = true → ∃ t,
        Reports (exec .attestCommand s) t (completionWords i.source i.tag 0 0 0)
          ∧ (∀ k, k < 16 → Mem.get t.host (buf + k) = byteOf (nonce.getD (k / 8) 0).toNat (k % 8))
          ∧ (∀ d, d < 4 → Mem.read t.host (buf + 0x50 + 2 * d) 2 = (s.liveOn d).length % 65536)
          ∧ Mem.read t.host (buf + 0x58) 4 = 512 ∧ Mem.read t.host (buf + 0x5C) 4 = 4096
          ∧ (∀ a, a < buf ∨ buf + 256 ≤ a → Mem.get t.host a = Mem.get s.host a) ∧ t.hbm = s.hbm ∧ t.spad = s.spad)
    ∧ (let a := s.arg 1
       let n := min (s.arg 2) 64
       let u := (s.mapOwn a 0).touch (s.ownerClass a) a
       u.spad = s.spad ∧ u.host = s.host ∧ u.cur = s.cur ∧ u.strands = s.strands
       ∧ (∀ ks, s.arg 0 = 1 → u.keys (u.reqOwner a) .w a n = .ok ks → u.mustStall 0 (s.ownerClass a) a ks = true →
          exec .hostAccessToDeviceMemory s = .next u)
       ∧ (∀ ks, s.arg 0 = 1 → u.keys (u.reqOwner a) .w a n = .ok ks → u.mustStall 0 (s.ownerClass a) a ks = false →
          u.partialBad ks (coveredKeys (256 ^ n - 1) ks) = false →
          let w := u.ownerWrite a (s.arg 3 % 256 ^ n) ks
          ∃ t, exec .hostAccessToDeviceMemory s = .next t
            ∧ t = { w with link := { w.link with released := joinClock w.link.released (w.die (ownerOf a)).clock } }
            ∧ t.spad = s.spad ∧ t.host = s.host ∧ t.cur = s.cur ∧ t.strands = s.strands)
       ∧ (∀ c, s.arg 0 = 1 → u.keys (u.reqOwner a) .w a n = .error c → exec .hostAccessToDeviceMemory s = .next u)
       ∧ (∀ ks, s.arg 0 ≠ 1 → u.keys (u.reqOwner a) .r a n = .ok ks → u.readStalls a n = false → u.uncorrectable ks = false →
          exec .hostAccessToDeviceMemory s = .next { u with link := { u.link with readData := u.ownRead ks } }))

/-- R130, R131, R262: a cold start and a warm start begin with the machine's units in their reset state and memory as it stood; each die goes through its eight steps, in step 5 a
boot strand starts on every live core, step 6 takes the map that the corner core holds, and with the last die's last step commands are taken and START_DONE is raised; a step that
fails, a boot strand's trap or a corner that starves stops its die. -/
def Obligations.StartUp : Prop :=
  ∀ (s : State),
    (∀ i : Instr, i = .coldStart ∨ i = .warmStart →
        (s.link.starting = true → exec i s = .next s)
        ∧ (s.link.starting = false → ∃ t, exec i s = .next t ∧ t.cur = { } ∧ t.strands = [] ∧ t.saved = [] ∧ t.launches = []
          ∧ t.msgs = [] ∧ t.entries = [] ∧ t.pends = [] ∧ t.stores = [] ∧ t.host = s.host
          ∧ t.link.steps = [1, 1, 1, 1] ∧ t.link.started = false ∧ t.link.startAt = s.timeNs ∧ t.link.items = []
          ∧ (i = .coldStart → t.hbm = s.hbm ∧ t.spad = [] ∧ t.cores = [] ∧ t.logical = [] ∧ t.dead = t.fusedCores
              ∧ (∀ c, c ∈ t.dead → c ∈ s.pick.drop 2 ∧ c < 4096)
              ∧ (∀ d, (t.dead.filter (fun c => dieOf c == d)).length ≤ 16))
          ∧ (i = .warmStart → t.dead = s.dead ∧ t.logical = s.logical ∧ t.fusedCores = s.fusedCores
              ∧ (∀ k, k / 0x40000 < 4096 → Mem.get t.spad k = 0)
              ∧ ∀ d, (t.die d).root0 = (s.die d).root0 ∧ (t.die d).root1 = (s.die d).root1)))
    ∧ (let d := s.arg 0
       let n := s.link.steps.getD d 0
       d < 4 → 1 ≤ n → n ≤ 8 → s.link.failed.getD d false = false →
       let trapped := s.link.startKind = 1 ∧ (n = 5 ∨ n = 6) ∧ s.bootTrapped d = true
       let good := s.arg 1 = 1 ∧ (n = 2 → imageGood s.flashImage s.fuseVendor = true)
         ∧ (n = 6 → s.link.startKind = 2 → s.mapOf d = s.liveOn d)
       let fails := fun (result : Nat) => ∃ t, exec .startStep s = .next t ∧ t.link.failed = s.link.failed.set d true
          ∧ t.link.startRecord = s.link.startRecord.set (8 * d + result % 16 - 1)
              (BitVec.ofNat 64 ((s.timeNs - s.link.startAt) / 1000 * 2 ^ 16 + result % 16 * 2 ^ 8 + result)) ∧ SameMemory s t
       (trapped → fails 0x16) ∧ (¬ trapped → ¬ good → fails (0x10 + n))
       ∧ (¬ trapped → good → n ≠ 3 → n ≠ 6 → n ≠ 7 → n ≠ 8 → ∃ t, exec .startStep s = .next t ∧ t.link.steps = s.link.steps.set d (n + 1)
          ∧ t.link.startRecord = s.link.startRecord.set (8 * d + n - 1)
              (BitVec.ofNat 64 ((s.timeNs - s.link.startAt) / 1000 * 2 ^ 16 + n * 2 ^ 8 + 1))
          ∧ (n = 4 → ∀ core, core < 4096 → dieOf core = d → core ∉ s.dead → ∃ u, u ∈ t.strands ∧ u.live = true
              ∧ u.core = core ∧ u.slot = 0 ∧ u.mode = .supervisor ∧ u.kind = .boot ∧ u.pc = s.bootEntry.setWidth 48
              ∧ (u.reg 48).val = BitVec.ofNat 64 (1024 - (s.liveOn d).length) ∧ (u.reg 49).val = s.bootImage))
       ∧ (¬ trapped → good → n = 6 → s.link.startKind = 1 →
          ((∃ u, u ∈ s.all ∧ u.kind = .boot ∧ dieOf u.core = d) ∨ (s.die d).bootLost = true → exec .startStep s = .next s)
          ∧ ((∀ u, u ∈ s.all → u.kind = .boot → dieOf u.core ≠ d) → (s.die d).bootLost = false → ∃ t, exec .startStep s = .next t
            ∧ t.link.steps = s.link.steps.set d 7 ∧ (t.die d).map.length = (s.liveOn d).length
            ∧ (∀ i, i < (s.liveOn d).length → (t.die d).map.getD i 0 = s.spadRead (cornerOf d) (0x30000 + 2 * i) 2)
            ∧ SameMemory s t))
       ∧ (¬ trapped → good → n = 7 → s.link.startKind = 1 → (∃ e, e < 4 ∧ s.link.steps.getD e 0 < 7) →
          exec .startStep s = .next s)
       ∧ (good → n = 7 → (∀ e, e < 4 → 7 ≤ s.link.steps.getD e 0) → ∃ t, exec .startStep s = .next t
          ∧ t.link.steps = s.link.steps.set d 8 ∧ (t.die d).routes = s.flashRoutes ∧ (t.die d).package = s.flashPackage
          ∧ ∃ u, u ∈ t.strands ∧ u.live = true ∧ u.kind = .drover ∧ u.mode = .supervisor ∧ u.core = droverCore d)
       ∧ (good → n = 8 → (∀ x, x ∈ s.link.steps.set d 9 → x = 9) → ∃ t, exec .startStep s = .next t
          ∧ t.link.started = true ∧ ∃ e, e ∈ t.link.events ∧ e.take 3 = [BitVec.ofNat 64 (16 * 2 ^ 8 + 6), 0, 0]))
    ∧ (∀ u, s.arg 0 < 4 → s.link.startKind = 1 → (s.link.steps.getD (s.arg 0) 0 = 5 ∨ s.link.steps.getD (s.arg 0) 0 = 6) →
        s.link.failed.getD (s.arg 0) false = false → u ∈ s.all → u.kind = .boot → u.core = cornerOf (s.arg 0) →
        (s.die (s.arg 0)).cornerAt + 1000000 ≤ s.timeNs →
        ∃ t, exec .cornerTimeout s = .next t ∧ t.link.failed = s.link.failed.set (s.arg 0) true ∧ SameMemory s t)

/-- R392, R396, R397, R262, R378: taking a trap. In launch mode, with a vector and outside a trap, TRAP_CAUSE, TRAP_PC and TRAP_INFO are set, IN_TRAP becomes 1 and the pc
TRAP_VECTOR; else the work ends, with the same registers. In supervisor mode the SV registers serve, and with SV_TRAP_VECTOR 0 the
strand halts and its die's drover core receives the cause. No g, k, v, m, e or y register changes, and no capsule stays open. -/
def Obligations.TakingATrap : Prop :=
  ∀ (s : State) (cause : Nat) (info : Word),
    let t := takeTrap s cause info
    let at' : Word := s.cur.pc.setWidth 64 &&& 0x0000FFFFFFFFFFFE
    (t.cur.gk = s.cur.gk ∧ t.cur.v = s.cur.v ∧ t.cur.y = s.cur.y ∧ t.cur.m = s.cur.m ∧ t.cur.e = s.cur.e
      ∧ t.cur.mode = s.cur.mode ∧ t.cur.sfq = s.cur.sfq ∧ t.cur.cap.mode = .none ∧ t.pends = s.pends ∧ t.sfu = s.sfu
      ∧ t.recs = s.recs ∧ t.jobs = s.jobs ∧ t.fwds = s.fwds ∧ t.spad = s.spad ∧ t.host = s.host)
    ∧ (s.cur.mode = .launch →
      t.cur.trapCause = BitVec.ofNat 64 cause ∧ t.cur.trapPc = at' ∧ t.cur.trapInfo = info
      ∧ t.cur.svTrapPc = s.cur.svTrapPc ∧ t.cur.svStatus = s.cur.svStatus
      ∧ (s.cur.trapVector ≠ 0 → inTrap s.cur.status = false →
          t.cur.pc = s.cur.trapVector.setWidth 48 ∧ t.cur.ending = s.cur.ending
          ∧ (∀ b, b < 64 → t.cur.status.getLsbD b = (s.cur.status.getLsbD b || b == 8)))
      ∧ (s.cur.trapVector = 0 ∨ inTrap s.cur.status = true → s.cur.live = true →
          t.cur.ending = some (s.cur.ending.getD 1) ∧ t.cur.status = s.cur.status ∧ t.cur.pc = s.cur.pc
          ∧ t.cur.endReport ≠ []))
    ∧ (s.cur.mode = .supervisor →
      t.cur.trapPc = s.cur.trapPc ∧ t.cur.status = s.cur.status ∧ t.cur.ending = s.cur.ending
      ∧ (s.cur.svTrapVector ≠ 0 → t.cur.svTrapCause = BitVec.ofNat 64 cause ∧ t.cur.svTrapPc = at'
          ∧ t.cur.svTrapInfo = info ∧ t.cur.pc = s.cur.svTrapVector.setWidth 48
          ∧ t.cur.run = (if s.cur.run = .parked then .run else s.cur.run)
          ∧ (∀ b, b < 64 → t.cur.svStatus.getLsbD b = (s.cur.svStatus.getLsbD b || b == 8)))
      ∧ (s.cur.svTrapVector = 0 → t.cur.run = .halted ∧ t.cur.pc = s.cur.pc
          ∧ ∃ ns, t.notes = s.notes ++ ns ++ [{ die := dieOf s.cur.core, cause := cause, core := s.cur.core, info := info }]
            ∧ (s.cur.cap.mode ≠ .opened → ns = [])))

/-- R39, R23, R27, R28, R193, R399, R276, R324, R370: the checks of an issue, in order: a specifier its field may not hold raises ILLEGAL_REG, an empty source whose policy
bit is 1 raises EMPTY_SOURCE, an empty source or a pending register stalls; then a tagged source: LEASE_BREACH ends the work with
code 2, UNCORRECTABLE stops the strand, any other cause traps; then held operations stall majors 8 to 18; and then the limits
of an open capsule. -/
def Obligations.ChecksAtIssue : Prop :=
  ∀ (s : State) (i : Issue) (k : State → Host.Outcome State Fault Refusal),
    let o := issue s i k
    let legal := ∀ f, f ∈ i.fields → f.bad = false
    let full := fun (f : Field) => ∀ c, c ∈ f.cells → s.cur.cellFull c = true
    let still := fun (f : Field) => ∀ c, c ∈ f.cells → s.cur.cellPend c = false
    let strict := ∀ f, f ∈ i.fields → f.pol = true → f.src = true → full f
    let free := ∀ f, f ∈ i.fields → (f.src = true → full f ∧ still f) ∧ (f.dst = true → still f)
    (∀ f, i.fields.find? (fun f => f.bad) = some f → o = .next (takeTrap s 0x02 (BitVec.ofNat 64 (f.spec + 256 * f.lsb))))
    ∧ (legal → ∀ f, i.fields.find? (fun f => f.pol && f.src && f.cells.any (fun c => !s.cur.cellFull c)) = some f →
        o = .next (takeTrap s 0x03 (BitVec.ofNat 64 f.spec)))
    ∧ (legal → strict → ¬ free → o = .next { s with stalled := true })
    ∧ (legal → free → ∀ g, i.fields.findSome? (fun f => if f.src then f.cells.findSome? (fun c => s.cur.cellTag c) else none)
          = some g →
        (g.cause = 0x05 → s.cur.live = true → ∃ t, o = .next t ∧ t.cur.ending = some (s.cur.ending.getD 2)
          ∧ t.cur.gk = s.cur.gk ∧ t.cur.pc = s.cur.pc)
        ∧ (g.cause = 0x10 → ∃ t, o = .next t ∧ t.cur.run = .halted ∧ t.cur.pc = s.cur.pc
          ∧ ∃ n, t.notes = s.notes ++ [n] ∧ n.cause = 0x10 ∧ n.core = s.cur.core)
        ∧ (g.cause ≠ 0x05 → g.cause ≠ 0x10 → o = .next (takeTrap s g.cause g.addr)))
    ∧ (legal → free → (∀ f c, f ∈ i.fields → f.src = true → c ∈ f.cells → s.cur.cellTag c = none) →
        (i.mem = true → s.cur.hold ≠ 0 ∨ s.caughtUp s.cur = false → o = .next { s with stalled := true })
        ∧ (i.mem = false ∨ (s.cur.hold = 0 ∧ s.caughtUp s.cur = true) →
          (∀ n, capCheck s.cur i.cap i.fields i.own = some n → o = .next (takeTrap s 0x0B (BitVec.ofNat 64 n)))
          ∧ (capCheck s.cur i.cap i.fields i.own = none →
              o = k { s with cur := (s.cur.consume i.fields).countStep })))

/-- R63, R116, R143, R174, R284, R306, R311, R463: the machine after reset, in what the manual gives: no strand holds a slot and nothing is in flight, a core's registers and tile table have the reset
values of R63 and R284, and the link takes no command. That an unlisted byte of memory reads as 0 is the model's choice (the
log, 3). -/
def Obligations.ResetState : Prop :=
  let s := State.reset
  (s.all = [] ∧ s.saved = [] ∧ s.launches = [] ∧ s.pends = [] ∧ s.stores = [] ∧ s.msgs = [] ∧ s.queues = []
    ∧ s.hbm = [] ∧ s.spad = [] ∧ s.host = [])
  ∧ (∀ c, (s.core c).mxWeight = 1 ∧ (s.core c).auditRate = 0 ∧ (s.core c).nextJob = 0 ∧ (s.core c).mail = []
      ∧ ∀ n, n < 32 → s.tile c n = 0x007F000000000000)
  ∧ (s.link.started = false ∧ s.link.evqSize = 0 ∧ s.link.uliWindow = 0 ∧ s.link.items = [] ∧ s.link.events = []
    ∧ s.link.cqs.length = 16 ∧ s.link.rings.length = 64)
  ∧ (∀ d, (s.die d).compareWindow = 20000 ∧ (s.die d).auditDeadline = 100000 ∧ (s.die d).imbalance = 6)
  ∧ Mem.wf s.hbm = true ∧ Mem.wf s.spad = true ∧ Mem.wf s.host = true

/-- R395, R20, R21: a step runs the instruction that the halfwords at the program counter of the strand in front decode to, and `settle` keeps the books of the strand, which
change none of its registers and no memory; a schedule's move picks the strand that issues, or the step of the machine's own that
goes on. An instruction whose bytes lie at the pc is the one the fetch gives. -/
def Obligations.AStepRunsTheDecodedInstruction : Prop :=
  (∀ (s u : State) (i : Instr), i.wf = true → encode i ≠ [] →
    ((s.tape = [] ∧ s.stalled = false ∧ s.cur.live = true ∧ u = s.pass 1 1)
      ∨ (∃ core slot dc dn ms, s.tape = .issue core slot dc dn :: ms
          ∧ (({ s with tape := ms } : State).pass dc dn).select core slot = some u)) →
    u.boundary = .issue → u.mustYield exec = false → (fetchFor u u.cur).fault = none → (fetchFor u u.cur).halves = encode i →
    step s = settle u.cur (exec i) ((fetchFor u u.cur).s.onCur (fun t => { t with fetchBuf := (fetchFor u u.cur).buf })))
  ∧ (∀ (t : Strand) (f : State → Host.Outcome State Fault Refusal) (r s : State), f r = .next s →
      ∃ u, settle t f r = .next u ∧ SameMemory s u ∧ u.pends = s.pends ∧ u.stores = s.stores
      ∧ (s.cur.yielded = false → u.cur.gk = s.cur.gk ∧ u.cur.v = s.cur.v ∧ u.cur.y = s.cur.y ∧ u.cur.pc = s.cur.pc
          ∧ u.cur.m = s.cur.m ∧ u.cur.e = s.cur.e ∧ u.cur.status = s.cur.status ∧ u.strands = s.strands))
  ∧ (∀ (s : State) (e : Instr) (pick : List Nat) (dc dn : Nat) (ms : List Move), s.tape = .event e pick dc dn :: ms →
      (encode e = [] → step s = exec e { ({ s with tape := ms } : State).pass dc dn with pick := pick })
      ∧ (encode e ≠ [] → step s = .fault .badSchedule))
  ∧ (∀ i : Instr, i.wf = true → encode i ≠ [] →
      let s := State.reset.withFetchWord (16 * (encode i).length) (joinHalves (encode i))
      let u := s.pass 1 1
      u.boundary = .issue ∧ u.mustYield exec = false ∧ (fetchFor u u.cur).fault = none ∧ (fetchFor u u.cur).halves = encode i)

/-- R20 to R38: words of the manual's own encodings decode to the instructions they stand for. -/
def Obligations.WordsDecode : Prop :=
  (decodeTableWord 32 0x0096010F = some (.li 2 1200)
    ∧ decodeTableWord 32 0x1100818B = some (.addi ⟨3, 2, false⟩ 34)
    ∧ decodeTableWord 32 0x1060C203 = some (.mul ⟨4, 3, 3, false, false⟩)
    ∧ decodeTableWord 32 0xFFF5C397 = some (.bloop ⟨7, false⟩ 0x7FFA)
    ∧ decodeTableWord 32 0x4080001F = some (.fenceAcq 4))
  ∧ (decodeTableWord 32 0x02704223 = some (.sts ⟨4, 1, false⟩ 3 2)
    ∧ decodeTableWord 32 0x30A101A7 = some (.ldn ⟨3, 4, 5, false, false⟩ 3)
    ∧ decodeTableWord 32 0x0000C0AB = some (.lda 1 3 0)
    ∧ decodeTableWord 32 0x0040612F = some (.ldk 2 3 0x40)
    ∧ decodeTableWord 32 0x1AC14133 = some (.ldg ⟨2, 5, false⟩ 3 1 3 0)
    ∧ decodeTableWord 32 0x0161C337 = some (.ldh ⟨6, 7, false⟩ 3 1)
    ∧ decodeTableWord 32 0x0880C143 = some (.waiteq ⟨2, 3, 4, false, false⟩)
    ∧ decodeTableWord 32 0x02A50047 = some (.send ⟨20, 21, false, false⟩)
    ∧ decodeTableWord 32 0x480101C7 = some (.netrx ⟨3, 4, false⟩)
    ∧ decodeTableWord 32 0x50A11B47 = some (.fwd ⟨0x36, 4, false⟩ 1 1)
    ∧ decodeTableWord 32 0x28A1004B = some (.mxqF32 4 5))
  ∧ (decodeTableWord 16 0x1185 = some (.cStsD 4 1 2)
    ∧ decodeTableWord 64 0x426020D3000004FF =
        some (.vmul ⟨some ⟨false, false, 0, 0, false, true, 1⟩, 0, 0x26, false, 1, false, 1⟩)
    ∧ decodeTableWord 64 0xA2142063000F84FF =
        some (.tlrs ⟨some ⟨false, false, 0x1F, 0, false, true, 1⟩, 0, 0x21, false, 0x21, false, 0⟩))

/-- R20 to R38: decoding the halfwords of any well-formed instruction gives it back, with every operand, and its halfwords are exactly as many as
its length bits ask for: from any bytes that begin with them it is the instruction that is read. -/
def Obligations.DecodingEncodedInstructions : Prop :=
  ∀ (i : Instr), i.wf = true → encode i ≠ [] →
    decode (encode i) = .ok i ∧ needsMore (encode i) = false
    ∧ (∀ n, n < (encode i).length → needsMore ((encode i).take n) = true)
    ∧ (∀ h, h ∈ encode i → h < 65536)
    ∧ (∀ rest : List Nat, firstInstr [] (encode i ++ rest) = encode i)

/-- Every step keeps the memories of the package, its scratchpads and the host in their canonical form: addresses rise strictly, and no entry is one that an
unlisted address reads as. Equal memories are equal data. -/
def Obligations.EveryStepKeepsMemoriesCanonical : Prop :=
  ∀ (s t : State), Mem.wf s.hbm = true → Mem.wf s.spad = true → Mem.wf s.host = true → step s = .next t →
    Mem.wf t.hbm = true ∧ Mem.wf t.spad = true ∧ Mem.wf t.host = true

/-- A packet as it leaves its router in the branches `bs`, all of which have room (R148): a copy for each link. -/
def copiesOf (m : Mcast) (bs : List Nat) : List Mcast :=
  (bs.filter (fun b => b != 4)).map (fun b =>
    { m with router := linkTo m.router b, inp := (b + 2) % 4, left := none, dests := m.beyond b })

/-- R51, R54, R347, R351, R352, R353, R354: SUSP, SPAWN, JOINDEC, ENQ, ENQ.ack, DEQ and ACKW complete, each with its own effect. -/
def QueueFormsComplete : Prop :=
  ∀ (s : State),
    (∀ x : A1, Ready s { fields := [.s x.a x.pa 14, suspField] } → s.cur.isHandler = false →
        s.noPends s.cur.uid = true → s.nops.any (fun n => n.strand == s.cur.uid) = false →
        s.writtenBack s.cur.uid = true → s.ending s.cur.launch = false →
        s.enqStalls s.cur.core s.cur.launch ((s.cur.val x.a).toNat % 16) (clusterOf s.cur.core) = false →
        ∃ t e, exec (.susp x) s = .next t ∧ t.enqs = s.enqs ++ [e] ∧ e.q = (s.cur.val x.a).toNat % 16
          ∧ e.body.w.headD 0 = pcBits ((s.cur.pc + 4).setWidth 64) ∧ t.cur.live = false)
    ∧ (∀ x : AB, Ready s { fields := [.s x.a x.pa 14, .s x.b x.pb 21, spawnField] } → (s.cur.val x.a).toNat % 2 = 0 →
        (s.cur.val x.a).toNat < 2 ^ 48 →
        ∃ t e, exec (.spawn x) s = .next t ∧ t.enqs = s.enqs ++ [e] ∧ e.spawn = true ∧ e.body.w.headD 0 = s.cur.val x.a
          ∧ t.cur.pc = s.cur.pc + 4)
    ∧ (∀ x : AB, Ready s { fields := [.s x.a x.pa 14, .s x.b x.pb 21], mem := true } →
        s.badHandle s.cur.launch (s.cur.val x.a).toNat = false → s.counterFailed s.cur.launch (s.cur.val x.a).toNat = false →
        s.cur.twin = none → s.flowCount s.cur.core (fun m => m.isCounter && !m.isItem
          && (m.w.getD 2 0).toNat / 4096 % 4 == (s.cur.val x.a).toNat / 4096 % 4) < 32 →
        ∃ t m, exec (.joindec x) s = .next t ∧ t.msgs = s.msgs ++ [m] ∧ m.w.getD 2 0 = s.cur.val x.a
          ∧ (m.w.getD 3 0).toNat = (s.cur.val x.b).toNat % 2 ^ 32 ∧ t.cur.pc = s.cur.pc + 4)
    ∧ (∀ (i : Instr) (fs : List Field) (a : BitVec 6) (ack : Bool),
        (∃ x : AB, i = .enq x ∧ fs = [Field.s x.a x.pa 14, .s x.b x.pb 21] ∧ a = x.a ∧ ack = false)
          ∨ (∃ x : A3, i = .enqAck x ∧ fs = fields3 x ∧ a = x.a ∧ ack = true) →
        Ready s { fields := fs, mem := true } → (s.cur.val a).toNat < 2 ^ 11 →
        s.usesCluster s.cur.launch ((s.cur.val a).toNat / 16 % 64) = true → (ack = true → s.cur.ackPend.length < 64) →
        s.enqStalls s.cur.core s.cur.launch ((s.cur.val a).toNat % 16) ((s.cur.val a).toNat / 16 % 64) = false →
        ∃ t e, exec i s = .next t ∧ t.enqs = s.enqs ++ [e] ∧ e.q = (s.cur.val a).toNat % 16
          ∧ e.cluster = (s.cur.val a).toNat / 16 % 64 ∧ e.body.w = s.cur.e.toList ∧ t.cur.pc = s.cur.pc + 4)
    ∧ (∀ x : A3, Ready s { fields := fields3 x, mem := true } → s.cur.isHandler = false → (s.cur.val x.a).toNat < 16 →
        (s.cur.val x.b).toNat % 64 = 0 → (s.cur.val x.b).toNat < 0x3FFC0 →
        ∃ t p, exec (.deq x) s = .next t ∧ t.pends = s.pends ++ [p]
          ∧ p.op = .deq (s.cur.val x.a).toNat (s.cur.val x.b).toNat s.cur.pc s.cur.heldRec ∧ p.dst = x.d.toNat
          ∧ t.cur.pc = s.cur.pc + 4)
    ∧ (∀ x : A2, Ready s { fields := fields2 x, mem := true } → s.cur.knowsTicket ((s.cur.val x.a).toNat % 65536) = true →
        (s.cur.val x.a).toNat % 65536 ∉ s.cur.ackPend →
        ∃ t, exec (.ackw x) s = .next t ∧ (x.d.toNat < 56 → (t.cur.reg x.d.toNat).val =
            (if s.cur.acks.getLsbD ((s.cur.val x.a).toNat % 64) then 1 else 0)) ∧ t.cur.pc = s.cur.pc + 4)

/-- R143, R147, R148, R149, R151, R153: MCAST and NETRX complete, a packet at a router leaves it in every branch, and a router passes
its counts on. -/
def MeshFormsComplete : Prop :=
  ∀ (s : State),
    (∀ x : AB, Ready s { fields := [.s x.a x.pa 14, .s x.b x.pb 21], mem := true } →
        let v := (s.cur.val x.a).toNat
        let b := (s.cur.val x.b).toNat
        let m := s.packetOf v (s.spadRead s.cur.core b 128)
        m.w ≠ 0 → m.h ≠ 0 → m.x0 + m.w ≤ 64 → m.y0 + m.h ≤ 64 → b % 128 = 0 → b < 0x40000 → s.anyDest m = true →
        (∀ c, c ∈ s.destsOf m → (s.mcasts.filter (fun y => y.src == m.src && y.dests.contains c)).length < 32) →
        ∃ t, exec (.mcast x) s = .next t ∧ t.mcasts = s.mcasts ++ [{ m with dests := s.destsOf m }]
          ∧ t.cur.pc = s.cur.pc + 4)
    ∧ (∀ (x : A2) p, Ready s { fields := fields2 x, mem := true } → s.rxq.find? (fun p => p.core == s.cur.core) = some p →
        (s.cur.val x.a).toNat % 128 = 0 → (s.cur.val x.a).toNat < 0x40000 →
        ∃ t, exec (.netrx x) s = .next t ∧ t.rxq = s.rxq.eraseP (fun q => q.core == s.cur.core) ∧ t.cur.pc = s.cur.pc + 4
          ∧ (Mem.wf s.spad = true → t.spadRead s.cur.core (s.cur.val x.a).toNat 128 = p.data % 256 ^ 128))
    ∧ (∀ (i : Instr) m (bs : List Nat), s.mcasts[s.arg 0]? = some m →
        (i = .multicastFork ∧ m.left = none ∧ bs = m.branches
          ∧ (∀ x, x ∈ s.mcasts.take (s.arg 0) → x.router = m.router → x.inp ≠ m.inp)
          ∧ (∀ x, x ∈ s.mcasts → x.router = m.router → x.inp = m.inp → x.left = none))
        ∨ (i = .residueBranchSend ∧ m.left = some bs) →
        (∀ b, b ∈ bs → s.branchRoom m b = true) → (4 ∈ bs → s.mcastBefore m m.router = false) →
        ∃ t, exec i s = .next t ∧ t.mcasts = s.mcasts.eraseIdx (s.arg 0) ++ copiesOf m bs ∧ t.cur = s.cur
          ∧ (4 ∉ bs → t.rxq = s.rxq))
    ∧ (s.arg 0 < 4096 → s.arg 2 = 0 → ∃ t, exec .occupancyPropagate s = .next t
        ∧ t.occOf (s.arg 0) (clusterOf (s.arg 0)) = min 15 (s.arg 1) ∧ t.cur = s.cur)

/-- R51, R54, R143, R147 to R153, R347, R351 to R354: on operands that keep their rules, and with room where they send, the
instructions on queues and the moves of the mesh complete, each with its own effect. -/
def Obligations.QueueAndMeshInstructionsComplete : Prop :=
  QueueFormsComplete ∧ MeshFormsComplete
end

