-- ==== Sys2Proof/Laws/State.lean ====
section
/-! SUPPORT. What the updates of the state and of a strand leave alone, one lemma for each field and update. -/

namespace Sys2Proof.Machine

/-! ### Updates of the state -/

@[simp] theorem State.onCur_cur (s : State) (f : Strand → Strand) : (s.onCur f).cur = f s.cur := rfl
@[simp] theorem State.onCur_strands (s : State) (f : Strand → Strand) : (s.onCur f).strands = s.strands := rfl
@[simp] theorem State.onCur_tape (s : State) (f : Strand → Strand) : (s.onCur f).tape = s.tape := rfl
@[simp] theorem State.onCur_pick (s : State) (f : Strand → Strand) : (s.onCur f).pick = s.pick := rfl
@[simp] theorem State.onCur_stalled (s : State) (f : Strand → Strand) : (s.onCur f).stalled = s.stalled := rfl
@[simp] theorem State.onCur_cycles (s : State) (f : Strand → Strand) : (s.onCur f).cycles = s.cycles := rfl
@[simp] theorem State.onCur_timeNs (s : State) (f : Strand → Strand) : (s.onCur f).timeNs = s.timeNs := rfl
@[simp] theorem State.onCur_nextUid (s : State) (f : Strand → Strand) : (s.onCur f).nextUid = s.nextUid := rfl
@[simp] theorem State.onCur_tick (s : State) (f : Strand → Strand) : (s.onCur f).tick = s.tick := rfl
@[simp] theorem State.onCur_hbm (s : State) (f : Strand → Strand) : (s.onCur f).hbm = s.hbm := rfl
@[simp] theorem State.onCur_spad (s : State) (f : Strand → Strand) : (s.onCur f).spad = s.spad := rfl
@[simp] theorem State.onCur_host (s : State) (f : Strand → Strand) : (s.onCur f).host = s.host := rfl
@[simp] theorem State.onCur_dies (s : State) (f : Strand → Strand) : (s.onCur f).dies = s.dies := rfl
@[simp] theorem State.onCur_clusters (s : State) (f : Strand → Strand) : (s.onCur f).clusters = s.clusters := rfl
@[simp] theorem State.onCur_cores (s : State) (f : Strand → Strand) : (s.onCur f).cores = s.cores := rfl
@[simp] theorem State.onCur_sfu (s : State) (f : Strand → Strand) : (s.onCur f).sfu = s.sfu := rfl
@[simp] theorem State.onCur_recs (s : State) (f : Strand → Strand) : (s.onCur f).recs = s.recs := rfl
@[simp] theorem State.onCur_fwds (s : State) (f : Strand → Strand) : (s.onCur f).fwds = s.fwds := rfl
@[simp] theorem State.onCur_dead (s : State) (f : Strand → Strand) : (s.onCur f).dead = s.dead := rfl
@[simp] theorem State.onCur_launches (s : State) (f : Strand → Strand) : (s.onCur f).launches = s.launches := rfl
@[simp] theorem State.onCur_holds (s : State) (f : Strand → Strand) : (s.onCur f).holds = s.holds := rfl
@[simp] theorem State.onCur_regions (s : State) (f : Strand → Strand) : (s.onCur f).regions = s.regions := rfl
@[simp] theorem State.onCur_areas (s : State) (f : Strand → Strand) : (s.onCur f).areas = s.areas := rfl
@[simp] theorem State.onCur_shadows (s : State) (f : Strand → Strand) : (s.onCur f).shadows = s.shadows := rfl
@[simp] theorem State.onCur_lastW (s : State) (f : Strand → Strand) : (s.onCur f).lastW = s.lastW := rfl
@[simp] theorem State.onCur_hostW (s : State) (f : Strand → Strand) : (s.onCur f).hostW = s.hostW := rfl
@[simp] theorem State.onCur_behind (s : State) (f : Strand → Strand) : (s.onCur f).behind = s.behind := rfl
@[simp] theorem State.onCur_slices (s : State) (f : Strand → Strand) : (s.onCur f).slices = s.slices := rfl
@[simp] theorem State.onCur_updates (s : State) (f : Strand → Strand) : (s.onCur f).updates = s.updates := rfl
@[simp] theorem State.onCur_stores (s : State) (f : Strand → Strand) : (s.onCur f).stores = s.stores := rfl
@[simp] theorem State.onCur_faultMsgs (s : State) (f : Strand → Strand) : (s.onCur f).faultMsgs = s.faultMsgs := rfl
@[simp] theorem State.onCur_nextPos (s : State) (f : Strand → Strand) : (s.onCur f).nextPos = s.nextPos := rfl
@[simp] theorem State.onCur_pends (s : State) (f : Strand → Strand) : (s.onCur f).pends = s.pends := rfl
@[simp] theorem State.onCur_nops (s : State) (f : Strand → Strand) : (s.onCur f).nops = s.nops := rfl
@[simp] theorem State.onCur_fenced (s : State) (f : Strand → Strand) : (s.onCur f).fenced = s.fenced := rfl
@[simp] theorem State.onCur_fusedCores (s : State) (f : Strand → Strand) : (s.onCur f).fusedCores = s.fusedCores := rfl
@[simp] theorem State.onCur_bootEntry (s : State) (f : Strand → Strand) : (s.onCur f).bootEntry = s.bootEntry := rfl
@[simp] theorem State.onCur_bootImage (s : State) (f : Strand → Strand) : (s.onCur f).bootImage = s.bootImage := rfl
@[simp] theorem State.onCur_hostDeny (s : State) (f : Strand → Strand) : (s.onCur f).hostDeny = s.hostDeny := rfl
@[simp] theorem State.onCur_notes (s : State) (f : Strand → Strand) : (s.onCur f).notes = s.notes := rfl
@[simp] theorem State.onCur_msgs (s : State) (f : Strand → Strand) : (s.onCur f).msgs = s.msgs := rfl
@[simp] theorem State.onCur_logical (s : State) (f : Strand → Strand) : (s.onCur f).logical = s.logical := rfl
@[simp] theorem State.onCur_records (s : State) (f : Strand → Strand) : (s.onCur f).records = s.records := rfl
@[simp] theorem State.onCur_heldRecs (s : State) (f : Strand → Strand) : (s.onCur f).heldRecs = s.heldRecs := rfl
@[simp] theorem State.onCur_recCls (s : State) (f : Strand → Strand) : (s.onCur f).recCls = s.recCls := rfl
@[simp] theorem State.onCur_failedRecs (s : State) (f : Strand → Strand) : (s.onCur f).failedRecs = s.failedRecs := rfl
@[simp] theorem State.onCur_badUnits (s : State) (f : Strand → Strand) : (s.onCur f).badUnits = s.badUnits := rfl
@[simp] theorem State.onCur_lost (s : State) (f : Strand → Strand) : (s.onCur f).lost = s.lost := rfl
@[simp] theorem State.onCur_grans (s : State) (f : Strand → Strand) : (s.onCur f).grans = s.grans := rfl
@[simp] theorem State.onCur_frameErrs (s : State) (f : Strand → Strand) : (s.onCur f).frameErrs = s.frameErrs := rfl
@[simp] theorem State.onCur_retired (s : State) (f : Strand → Strand) : (s.onCur f).retired = s.retired := rfl
@[simp] theorem State.onCur_softErrs (s : State) (f : Strand → Strand) : (s.onCur f).softErrs = s.softErrs := rfl
@[simp] theorem State.onCur_badWords (s : State) (f : Strand → Strand) : (s.onCur f).badWords = s.badWords := rfl
@[simp] theorem State.onCur_banks (s : State) (f : Strand → Strand) : (s.onCur f).banks = s.banks := rfl
@[simp] theorem State.onCur_waits (s : State) (f : Strand → Strand) : (s.onCur f).waits = s.waits := rfl
@[simp] theorem State.onCur_syncs (s : State) (f : Strand → Strand) : (s.onCur f).syncs = s.syncs := rfl
@[simp] theorem State.onCur_markers (s : State) (f : Strand → Strand) : (s.onCur f).markers = s.markers := rfl
@[simp] theorem State.onCur_counters (s : State) (f : Strand → Strand) : (s.onCur f).counters = s.counters := rfl
@[simp] theorem State.onCur_queues (s : State) (f : Strand → Strand) : (s.onCur f).queues = s.queues := rfl
@[simp] theorem State.onCur_deqWaiters (s : State) (f : Strand → Strand) : (s.onCur f).deqWaiters = s.deqWaiters := rfl
@[simp] theorem State.onCur_enqs (s : State) (f : Strand → Strand) : (s.onCur f).enqs = s.enqs := rfl
@[simp] theorem State.onCur_acks (s : State) (f : Strand → Strand) : (s.onCur f).acks = s.acks := rfl
@[simp] theorem State.onCur_creditRets (s : State) (f : Strand → Strand) : (s.onCur f).creditRets = s.creditRets := rfl
@[simp] theorem State.onCur_pointers (s : State) (f : Strand → Strand) : (s.onCur f).pointers = s.pointers := rfl
@[simp] theorem State.onCur_channels (s : State) (f : Strand → Strand) : (s.onCur f).channels = s.channels := rfl
@[simp] theorem State.onCur_pipeItems (s : State) (f : Strand → Strand) : (s.onCur f).pipeItems = s.pipeItems := rfl
@[simp] theorem State.onCur_pipeCredits (s : State) (f : Strand → Strand) : (s.onCur f).pipeCredits = s.pipeCredits := rfl
@[simp] theorem State.onCur_jobs (s : State) (f : Strand → Strand) : (s.onCur f).jobs = s.jobs := rfl
@[simp] theorem State.onCur_late (s : State) (f : Strand → Strand) : (s.onCur f).late = s.late := rfl
@[simp] theorem State.onCur_mxCmds (s : State) (f : Strand → Strand) : (s.onCur f).mxCmds = s.mxCmds := rfl
@[simp] theorem State.onCur_opCache (s : State) (f : Strand → Strand) : (s.onCur f).opCache = s.opCache := rfl
@[simp] theorem State.onCur_samples (s : State) (f : Strand → Strand) : (s.onCur f).samples = s.samples := rfl
@[simp] theorem State.onCur_auditAdds (s : State) (f : Strand → Strand) : (s.onCur f).auditAdds = s.auditAdds := rfl
@[simp] theorem State.onCur_auditSeqs (s : State) (f : Strand → Strand) : (s.onCur f).auditSeqs = s.auditSeqs := rfl
@[simp] theorem State.onCur_icinvs (s : State) (f : Strand → Strand) : (s.onCur f).icinvs = s.icinvs := rfl
@[simp] theorem State.onCur_entries (s : State) (f : Strand → Strand) : (s.onCur f).entries = s.entries := rfl
@[simp] theorem State.onCur_inq (s : State) (f : Strand → Strand) : (s.onCur f).inq = s.inq := rfl
@[simp] theorem State.onCur_inqRets (s : State) (f : Strand → Strand) : (s.onCur f).inqRets = s.inqRets := rfl
@[simp] theorem State.onCur_profiles (s : State) (f : Strand → Strand) : (s.onCur f).profiles = s.profiles := rfl
@[simp] theorem State.onCur_wsFull (s : State) (f : Strand → Strand) : (s.onCur f).wsFull = s.wsFull := rfl
@[simp] theorem State.onCur_wsCount (s : State) (f : Strand → Strand) : (s.onCur f).wsCount = s.wsCount := rfl
@[simp] theorem State.onCur_mcasts (s : State) (f : Strand → Strand) : (s.onCur f).mcasts = s.mcasts := rfl
@[simp] theorem State.onCur_rxq (s : State) (f : Strand → Strand) : (s.onCur f).rxq = s.rxq := rfl
@[simp] theorem State.onCur_occ (s : State) (f : Strand → Strand) : (s.onCur f).occ = s.occ := rfl
@[simp] theorem State.onCur_icache (s : State) (f : Strand → Strand) : (s.onCur f).icache = s.icache := rfl
@[simp] theorem State.onCur_islices (s : State) (f : Strand → Strand) : (s.onCur f).islices = s.islices := rfl
@[simp] theorem State.onCur_link (s : State) (f : Strand → Strand) : (s.onCur f).link = s.link := rfl
@[simp] theorem State.onCur_moves (s : State) (f : Strand → Strand) : (s.onCur f).moves = s.moves := rfl
@[simp] theorem State.onCur_contains (s : State) (f : Strand → Strand) : (s.onCur f).contains = s.contains := rfl
@[simp] theorem State.onCur_saved (s : State) (f : Strand → Strand) : (s.onCur f).saved = s.saved := rfl
@[simp] theorem State.onCur_savedTiles (s : State) (f : Strand → Strand) : (s.onCur f).savedTiles = s.savedTiles := rfl
@[simp] theorem State.onCur_savedBufs (s : State) (f : Strand → Strand) : (s.onCur f).savedBufs = s.savedBufs := rfl
@[simp] theorem State.onCur_xtNet (s : State) (f : Strand → Strand) : (s.onCur f).xtNet = s.xtNet := rfl
@[simp] theorem State.onCur_deadlocks (s : State) (f : Strand → Strand) : (s.onCur f).deadlocks = s.deadlocks := rfl
@[simp] theorem State.onCur_flashRoutes (s : State) (f : Strand → Strand) : (s.onCur f).flashRoutes = s.flashRoutes := rfl
@[simp] theorem State.onCur_flashPackage (s : State) (f : Strand → Strand) : (s.onCur f).flashPackage = s.flashPackage := rfl
@[simp] theorem State.onCur_flashImage (s : State) (f : Strand → Strand) : (s.onCur f).flashImage = s.flashImage := rfl
@[simp] theorem State.onCur_flashEntry (s : State) (f : Strand → Strand) : (s.onCur f).flashEntry = s.flashEntry := rfl
@[simp] theorem State.onCur_fuseVendor (s : State) (f : Strand → Strand) : (s.onCur f).fuseVendor = s.fuseVendor := rfl

@[simp] theorem State.onStrands_strands (s : State) (p : Strand → Bool) (f : Strand → Strand) :
    (s.onStrands p f).strands = mapIf p f s.strands := rfl
@[simp] theorem State.onStrands_tape (s : State) (p : Strand → Bool) (f : Strand → Strand) : (s.onStrands p f).tape = s.tape := rfl
@[simp] theorem State.onStrands_pick (s : State) (p : Strand → Bool) (f : Strand → Strand) : (s.onStrands p f).pick = s.pick := rfl
@[simp] theorem State.onStrands_stalled (s : State) (p : Strand → Bool) (f : Strand → Strand) : (s.onStrands p f).stalled = s.stalled := rfl
@[simp] theorem State.onStrands_cycles (s : State) (p : Strand → Bool) (f : Strand → Strand) : (s.onStrands p f).cycles = s.cycles := rfl
@[simp] theorem State.onStrands_timeNs (s : State) (p : Strand → Bool) (f : Strand → Strand) : (s.onStrands p f).timeNs = s.timeNs := rfl
@[simp] theorem State.onStrands_nextUid (s : State) (p : Strand → Bool) (f : Strand → Strand) : (s.onStrands p f).nextUid = s.nextUid := rfl
@[simp] theorem State.onStrands_tick (s : State) (p : Strand → Bool) (f : Strand → Strand) : (s.onStrands p f).tick = s.tick := rfl
@[simp] theorem State.onStrands_hbm (s : State) (p : Strand → Bool) (f : Strand → Strand) : (s.onStrands p f).hbm = s.hbm := rfl
@[simp] theorem State.onStrands_spad (s : State) (p : Strand → Bool) (f : Strand → Strand) : (s.onStrands p f).spad = s.spad := rfl
@[simp] theorem State.onStrands_host (s : State) (p : Strand → Bool) (f : Strand → Strand) : (s.onStrands p f).host = s.host := rfl
@[simp] theorem State.onStrands_dies (s : State) (p : Strand → Bool) (f : Strand → Strand) : (s.onStrands p f).dies = s.dies := rfl
@[simp] theorem State.onStrands_clusters (s : State) (p : Strand → Bool) (f : Strand → Strand) : (s.onStrands p f).clusters = s.clusters := rfl
@[simp] theorem State.onStrands_cores (s : State) (p : Strand → Bool) (f : Strand → Strand) : (s.onStrands p f).cores = s.cores := rfl
@[simp] theorem State.onStrands_sfu (s : State) (p : Strand → Bool) (f : Strand → Strand) : (s.onStrands p f).sfu = s.sfu := rfl
@[simp] theorem State.onStrands_recs (s : State) (p : Strand → Bool) (f : Strand → Strand) : (s.onStrands p f).recs = s.recs := rfl
@[simp] theorem State.onStrands_fwds (s : State) (p : Strand → Bool) (f : Strand → Strand) : (s.onStrands p f).fwds = s.fwds := rfl
@[simp] theorem State.onStrands_dead (s : State) (p : Strand → Bool) (f : Strand → Strand) : (s.onStrands p f).dead = s.dead := rfl
@[simp] theorem State.onStrands_launches (s : State) (p : Strand → Bool) (f : Strand → Strand) : (s.onStrands p f).launches = s.launches := rfl
@[simp] theorem State.onStrands_holds (s : State) (p : Strand → Bool) (f : Strand → Strand) : (s.onStrands p f).holds = s.holds := rfl
@[simp] theorem State.onStrands_regions (s : State) (p : Strand → Bool) (f : Strand → Strand) : (s.onStrands p f).regions = s.regions := rfl
@[simp] theorem State.onStrands_areas (s : State) (p : Strand → Bool) (f : Strand → Strand) : (s.onStrands p f).areas = s.areas := rfl
@[simp] theorem State.onStrands_shadows (s : State) (p : Strand → Bool) (f : Strand → Strand) : (s.onStrands p f).shadows = s.shadows := rfl
@[simp] theorem State.onStrands_lastW (s : State) (p : Strand → Bool) (f : Strand → Strand) : (s.onStrands p f).lastW = s.lastW := rfl
@[simp] theorem State.onStrands_hostW (s : State) (p : Strand → Bool) (f : Strand → Strand) : (s.onStrands p f).hostW = s.hostW := rfl
@[simp] theorem State.onStrands_behind (s : State) (p : Strand → Bool) (f : Strand → Strand) : (s.onStrands p f).behind = s.behind := rfl
@[simp] theorem State.onStrands_slices (s : State) (p : Strand → Bool) (f : Strand → Strand) : (s.onStrands p f).slices = s.slices := rfl
@[simp] theorem State.onStrands_updates (s : State) (p : Strand → Bool) (f : Strand → Strand) : (s.onStrands p f).updates = s.updates := rfl
@[simp] theorem State.onStrands_stores (s : State) (p : Strand → Bool) (f : Strand → Strand) : (s.onStrands p f).stores = s.stores := rfl
@[simp] theorem State.onStrands_faultMsgs (s : State) (p : Strand → Bool) (f : Strand → Strand) : (s.onStrands p f).faultMsgs = s.faultMsgs := rfl
@[simp] theorem State.onStrands_nextPos (s : State) (p : Strand → Bool) (f : Strand → Strand) : (s.onStrands p f).nextPos = s.nextPos := rfl
@[simp] theorem State.onStrands_pends (s : State) (p : Strand → Bool) (f : Strand → Strand) : (s.onStrands p f).pends = s.pends := rfl
@[simp] theorem State.onStrands_nops (s : State) (p : Strand → Bool) (f : Strand → Strand) : (s.onStrands p f).nops = s.nops := rfl
@[simp] theorem State.onStrands_fenced (s : State) (p : Strand → Bool) (f : Strand → Strand) : (s.onStrands p f).fenced = s.fenced := rfl
@[simp] theorem State.onStrands_fusedCores (s : State) (p : Strand → Bool) (f : Strand → Strand) : (s.onStrands p f).fusedCores = s.fusedCores := rfl
@[simp] theorem State.onStrands_bootEntry (s : State) (p : Strand → Bool) (f : Strand → Strand) : (s.onStrands p f).bootEntry = s.bootEntry := rfl
@[simp] theorem State.onStrands_bootImage (s : State) (p : Strand → Bool) (f : Strand → Strand) : (s.onStrands p f).bootImage = s.bootImage := rfl
@[simp] theorem State.onStrands_hostDeny (s : State) (p : Strand → Bool) (f : Strand → Strand) : (s.onStrands p f).hostDeny = s.hostDeny := rfl
@[simp] theorem State.onStrands_notes (s : State) (p : Strand → Bool) (f : Strand → Strand) : (s.onStrands p f).notes = s.notes := rfl
@[simp] theorem State.onStrands_msgs (s : State) (p : Strand → Bool) (f : Strand → Strand) : (s.onStrands p f).msgs = s.msgs := rfl
@[simp] theorem State.onStrands_logical (s : State) (p : Strand → Bool) (f : Strand → Strand) : (s.onStrands p f).logical = s.logical := rfl
@[simp] theorem State.onStrands_records (s : State) (p : Strand → Bool) (f : Strand → Strand) : (s.onStrands p f).records = s.records := rfl
@[simp] theorem State.onStrands_heldRecs (s : State) (p : Strand → Bool) (f : Strand → Strand) : (s.onStrands p f).heldRecs = s.heldRecs := rfl
@[simp] theorem State.onStrands_recCls (s : State) (p : Strand → Bool) (f : Strand → Strand) : (s.onStrands p f).recCls = s.recCls := rfl
@[simp] theorem State.onStrands_failedRecs (s : State) (p : Strand → Bool) (f : Strand → Strand) : (s.onStrands p f).failedRecs = s.failedRecs := rfl
@[simp] theorem State.onStrands_badUnits (s : State) (p : Strand → Bool) (f : Strand → Strand) : (s.onStrands p f).badUnits = s.badUnits := rfl
@[simp] theorem State.onStrands_lost (s : State) (p : Strand → Bool) (f : Strand → Strand) : (s.onStrands p f).lost = s.lost := rfl
@[simp] theorem State.onStrands_grans (s : State) (p : Strand → Bool) (f : Strand → Strand) : (s.onStrands p f).grans = s.grans := rfl
@[simp] theorem State.onStrands_frameErrs (s : State) (p : Strand → Bool) (f : Strand → Strand) : (s.onStrands p f).frameErrs = s.frameErrs := rfl
@[simp] theorem State.onStrands_retired (s : State) (p : Strand → Bool) (f : Strand → Strand) : (s.onStrands p f).retired = s.retired := rfl
@[simp] theorem State.onStrands_softErrs (s : State) (p : Strand → Bool) (f : Strand → Strand) : (s.onStrands p f).softErrs = s.softErrs := rfl
@[simp] theorem State.onStrands_badWords (s : State) (p : Strand → Bool) (f : Strand → Strand) : (s.onStrands p f).badWords = s.badWords := rfl
@[simp] theorem State.onStrands_banks (s : State) (p : Strand → Bool) (f : Strand → Strand) : (s.onStrands p f).banks = s.banks := rfl
@[simp] theorem State.onStrands_waits (s : State) (p : Strand → Bool) (f : Strand → Strand) : (s.onStrands p f).waits = s.waits := rfl
@[simp] theorem State.onStrands_syncs (s : State) (p : Strand → Bool) (f : Strand → Strand) : (s.onStrands p f).syncs = s.syncs := rfl
@[simp] theorem State.onStrands_markers (s : State) (p : Strand → Bool) (f : Strand → Strand) : (s.onStrands p f).markers = s.markers := rfl
@[simp] theorem State.onStrands_counters (s : State) (p : Strand → Bool) (f : Strand → Strand) : (s.onStrands p f).counters = s.counters := rfl
@[simp] theorem State.onStrands_queues (s : State) (p : Strand → Bool) (f : Strand → Strand) : (s.onStrands p f).queues = s.queues := rfl
@[simp] theorem State.onStrands_deqWaiters (s : State) (p : Strand → Bool) (f : Strand → Strand) : (s.onStrands p f).deqWaiters = s.deqWaiters := rfl
@[simp] theorem State.onStrands_enqs (s : State) (p : Strand → Bool) (f : Strand → Strand) : (s.onStrands p f).enqs = s.enqs := rfl
@[simp] theorem State.onStrands_acks (s : State) (p : Strand → Bool) (f : Strand → Strand) : (s.onStrands p f).acks = s.acks := rfl
@[simp] theorem State.onStrands_creditRets (s : State) (p : Strand → Bool) (f : Strand → Strand) : (s.onStrands p f).creditRets = s.creditRets := rfl
@[simp] theorem State.onStrands_pointers (s : State) (p : Strand → Bool) (f : Strand → Strand) : (s.onStrands p f).pointers = s.pointers := rfl
@[simp] theorem State.onStrands_channels (s : State) (p : Strand → Bool) (f : Strand → Strand) : (s.onStrands p f).channels = s.channels := rfl
@[simp] theorem State.onStrands_pipeItems (s : State) (p : Strand → Bool) (f : Strand → Strand) : (s.onStrands p f).pipeItems = s.pipeItems := rfl
@[simp] theorem State.onStrands_pipeCredits (s : State) (p : Strand → Bool) (f : Strand → Strand) : (s.onStrands p f).pipeCredits = s.pipeCredits := rfl
@[simp] theorem State.onStrands_jobs (s : State) (p : Strand → Bool) (f : Strand → Strand) : (s.onStrands p f).jobs = s.jobs := rfl
@[simp] theorem State.onStrands_late (s : State) (p : Strand → Bool) (f : Strand → Strand) : (s.onStrands p f).late = s.late := rfl
@[simp] theorem State.onStrands_mxCmds (s : State) (p : Strand → Bool) (f : Strand → Strand) : (s.onStrands p f).mxCmds = s.mxCmds := rfl
@[simp] theorem State.onStrands_opCache (s : State) (p : Strand → Bool) (f : Strand → Strand) : (s.onStrands p f).opCache = s.opCache := rfl
@[simp] theorem State.onStrands_samples (s : State) (p : Strand → Bool) (f : Strand → Strand) : (s.onStrands p f).samples = s.samples := rfl
@[simp] theorem State.onStrands_auditAdds (s : State) (p : Strand → Bool) (f : Strand → Strand) : (s.onStrands p f).auditAdds = s.auditAdds := rfl
@[simp] theorem State.onStrands_auditSeqs (s : State) (p : Strand → Bool) (f : Strand → Strand) : (s.onStrands p f).auditSeqs = s.auditSeqs := rfl
@[simp] theorem State.onStrands_icinvs (s : State) (p : Strand → Bool) (f : Strand → Strand) : (s.onStrands p f).icinvs = s.icinvs := rfl
@[simp] theorem State.onStrands_entries (s : State) (p : Strand → Bool) (f : Strand → Strand) : (s.onStrands p f).entries = s.entries := rfl
@[simp] theorem State.onStrands_inq (s : State) (p : Strand → Bool) (f : Strand → Strand) : (s.onStrands p f).inq = s.inq := rfl
@[simp] theorem State.onStrands_inqRets (s : State) (p : Strand → Bool) (f : Strand → Strand) : (s.onStrands p f).inqRets = s.inqRets := rfl
@[simp] theorem State.onStrands_profiles (s : State) (p : Strand → Bool) (f : Strand → Strand) : (s.onStrands p f).profiles = s.profiles := rfl
@[simp] theorem State.onStrands_wsFull (s : State) (p : Strand → Bool) (f : Strand → Strand) : (s.onStrands p f).wsFull = s.wsFull := rfl
@[simp] theorem State.onStrands_wsCount (s : State) (p : Strand → Bool) (f : Strand → Strand) : (s.onStrands p f).wsCount = s.wsCount := rfl
@[simp] theorem State.onStrands_mcasts (s : State) (p : Strand → Bool) (f : Strand → Strand) : (s.onStrands p f).mcasts = s.mcasts := rfl
@[simp] theorem State.onStrands_rxq (s : State) (p : Strand → Bool) (f : Strand → Strand) : (s.onStrands p f).rxq = s.rxq := rfl
@[simp] theorem State.onStrands_occ (s : State) (p : Strand → Bool) (f : Strand → Strand) : (s.onStrands p f).occ = s.occ := rfl
@[simp] theorem State.onStrands_icache (s : State) (p : Strand → Bool) (f : Strand → Strand) : (s.onStrands p f).icache = s.icache := rfl
@[simp] theorem State.onStrands_islices (s : State) (p : Strand → Bool) (f : Strand → Strand) : (s.onStrands p f).islices = s.islices := rfl
@[simp] theorem State.onStrands_link (s : State) (p : Strand → Bool) (f : Strand → Strand) : (s.onStrands p f).link = s.link := rfl
@[simp] theorem State.onStrands_moves (s : State) (p : Strand → Bool) (f : Strand → Strand) : (s.onStrands p f).moves = s.moves := rfl
@[simp] theorem State.onStrands_contains (s : State) (p : Strand → Bool) (f : Strand → Strand) : (s.onStrands p f).contains = s.contains := rfl
@[simp] theorem State.onStrands_savedTiles (s : State) (p : Strand → Bool) (f : Strand → Strand) : (s.onStrands p f).savedTiles = s.savedTiles := rfl
@[simp] theorem State.onStrands_savedBufs (s : State) (p : Strand → Bool) (f : Strand → Strand) : (s.onStrands p f).savedBufs = s.savedBufs := rfl
@[simp] theorem State.onStrands_xtNet (s : State) (p : Strand → Bool) (f : Strand → Strand) : (s.onStrands p f).xtNet = s.xtNet := rfl
@[simp] theorem State.onStrands_deadlocks (s : State) (p : Strand → Bool) (f : Strand → Strand) : (s.onStrands p f).deadlocks = s.deadlocks := rfl
@[simp] theorem State.onStrands_flashRoutes (s : State) (p : Strand → Bool) (f : Strand → Strand) : (s.onStrands p f).flashRoutes = s.flashRoutes := rfl
@[simp] theorem State.onStrands_flashPackage (s : State) (p : Strand → Bool) (f : Strand → Strand) : (s.onStrands p f).flashPackage = s.flashPackage := rfl
@[simp] theorem State.onStrands_flashImage (s : State) (p : Strand → Bool) (f : Strand → Strand) : (s.onStrands p f).flashImage = s.flashImage := rfl
@[simp] theorem State.onStrands_flashEntry (s : State) (p : Strand → Bool) (f : Strand → Strand) : (s.onStrands p f).flashEntry = s.flashEntry := rfl
@[simp] theorem State.onStrands_fuseVendor (s : State) (p : Strand → Bool) (f : Strand → Strand) : (s.onStrands p f).fuseVendor = s.fuseVendor := rfl

@[simp] theorem State.fresh_nextUid (s : State) : s.fresh.nextUid = s.nextUid + 1 := rfl
@[simp] theorem State.fresh_cur (s : State) : (s.fresh).cur = s.cur := rfl
@[simp] theorem State.fresh_strands (s : State) : (s.fresh).strands = s.strands := rfl
@[simp] theorem State.fresh_tape (s : State) : (s.fresh).tape = s.tape := rfl
@[simp] theorem State.fresh_pick (s : State) : (s.fresh).pick = s.pick := rfl
@[simp] theorem State.fresh_stalled (s : State) : (s.fresh).stalled = s.stalled := rfl
@[simp] theorem State.fresh_cycles (s : State) : (s.fresh).cycles = s.cycles := rfl
@[simp] theorem State.fresh_timeNs (s : State) : (s.fresh).timeNs = s.timeNs := rfl
@[simp] theorem State.fresh_tick (s : State) : (s.fresh).tick = s.tick := rfl
@[simp] theorem State.fresh_hbm (s : State) : (s.fresh).hbm = s.hbm := rfl
@[simp] theorem State.fresh_spad (s : State) : (s.fresh).spad = s.spad := rfl
@[simp] theorem State.fresh_host (s : State) : (s.fresh).host = s.host := rfl
@[simp] theorem State.fresh_dies (s : State) : (s.fresh).dies = s.dies := rfl
@[simp] theorem State.fresh_clusters (s : State) : (s.fresh).clusters = s.clusters := rfl
@[simp] theorem State.fresh_cores (s : State) : (s.fresh).cores = s.cores := rfl
@[simp] theorem State.fresh_sfu (s : State) : (s.fresh).sfu = s.sfu := rfl
@[simp] theorem State.fresh_recs (s : State) : (s.fresh).recs = s.recs := rfl
@[simp] theorem State.fresh_fwds (s : State) : (s.fresh).fwds = s.fwds := rfl
@[simp] theorem State.fresh_dead (s : State) : (s.fresh).dead = s.dead := rfl
@[simp] theorem State.fresh_launches (s : State) : (s.fresh).launches = s.launches := rfl
@[simp] theorem State.fresh_holds (s : State) : (s.fresh).holds = s.holds := rfl
@[simp] theorem State.fresh_regions (s : State) : (s.fresh).regions = s.regions := rfl
@[simp] theorem State.fresh_areas (s : State) : (s.fresh).areas = s.areas := rfl
@[simp] theorem State.fresh_shadows (s : State) : (s.fresh).shadows = s.shadows := rfl
@[simp] theorem State.fresh_lastW (s : State) : (s.fresh).lastW = s.lastW := rfl
@[simp] theorem State.fresh_hostW (s : State) : (s.fresh).hostW = s.hostW := rfl
@[simp] theorem State.fresh_behind (s : State) : (s.fresh).behind = s.behind := rfl
@[simp] theorem State.fresh_slices (s : State) : (s.fresh).slices = s.slices := rfl
@[simp] theorem State.fresh_updates (s : State) : (s.fresh).updates = s.updates := rfl
@[simp] theorem State.fresh_stores (s : State) : (s.fresh).stores = s.stores := rfl
@[simp] theorem State.fresh_faultMsgs (s : State) : (s.fresh).faultMsgs = s.faultMsgs := rfl
@[simp] theorem State.fresh_nextPos (s : State) : (s.fresh).nextPos = s.nextPos := rfl
@[simp] theorem State.fresh_pends (s : State) : (s.fresh).pends = s.pends := rfl
@[simp] theorem State.fresh_nops (s : State) : (s.fresh).nops = s.nops := rfl
@[simp] theorem State.fresh_fenced (s : State) : (s.fresh).fenced = s.fenced := rfl
@[simp] theorem State.fresh_fusedCores (s : State) : (s.fresh).fusedCores = s.fusedCores := rfl
@[simp] theorem State.fresh_bootEntry (s : State) : (s.fresh).bootEntry = s.bootEntry := rfl
@[simp] theorem State.fresh_bootImage (s : State) : (s.fresh).bootImage = s.bootImage := rfl
@[simp] theorem State.fresh_hostDeny (s : State) : (s.fresh).hostDeny = s.hostDeny := rfl
@[simp] theorem State.fresh_notes (s : State) : (s.fresh).notes = s.notes := rfl
@[simp] theorem State.fresh_msgs (s : State) : (s.fresh).msgs = s.msgs := rfl
@[simp] theorem State.fresh_logical (s : State) : (s.fresh).logical = s.logical := rfl
@[simp] theorem State.fresh_records (s : State) : (s.fresh).records = s.records := rfl
@[simp] theorem State.fresh_heldRecs (s : State) : (s.fresh).heldRecs = s.heldRecs := rfl
@[simp] theorem State.fresh_recCls (s : State) : (s.fresh).recCls = s.recCls := rfl
@[simp] theorem State.fresh_failedRecs (s : State) : (s.fresh).failedRecs = s.failedRecs := rfl
@[simp] theorem State.fresh_badUnits (s : State) : (s.fresh).badUnits = s.badUnits := rfl
@[simp] theorem State.fresh_lost (s : State) : (s.fresh).lost = s.lost := rfl
@[simp] theorem State.fresh_grans (s : State) : (s.fresh).grans = s.grans := rfl
@[simp] theorem State.fresh_frameErrs (s : State) : (s.fresh).frameErrs = s.frameErrs := rfl
@[simp] theorem State.fresh_retired (s : State) : (s.fresh).retired = s.retired := rfl
@[simp] theorem State.fresh_softErrs (s : State) : (s.fresh).softErrs = s.softErrs := rfl
@[simp] theorem State.fresh_badWords (s : State) : (s.fresh).badWords = s.badWords := rfl
@[simp] theorem State.fresh_banks (s : State) : (s.fresh).banks = s.banks := rfl
@[simp] theorem State.fresh_waits (s : State) : (s.fresh).waits = s.waits := rfl
@[simp] theorem State.fresh_syncs (s : State) : (s.fresh).syncs = s.syncs := rfl
@[simp] theorem State.fresh_markers (s : State) : (s.fresh).markers = s.markers := rfl
@[simp] theorem State.fresh_counters (s : State) : (s.fresh).counters = s.counters := rfl
@[simp] theorem State.fresh_queues (s : State) : (s.fresh).queues = s.queues := rfl
@[simp] theorem State.fresh_deqWaiters (s : State) : (s.fresh).deqWaiters = s.deqWaiters := rfl
@[simp] theorem State.fresh_enqs (s : State) : (s.fresh).enqs = s.enqs := rfl
@[simp] theorem State.fresh_acks (s : State) : (s.fresh).acks = s.acks := rfl
@[simp] theorem State.fresh_creditRets (s : State) : (s.fresh).creditRets = s.creditRets := rfl
@[simp] theorem State.fresh_pointers (s : State) : (s.fresh).pointers = s.pointers := rfl
@[simp] theorem State.fresh_channels (s : State) : (s.fresh).channels = s.channels := rfl
@[simp] theorem State.fresh_pipeItems (s : State) : (s.fresh).pipeItems = s.pipeItems := rfl
@[simp] theorem State.fresh_pipeCredits (s : State) : (s.fresh).pipeCredits = s.pipeCredits := rfl
@[simp] theorem State.fresh_jobs (s : State) : (s.fresh).jobs = s.jobs := rfl
@[simp] theorem State.fresh_late (s : State) : (s.fresh).late = s.late := rfl
@[simp] theorem State.fresh_mxCmds (s : State) : (s.fresh).mxCmds = s.mxCmds := rfl
@[simp] theorem State.fresh_opCache (s : State) : (s.fresh).opCache = s.opCache := rfl
@[simp] theorem State.fresh_samples (s : State) : (s.fresh).samples = s.samples := rfl
@[simp] theorem State.fresh_auditAdds (s : State) : (s.fresh).auditAdds = s.auditAdds := rfl
@[simp] theorem State.fresh_auditSeqs (s : State) : (s.fresh).auditSeqs = s.auditSeqs := rfl
@[simp] theorem State.fresh_icinvs (s : State) : (s.fresh).icinvs = s.icinvs := rfl
@[simp] theorem State.fresh_entries (s : State) : (s.fresh).entries = s.entries := rfl
@[simp] theorem State.fresh_inq (s : State) : (s.fresh).inq = s.inq := rfl
@[simp] theorem State.fresh_inqRets (s : State) : (s.fresh).inqRets = s.inqRets := rfl
@[simp] theorem State.fresh_profiles (s : State) : (s.fresh).profiles = s.profiles := rfl
@[simp] theorem State.fresh_wsFull (s : State) : (s.fresh).wsFull = s.wsFull := rfl
@[simp] theorem State.fresh_wsCount (s : State) : (s.fresh).wsCount = s.wsCount := rfl
@[simp] theorem State.fresh_mcasts (s : State) : (s.fresh).mcasts = s.mcasts := rfl
@[simp] theorem State.fresh_rxq (s : State) : (s.fresh).rxq = s.rxq := rfl
@[simp] theorem State.fresh_occ (s : State) : (s.fresh).occ = s.occ := rfl
@[simp] theorem State.fresh_icache (s : State) : (s.fresh).icache = s.icache := rfl
@[simp] theorem State.fresh_islices (s : State) : (s.fresh).islices = s.islices := rfl
@[simp] theorem State.fresh_link (s : State) : (s.fresh).link = s.link := rfl
@[simp] theorem State.fresh_moves (s : State) : (s.fresh).moves = s.moves := rfl
@[simp] theorem State.fresh_contains (s : State) : (s.fresh).contains = s.contains := rfl
@[simp] theorem State.fresh_saved (s : State) : (s.fresh).saved = s.saved := rfl
@[simp] theorem State.fresh_savedTiles (s : State) : (s.fresh).savedTiles = s.savedTiles := rfl
@[simp] theorem State.fresh_savedBufs (s : State) : (s.fresh).savedBufs = s.savedBufs := rfl
@[simp] theorem State.fresh_xtNet (s : State) : (s.fresh).xtNet = s.xtNet := rfl
@[simp] theorem State.fresh_deadlocks (s : State) : (s.fresh).deadlocks = s.deadlocks := rfl
@[simp] theorem State.fresh_flashRoutes (s : State) : (s.fresh).flashRoutes = s.flashRoutes := rfl
@[simp] theorem State.fresh_flashPackage (s : State) : (s.fresh).flashPackage = s.flashPackage := rfl
@[simp] theorem State.fresh_flashImage (s : State) : (s.fresh).flashImage = s.flashImage := rfl
@[simp] theorem State.fresh_flashEntry (s : State) : (s.fresh).flashEntry = s.flashEntry := rfl
@[simp] theorem State.fresh_fuseVendor (s : State) : (s.fresh).fuseVendor = s.fuseVendor := rfl

@[simp] theorem State.onCore_cur (s : State) (c : Nat) (f : Core → Core) : (s.onCore c f).cur = s.cur := rfl
@[simp] theorem State.onCore_strands (s : State) (c : Nat) (f : Core → Core) : (s.onCore c f).strands = s.strands := rfl
@[simp] theorem State.onCore_tape (s : State) (c : Nat) (f : Core → Core) : (s.onCore c f).tape = s.tape := rfl
@[simp] theorem State.onCore_pick (s : State) (c : Nat) (f : Core → Core) : (s.onCore c f).pick = s.pick := rfl
@[simp] theorem State.onCore_stalled (s : State) (c : Nat) (f : Core → Core) : (s.onCore c f).stalled = s.stalled := rfl
@[simp] theorem State.onCore_cycles (s : State) (c : Nat) (f : Core → Core) : (s.onCore c f).cycles = s.cycles := rfl
@[simp] theorem State.onCore_timeNs (s : State) (c : Nat) (f : Core → Core) : (s.onCore c f).timeNs = s.timeNs := rfl
@[simp] theorem State.onCore_nextUid (s : State) (c : Nat) (f : Core → Core) : (s.onCore c f).nextUid = s.nextUid := rfl
@[simp] theorem State.onCore_tick (s : State) (c : Nat) (f : Core → Core) : (s.onCore c f).tick = s.tick := rfl
@[simp] theorem State.onCore_hbm (s : State) (c : Nat) (f : Core → Core) : (s.onCore c f).hbm = s.hbm := rfl
@[simp] theorem State.onCore_spad (s : State) (c : Nat) (f : Core → Core) : (s.onCore c f).spad = s.spad := rfl
@[simp] theorem State.onCore_host (s : State) (c : Nat) (f : Core → Core) : (s.onCore c f).host = s.host := rfl
@[simp] theorem State.onCore_dies (s : State) (c : Nat) (f : Core → Core) : (s.onCore c f).dies = s.dies := rfl
@[simp] theorem State.onCore_clusters (s : State) (c : Nat) (f : Core → Core) : (s.onCore c f).clusters = s.clusters := rfl
@[simp] theorem State.onCore_sfu (s : State) (c : Nat) (f : Core → Core) : (s.onCore c f).sfu = s.sfu := rfl
@[simp] theorem State.onCore_recs (s : State) (c : Nat) (f : Core → Core) : (s.onCore c f).recs = s.recs := rfl
@[simp] theorem State.onCore_fwds (s : State) (c : Nat) (f : Core → Core) : (s.onCore c f).fwds = s.fwds := rfl
@[simp] theorem State.onCore_dead (s : State) (c : Nat) (f : Core → Core) : (s.onCore c f).dead = s.dead := rfl
@[simp] theorem State.onCore_launches (s : State) (c : Nat) (f : Core → Core) : (s.onCore c f).launches = s.launches := rfl
@[simp] theorem State.onCore_holds (s : State) (c : Nat) (f : Core → Core) : (s.onCore c f).holds = s.holds := rfl
@[simp] theorem State.onCore_regions (s : State) (c : Nat) (f : Core → Core) : (s.onCore c f).regions = s.regions := rfl
@[simp] theorem State.onCore_areas (s : State) (c : Nat) (f : Core → Core) : (s.onCore c f).areas = s.areas := rfl
@[simp] theorem State.onCore_shadows (s : State) (c : Nat) (f : Core → Core) : (s.onCore c f).shadows = s.shadows := rfl
@[simp] theorem State.onCore_lastW (s : State) (c : Nat) (f : Core → Core) : (s.onCore c f).lastW = s.lastW := rfl
@[simp] theorem State.onCore_hostW (s : State) (c : Nat) (f : Core → Core) : (s.onCore c f).hostW = s.hostW := rfl
@[simp] theorem State.onCore_behind (s : State) (c : Nat) (f : Core → Core) : (s.onCore c f).behind = s.behind := rfl
@[simp] theorem State.onCore_slices (s : State) (c : Nat) (f : Core → Core) : (s.onCore c f).slices = s.slices := rfl
@[simp] theorem State.onCore_updates (s : State) (c : Nat) (f : Core → Core) : (s.onCore c f).updates = s.updates := rfl
@[simp] theorem State.onCore_stores (s : State) (c : Nat) (f : Core → Core) : (s.onCore c f).stores = s.stores := rfl
@[simp] theorem State.onCore_faultMsgs (s : State) (c : Nat) (f : Core → Core) : (s.onCore c f).faultMsgs = s.faultMsgs := rfl
@[simp] theorem State.onCore_nextPos (s : State) (c : Nat) (f : Core → Core) : (s.onCore c f).nextPos = s.nextPos := rfl
@[simp] theorem State.onCore_pends (s : State) (c : Nat) (f : Core → Core) : (s.onCore c f).pends = s.pends := rfl
@[simp] theorem State.onCore_nops (s : State) (c : Nat) (f : Core → Core) : (s.onCore c f).nops = s.nops := rfl
@[simp] theorem State.onCore_fenced (s : State) (c : Nat) (f : Core → Core) : (s.onCore c f).fenced = s.fenced := rfl
@[simp] theorem State.onCore_fusedCores (s : State) (c : Nat) (f : Core → Core) : (s.onCore c f).fusedCores = s.fusedCores := rfl
@[simp] theorem State.onCore_bootEntry (s : State) (c : Nat) (f : Core → Core) : (s.onCore c f).bootEntry = s.bootEntry := rfl
@[simp] theorem State.onCore_bootImage (s : State) (c : Nat) (f : Core → Core) : (s.onCore c f).bootImage = s.bootImage := rfl
@[simp] theorem State.onCore_hostDeny (s : State) (c : Nat) (f : Core → Core) : (s.onCore c f).hostDeny = s.hostDeny := rfl
@[simp] theorem State.onCore_notes (s : State) (c : Nat) (f : Core → Core) : (s.onCore c f).notes = s.notes := rfl
@[simp] theorem State.onCore_msgs (s : State) (c : Nat) (f : Core → Core) : (s.onCore c f).msgs = s.msgs := rfl
@[simp] theorem State.onCore_logical (s : State) (c : Nat) (f : Core → Core) : (s.onCore c f).logical = s.logical := rfl
@[simp] theorem State.onCore_records (s : State) (c : Nat) (f : Core → Core) : (s.onCore c f).records = s.records := rfl
@[simp] theorem State.onCore_heldRecs (s : State) (c : Nat) (f : Core → Core) : (s.onCore c f).heldRecs = s.heldRecs := rfl
@[simp] theorem State.onCore_recCls (s : State) (c : Nat) (f : Core → Core) : (s.onCore c f).recCls = s.recCls := rfl
@[simp] theorem State.onCore_failedRecs (s : State) (c : Nat) (f : Core → Core) : (s.onCore c f).failedRecs = s.failedRecs := rfl
@[simp] theorem State.onCore_badUnits (s : State) (c : Nat) (f : Core → Core) : (s.onCore c f).badUnits = s.badUnits := rfl
@[simp] theorem State.onCore_lost (s : State) (c : Nat) (f : Core → Core) : (s.onCore c f).lost = s.lost := rfl
@[simp] theorem State.onCore_grans (s : State) (c : Nat) (f : Core → Core) : (s.onCore c f).grans = s.grans := rfl
@[simp] theorem State.onCore_frameErrs (s : State) (c : Nat) (f : Core → Core) : (s.onCore c f).frameErrs = s.frameErrs := rfl
@[simp] theorem State.onCore_retired (s : State) (c : Nat) (f : Core → Core) : (s.onCore c f).retired = s.retired := rfl
@[simp] theorem State.onCore_softErrs (s : State) (c : Nat) (f : Core → Core) : (s.onCore c f).softErrs = s.softErrs := rfl
@[simp] theorem State.onCore_badWords (s : State) (c : Nat) (f : Core → Core) : (s.onCore c f).badWords = s.badWords := rfl
@[simp] theorem State.onCore_banks (s : State) (c : Nat) (f : Core → Core) : (s.onCore c f).banks = s.banks := rfl
@[simp] theorem State.onCore_waits (s : State) (c : Nat) (f : Core → Core) : (s.onCore c f).waits = s.waits := rfl
@[simp] theorem State.onCore_syncs (s : State) (c : Nat) (f : Core → Core) : (s.onCore c f).syncs = s.syncs := rfl
@[simp] theorem State.onCore_markers (s : State) (c : Nat) (f : Core → Core) : (s.onCore c f).markers = s.markers := rfl
@[simp] theorem State.onCore_counters (s : State) (c : Nat) (f : Core → Core) : (s.onCore c f).counters = s.counters := rfl
@[simp] theorem State.onCore_queues (s : State) (c : Nat) (f : Core → Core) : (s.onCore c f).queues = s.queues := rfl
@[simp] theorem State.onCore_deqWaiters (s : State) (c : Nat) (f : Core → Core) : (s.onCore c f).deqWaiters = s.deqWaiters := rfl
@[simp] theorem State.onCore_enqs (s : State) (c : Nat) (f : Core → Core) : (s.onCore c f).enqs = s.enqs := rfl
@[simp] theorem State.onCore_acks (s : State) (c : Nat) (f : Core → Core) : (s.onCore c f).acks = s.acks := rfl
@[simp] theorem State.onCore_creditRets (s : State) (c : Nat) (f : Core → Core) : (s.onCore c f).creditRets = s.creditRets := rfl
@[simp] theorem State.onCore_pointers (s : State) (c : Nat) (f : Core → Core) : (s.onCore c f).pointers = s.pointers := rfl
@[simp] theorem State.onCore_channels (s : State) (c : Nat) (f : Core → Core) : (s.onCore c f).channels = s.channels := rfl
@[simp] theorem State.onCore_pipeItems (s : State) (c : Nat) (f : Core → Core) : (s.onCore c f).pipeItems = s.pipeItems := rfl
@[simp] theorem State.onCore_pipeCredits (s : State) (c : Nat) (f : Core → Core) : (s.onCore c f).pipeCredits = s.pipeCredits := rfl
@[simp] theorem State.onCore_jobs (s : State) (c : Nat) (f : Core → Core) : (s.onCore c f).jobs = s.jobs := rfl
@[simp] theorem State.onCore_late (s : State) (c : Nat) (f : Core → Core) : (s.onCore c f).late = s.late := rfl
@[simp] theorem State.onCore_mxCmds (s : State) (c : Nat) (f : Core → Core) : (s.onCore c f).mxCmds = s.mxCmds := rfl
@[simp] theorem State.onCore_opCache (s : State) (c : Nat) (f : Core → Core) : (s.onCore c f).opCache = s.opCache := rfl
@[simp] theorem State.onCore_samples (s : State) (c : Nat) (f : Core → Core) : (s.onCore c f).samples = s.samples := rfl
@[simp] theorem State.onCore_auditAdds (s : State) (c : Nat) (f : Core → Core) : (s.onCore c f).auditAdds = s.auditAdds := rfl
@[simp] theorem State.onCore_auditSeqs (s : State) (c : Nat) (f : Core → Core) : (s.onCore c f).auditSeqs = s.auditSeqs := rfl
@[simp] theorem State.onCore_icinvs (s : State) (c : Nat) (f : Core → Core) : (s.onCore c f).icinvs = s.icinvs := rfl
@[simp] theorem State.onCore_entries (s : State) (c : Nat) (f : Core → Core) : (s.onCore c f).entries = s.entries := rfl
@[simp] theorem State.onCore_inq (s : State) (c : Nat) (f : Core → Core) : (s.onCore c f).inq = s.inq := rfl
@[simp] theorem State.onCore_inqRets (s : State) (c : Nat) (f : Core → Core) : (s.onCore c f).inqRets = s.inqRets := rfl
@[simp] theorem State.onCore_profiles (s : State) (c : Nat) (f : Core → Core) : (s.onCore c f).profiles = s.profiles := rfl
@[simp] theorem State.onCore_wsFull (s : State) (c : Nat) (f : Core → Core) : (s.onCore c f).wsFull = s.wsFull := rfl
@[simp] theorem State.onCore_wsCount (s : State) (c : Nat) (f : Core → Core) : (s.onCore c f).wsCount = s.wsCount := rfl
@[simp] theorem State.onCore_mcasts (s : State) (c : Nat) (f : Core → Core) : (s.onCore c f).mcasts = s.mcasts := rfl
@[simp] theorem State.onCore_rxq (s : State) (c : Nat) (f : Core → Core) : (s.onCore c f).rxq = s.rxq := rfl
@[simp] theorem State.onCore_occ (s : State) (c : Nat) (f : Core → Core) : (s.onCore c f).occ = s.occ := rfl
@[simp] theorem State.onCore_icache (s : State) (c : Nat) (f : Core → Core) : (s.onCore c f).icache = s.icache := rfl
@[simp] theorem State.onCore_islices (s : State) (c : Nat) (f : Core → Core) : (s.onCore c f).islices = s.islices := rfl
@[simp] theorem State.onCore_link (s : State) (c : Nat) (f : Core → Core) : (s.onCore c f).link = s.link := rfl
@[simp] theorem State.onCore_moves (s : State) (c : Nat) (f : Core → Core) : (s.onCore c f).moves = s.moves := rfl
@[simp] theorem State.onCore_contains (s : State) (c : Nat) (f : Core → Core) : (s.onCore c f).contains = s.contains := rfl
@[simp] theorem State.onCore_saved (s : State) (c : Nat) (f : Core → Core) : (s.onCore c f).saved = s.saved := rfl
@[simp] theorem State.onCore_savedTiles (s : State) (c : Nat) (f : Core → Core) : (s.onCore c f).savedTiles = s.savedTiles := rfl
@[simp] theorem State.onCore_savedBufs (s : State) (c : Nat) (f : Core → Core) : (s.onCore c f).savedBufs = s.savedBufs := rfl
@[simp] theorem State.onCore_xtNet (s : State) (c : Nat) (f : Core → Core) : (s.onCore c f).xtNet = s.xtNet := rfl
@[simp] theorem State.onCore_deadlocks (s : State) (c : Nat) (f : Core → Core) : (s.onCore c f).deadlocks = s.deadlocks := rfl
@[simp] theorem State.onCore_flashRoutes (s : State) (c : Nat) (f : Core → Core) : (s.onCore c f).flashRoutes = s.flashRoutes := rfl
@[simp] theorem State.onCore_flashPackage (s : State) (c : Nat) (f : Core → Core) : (s.onCore c f).flashPackage = s.flashPackage := rfl
@[simp] theorem State.onCore_flashImage (s : State) (c : Nat) (f : Core → Core) : (s.onCore c f).flashImage = s.flashImage := rfl
@[simp] theorem State.onCore_flashEntry (s : State) (c : Nat) (f : Core → Core) : (s.onCore c f).flashEntry = s.flashEntry := rfl
@[simp] theorem State.onCore_fuseVendor (s : State) (c : Nat) (f : Core → Core) : (s.onCore c f).fuseVendor = s.fuseVendor := rfl

@[simp] theorem State.onDie_cur (s : State) (d : Nat) (f : Die → Die) : (s.onDie d f).cur = s.cur := by unfold State.onDie; split <;> rfl
@[simp] theorem State.onDie_strands (s : State) (d : Nat) (f : Die → Die) : (s.onDie d f).strands = s.strands := by unfold State.onDie; split <;> rfl
@[simp] theorem State.onDie_tape (s : State) (d : Nat) (f : Die → Die) : (s.onDie d f).tape = s.tape := by unfold State.onDie; split <;> rfl
@[simp] theorem State.onDie_pick (s : State) (d : Nat) (f : Die → Die) : (s.onDie d f).pick = s.pick := by unfold State.onDie; split <;> rfl
@[simp] theorem State.onDie_stalled (s : State) (d : Nat) (f : Die → Die) : (s.onDie d f).stalled = s.stalled := by unfold State.onDie; split <;> rfl
@[simp] theorem State.onDie_cycles (s : State) (d : Nat) (f : Die → Die) : (s.onDie d f).cycles = s.cycles := by unfold State.onDie; split <;> rfl
@[simp] theorem State.onDie_timeNs (s : State) (d : Nat) (f : Die → Die) : (s.onDie d f).timeNs = s.timeNs := by unfold State.onDie; split <;> rfl
@[simp] theorem State.onDie_nextUid (s : State) (d : Nat) (f : Die → Die) : (s.onDie d f).nextUid = s.nextUid := by unfold State.onDie; split <;> rfl
@[simp] theorem State.onDie_tick (s : State) (d : Nat) (f : Die → Die) : (s.onDie d f).tick = s.tick := by unfold State.onDie; split <;> rfl
@[simp] theorem State.onDie_hbm (s : State) (d : Nat) (f : Die → Die) : (s.onDie d f).hbm = s.hbm := by unfold State.onDie; split <;> rfl
@[simp] theorem State.onDie_spad (s : State) (d : Nat) (f : Die → Die) : (s.onDie d f).spad = s.spad := by unfold State.onDie; split <;> rfl
@[simp] theorem State.onDie_host (s : State) (d : Nat) (f : Die → Die) : (s.onDie d f).host = s.host := by unfold State.onDie; split <;> rfl
@[simp] theorem State.onDie_clusters (s : State) (d : Nat) (f : Die → Die) : (s.onDie d f).clusters = s.clusters := by unfold State.onDie; split <;> rfl
@[simp] theorem State.onDie_cores (s : State) (d : Nat) (f : Die → Die) : (s.onDie d f).cores = s.cores := by unfold State.onDie; split <;> rfl
@[simp] theorem State.onDie_sfu (s : State) (d : Nat) (f : Die → Die) : (s.onDie d f).sfu = s.sfu := by unfold State.onDie; split <;> rfl
@[simp] theorem State.onDie_recs (s : State) (d : Nat) (f : Die → Die) : (s.onDie d f).recs = s.recs := by unfold State.onDie; split <;> rfl
@[simp] theorem State.onDie_fwds (s : State) (d : Nat) (f : Die → Die) : (s.onDie d f).fwds = s.fwds := by unfold State.onDie; split <;> rfl
@[simp] theorem State.onDie_dead (s : State) (d : Nat) (f : Die → Die) : (s.onDie d f).dead = s.dead := by unfold State.onDie; split <;> rfl
@[simp] theorem State.onDie_launches (s : State) (d : Nat) (f : Die → Die) : (s.onDie d f).launches = s.launches := by unfold State.onDie; split <;> rfl
@[simp] theorem State.onDie_holds (s : State) (d : Nat) (f : Die → Die) : (s.onDie d f).holds = s.holds := by unfold State.onDie; split <;> rfl
@[simp] theorem State.onDie_regions (s : State) (d : Nat) (f : Die → Die) : (s.onDie d f).regions = s.regions := by unfold State.onDie; split <;> rfl
@[simp] theorem State.onDie_areas (s : State) (d : Nat) (f : Die → Die) : (s.onDie d f).areas = s.areas := by unfold State.onDie; split <;> rfl
@[simp] theorem State.onDie_shadows (s : State) (d : Nat) (f : Die → Die) : (s.onDie d f).shadows = s.shadows := by unfold State.onDie; split <;> rfl
@[simp] theorem State.onDie_lastW (s : State) (d : Nat) (f : Die → Die) : (s.onDie d f).lastW = s.lastW := by unfold State.onDie; split <;> rfl
@[simp] theorem State.onDie_hostW (s : State) (d : Nat) (f : Die → Die) : (s.onDie d f).hostW = s.hostW := by unfold State.onDie; split <;> rfl
@[simp] theorem State.onDie_behind (s : State) (d : Nat) (f : Die → Die) : (s.onDie d f).behind = s.behind := by unfold State.onDie; split <;> rfl
@[simp] theorem State.onDie_slices (s : State) (d : Nat) (f : Die → Die) : (s.onDie d f).slices = s.slices := by unfold State.onDie; split <;> rfl
@[simp] theorem State.onDie_updates (s : State) (d : Nat) (f : Die → Die) : (s.onDie d f).updates = s.updates := by unfold State.onDie; split <;> rfl
@[simp] theorem State.onDie_stores (s : State) (d : Nat) (f : Die → Die) : (s.onDie d f).stores = s.stores := by unfold State.onDie; split <;> rfl
@[simp] theorem State.onDie_faultMsgs (s : State) (d : Nat) (f : Die → Die) : (s.onDie d f).faultMsgs = s.faultMsgs := by unfold State.onDie; split <;> rfl
@[simp] theorem State.onDie_nextPos (s : State) (d : Nat) (f : Die → Die) : (s.onDie d f).nextPos = s.nextPos := by unfold State.onDie; split <;> rfl
@[simp] theorem State.onDie_pends (s : State) (d : Nat) (f : Die → Die) : (s.onDie d f).pends = s.pends := by unfold State.onDie; split <;> rfl
@[simp] theorem State.onDie_nops (s : State) (d : Nat) (f : Die → Die) : (s.onDie d f).nops = s.nops := by unfold State.onDie; split <;> rfl
@[simp] theorem State.onDie_fenced (s : State) (d : Nat) (f : Die → Die) : (s.onDie d f).fenced = s.fenced := by unfold State.onDie; split <;> rfl
@[simp] theorem State.onDie_fusedCores (s : State) (d : Nat) (f : Die → Die) : (s.onDie d f).fusedCores = s.fusedCores := by unfold State.onDie; split <;> rfl
@[simp] theorem State.onDie_bootEntry (s : State) (d : Nat) (f : Die → Die) : (s.onDie d f).bootEntry = s.bootEntry := by unfold State.onDie; split <;> rfl
@[simp] theorem State.onDie_bootImage (s : State) (d : Nat) (f : Die → Die) : (s.onDie d f).bootImage = s.bootImage := by unfold State.onDie; split <;> rfl
@[simp] theorem State.onDie_hostDeny (s : State) (d : Nat) (f : Die → Die) : (s.onDie d f).hostDeny = s.hostDeny := by unfold State.onDie; split <;> rfl
@[simp] theorem State.onDie_notes (s : State) (d : Nat) (f : Die → Die) : (s.onDie d f).notes = s.notes := by unfold State.onDie; split <;> rfl
@[simp] theorem State.onDie_msgs (s : State) (d : Nat) (f : Die → Die) : (s.onDie d f).msgs = s.msgs := by unfold State.onDie; split <;> rfl
@[simp] theorem State.onDie_logical (s : State) (d : Nat) (f : Die → Die) : (s.onDie d f).logical = s.logical := by unfold State.onDie; split <;> rfl
@[simp] theorem State.onDie_records (s : State) (d : Nat) (f : Die → Die) : (s.onDie d f).records = s.records := by unfold State.onDie; split <;> rfl
@[simp] theorem State.onDie_heldRecs (s : State) (d : Nat) (f : Die → Die) : (s.onDie d f).heldRecs = s.heldRecs := by unfold State.onDie; split <;> rfl
@[simp] theorem State.onDie_recCls (s : State) (d : Nat) (f : Die → Die) : (s.onDie d f).recCls = s.recCls := by unfold State.onDie; split <;> rfl
@[simp] theorem State.onDie_failedRecs (s : State) (d : Nat) (f : Die → Die) : (s.onDie d f).failedRecs = s.failedRecs := by unfold State.onDie; split <;> rfl
@[simp] theorem State.onDie_badUnits (s : State) (d : Nat) (f : Die → Die) : (s.onDie d f).badUnits = s.badUnits := by unfold State.onDie; split <;> rfl
@[simp] theorem State.onDie_lost (s : State) (d : Nat) (f : Die → Die) : (s.onDie d f).lost = s.lost := by unfold State.onDie; split <;> rfl
@[simp] theorem State.onDie_grans (s : State) (d : Nat) (f : Die → Die) : (s.onDie d f).grans = s.grans := by unfold State.onDie; split <;> rfl
@[simp] theorem State.onDie_frameErrs (s : State) (d : Nat) (f : Die → Die) : (s.onDie d f).frameErrs = s.frameErrs := by unfold State.onDie; split <;> rfl
@[simp] theorem State.onDie_retired (s : State) (d : Nat) (f : Die → Die) : (s.onDie d f).retired = s.retired := by unfold State.onDie; split <;> rfl
@[simp] theorem State.onDie_softErrs (s : State) (d : Nat) (f : Die → Die) : (s.onDie d f).softErrs = s.softErrs := by unfold State.onDie; split <;> rfl
@[simp] theorem State.onDie_badWords (s : State) (d : Nat) (f : Die → Die) : (s.onDie d f).badWords = s.badWords := by unfold State.onDie; split <;> rfl
@[simp] theorem State.onDie_banks (s : State) (d : Nat) (f : Die → Die) : (s.onDie d f).banks = s.banks := by unfold State.onDie; split <;> rfl
@[simp] theorem State.onDie_waits (s : State) (d : Nat) (f : Die → Die) : (s.onDie d f).waits = s.waits := by unfold State.onDie; split <;> rfl
@[simp] theorem State.onDie_syncs (s : State) (d : Nat) (f : Die → Die) : (s.onDie d f).syncs = s.syncs := by unfold State.onDie; split <;> rfl
@[simp] theorem State.onDie_markers (s : State) (d : Nat) (f : Die → Die) : (s.onDie d f).markers = s.markers := by unfold State.onDie; split <;> rfl
@[simp] theorem State.onDie_counters (s : State) (d : Nat) (f : Die → Die) : (s.onDie d f).counters = s.counters := by unfold State.onDie; split <;> rfl
@[simp] theorem State.onDie_queues (s : State) (d : Nat) (f : Die → Die) : (s.onDie d f).queues = s.queues := by unfold State.onDie; split <;> rfl
@[simp] theorem State.onDie_deqWaiters (s : State) (d : Nat) (f : Die → Die) : (s.onDie d f).deqWaiters = s.deqWaiters := by unfold State.onDie; split <;> rfl
@[simp] theorem State.onDie_enqs (s : State) (d : Nat) (f : Die → Die) : (s.onDie d f).enqs = s.enqs := by unfold State.onDie; split <;> rfl
@[simp] theorem State.onDie_acks (s : State) (d : Nat) (f : Die → Die) : (s.onDie d f).acks = s.acks := by unfold State.onDie; split <;> rfl
@[simp] theorem State.onDie_creditRets (s : State) (d : Nat) (f : Die → Die) : (s.onDie d f).creditRets = s.creditRets := by unfold State.onDie; split <;> rfl
@[simp] theorem State.onDie_pointers (s : State) (d : Nat) (f : Die → Die) : (s.onDie d f).pointers = s.pointers := by unfold State.onDie; split <;> rfl
@[simp] theorem State.onDie_channels (s : State) (d : Nat) (f : Die → Die) : (s.onDie d f).channels = s.channels := by unfold State.onDie; split <;> rfl
@[simp] theorem State.onDie_pipeItems (s : State) (d : Nat) (f : Die → Die) : (s.onDie d f).pipeItems = s.pipeItems := by unfold State.onDie; split <;> rfl
@[simp] theorem State.onDie_pipeCredits (s : State) (d : Nat) (f : Die → Die) : (s.onDie d f).pipeCredits = s.pipeCredits := by unfold State.onDie; split <;> rfl
@[simp] theorem State.onDie_jobs (s : State) (d : Nat) (f : Die → Die) : (s.onDie d f).jobs = s.jobs := by unfold State.onDie; split <;> rfl
@[simp] theorem State.onDie_late (s : State) (d : Nat) (f : Die → Die) : (s.onDie d f).late = s.late := by unfold State.onDie; split <;> rfl
@[simp] theorem State.onDie_mxCmds (s : State) (d : Nat) (f : Die → Die) : (s.onDie d f).mxCmds = s.mxCmds := by unfold State.onDie; split <;> rfl
@[simp] theorem State.onDie_opCache (s : State) (d : Nat) (f : Die → Die) : (s.onDie d f).opCache = s.opCache := by unfold State.onDie; split <;> rfl
@[simp] theorem State.onDie_samples (s : State) (d : Nat) (f : Die → Die) : (s.onDie d f).samples = s.samples := by unfold State.onDie; split <;> rfl
@[simp] theorem State.onDie_auditAdds (s : State) (d : Nat) (f : Die → Die) : (s.onDie d f).auditAdds = s.auditAdds := by unfold State.onDie; split <;> rfl
@[simp] theorem State.onDie_auditSeqs (s : State) (d : Nat) (f : Die → Die) : (s.onDie d f).auditSeqs = s.auditSeqs := by unfold State.onDie; split <;> rfl
@[simp] theorem State.onDie_icinvs (s : State) (d : Nat) (f : Die → Die) : (s.onDie d f).icinvs = s.icinvs := by unfold State.onDie; split <;> rfl
@[simp] theorem State.onDie_entries (s : State) (d : Nat) (f : Die → Die) : (s.onDie d f).entries = s.entries := by unfold State.onDie; split <;> rfl
@[simp] theorem State.onDie_inq (s : State) (d : Nat) (f : Die → Die) : (s.onDie d f).inq = s.inq := by unfold State.onDie; split <;> rfl
@[simp] theorem State.onDie_inqRets (s : State) (d : Nat) (f : Die → Die) : (s.onDie d f).inqRets = s.inqRets := by unfold State.onDie; split <;> rfl
@[simp] theorem State.onDie_profiles (s : State) (d : Nat) (f : Die → Die) : (s.onDie d f).profiles = s.profiles := by unfold State.onDie; split <;> rfl
@[simp] theorem State.onDie_wsFull (s : State) (d : Nat) (f : Die → Die) : (s.onDie d f).wsFull = s.wsFull := by unfold State.onDie; split <;> rfl
@[simp] theorem State.onDie_wsCount (s : State) (d : Nat) (f : Die → Die) : (s.onDie d f).wsCount = s.wsCount := by unfold State.onDie; split <;> rfl
@[simp] theorem State.onDie_mcasts (s : State) (d : Nat) (f : Die → Die) : (s.onDie d f).mcasts = s.mcasts := by unfold State.onDie; split <;> rfl
@[simp] theorem State.onDie_rxq (s : State) (d : Nat) (f : Die → Die) : (s.onDie d f).rxq = s.rxq := by unfold State.onDie; split <;> rfl
@[simp] theorem State.onDie_occ (s : State) (d : Nat) (f : Die → Die) : (s.onDie d f).occ = s.occ := by unfold State.onDie; split <;> rfl
@[simp] theorem State.onDie_icache (s : State) (d : Nat) (f : Die → Die) : (s.onDie d f).icache = s.icache := by unfold State.onDie; split <;> rfl
@[simp] theorem State.onDie_islices (s : State) (d : Nat) (f : Die → Die) : (s.onDie d f).islices = s.islices := by unfold State.onDie; split <;> rfl
@[simp] theorem State.onDie_link (s : State) (d : Nat) (f : Die → Die) : (s.onDie d f).link = s.link := by unfold State.onDie; split <;> rfl
@[simp] theorem State.onDie_moves (s : State) (d : Nat) (f : Die → Die) : (s.onDie d f).moves = s.moves := by unfold State.onDie; split <;> rfl
@[simp] theorem State.onDie_contains (s : State) (d : Nat) (f : Die → Die) : (s.onDie d f).contains = s.contains := by unfold State.onDie; split <;> rfl
@[simp] theorem State.onDie_saved (s : State) (d : Nat) (f : Die → Die) : (s.onDie d f).saved = s.saved := by unfold State.onDie; split <;> rfl
@[simp] theorem State.onDie_savedTiles (s : State) (d : Nat) (f : Die → Die) : (s.onDie d f).savedTiles = s.savedTiles := by unfold State.onDie; split <;> rfl
@[simp] theorem State.onDie_savedBufs (s : State) (d : Nat) (f : Die → Die) : (s.onDie d f).savedBufs = s.savedBufs := by unfold State.onDie; split <;> rfl
@[simp] theorem State.onDie_xtNet (s : State) (d : Nat) (f : Die → Die) : (s.onDie d f).xtNet = s.xtNet := by unfold State.onDie; split <;> rfl
@[simp] theorem State.onDie_deadlocks (s : State) (d : Nat) (f : Die → Die) : (s.onDie d f).deadlocks = s.deadlocks := by unfold State.onDie; split <;> rfl
@[simp] theorem State.onDie_flashRoutes (s : State) (d : Nat) (f : Die → Die) : (s.onDie d f).flashRoutes = s.flashRoutes := by unfold State.onDie; split <;> rfl
@[simp] theorem State.onDie_flashPackage (s : State) (d : Nat) (f : Die → Die) : (s.onDie d f).flashPackage = s.flashPackage := by unfold State.onDie; split <;> rfl
@[simp] theorem State.onDie_flashImage (s : State) (d : Nat) (f : Die → Die) : (s.onDie d f).flashImage = s.flashImage := by unfold State.onDie; split <;> rfl
@[simp] theorem State.onDie_flashEntry (s : State) (d : Nat) (f : Die → Die) : (s.onDie d f).flashEntry = s.flashEntry := by unfold State.onDie; split <;> rfl
@[simp] theorem State.onDie_fuseVendor (s : State) (d : Nat) (f : Die → Die) : (s.onDie d f).fuseVendor = s.fuseVendor := by unfold State.onDie; split <;> rfl

@[simp] theorem State.onCluster_cur (s : State) (c : Nat) (f : Cluster → Cluster) : (s.onCluster c f).cur = s.cur := by unfold State.onCluster; split <;> rfl
@[simp] theorem State.onCluster_strands (s : State) (c : Nat) (f : Cluster → Cluster) : (s.onCluster c f).strands = s.strands := by unfold State.onCluster; split <;> rfl
@[simp] theorem State.onCluster_tape (s : State) (c : Nat) (f : Cluster → Cluster) : (s.onCluster c f).tape = s.tape := by unfold State.onCluster; split <;> rfl
@[simp] theorem State.onCluster_pick (s : State) (c : Nat) (f : Cluster → Cluster) : (s.onCluster c f).pick = s.pick := by unfold State.onCluster; split <;> rfl
@[simp] theorem State.onCluster_stalled (s : State) (c : Nat) (f : Cluster → Cluster) : (s.onCluster c f).stalled = s.stalled := by unfold State.onCluster; split <;> rfl
@[simp] theorem State.onCluster_cycles (s : State) (c : Nat) (f : Cluster → Cluster) : (s.onCluster c f).cycles = s.cycles := by unfold State.onCluster; split <;> rfl
@[simp] theorem State.onCluster_timeNs (s : State) (c : Nat) (f : Cluster → Cluster) : (s.onCluster c f).timeNs = s.timeNs := by unfold State.onCluster; split <;> rfl
@[simp] theorem State.onCluster_nextUid (s : State) (c : Nat) (f : Cluster → Cluster) : (s.onCluster c f).nextUid = s.nextUid := by unfold State.onCluster; split <;> rfl
@[simp] theorem State.onCluster_tick (s : State) (c : Nat) (f : Cluster → Cluster) : (s.onCluster c f).tick = s.tick := by unfold State.onCluster; split <;> rfl
@[simp] theorem State.onCluster_hbm (s : State) (c : Nat) (f : Cluster → Cluster) : (s.onCluster c f).hbm = s.hbm := by unfold State.onCluster; split <;> rfl
@[simp] theorem State.onCluster_spad (s : State) (c : Nat) (f : Cluster → Cluster) : (s.onCluster c f).spad = s.spad := by unfold State.onCluster; split <;> rfl
@[simp] theorem State.onCluster_host (s : State) (c : Nat) (f : Cluster → Cluster) : (s.onCluster c f).host = s.host := by unfold State.onCluster; split <;> rfl
@[simp] theorem State.onCluster_dies (s : State) (c : Nat) (f : Cluster → Cluster) : (s.onCluster c f).dies = s.dies := by unfold State.onCluster; split <;> rfl
@[simp] theorem State.onCluster_cores (s : State) (c : Nat) (f : Cluster → Cluster) : (s.onCluster c f).cores = s.cores := by unfold State.onCluster; split <;> rfl
@[simp] theorem State.onCluster_sfu (s : State) (c : Nat) (f : Cluster → Cluster) : (s.onCluster c f).sfu = s.sfu := by unfold State.onCluster; split <;> rfl
@[simp] theorem State.onCluster_recs (s : State) (c : Nat) (f : Cluster → Cluster) : (s.onCluster c f).recs = s.recs := by unfold State.onCluster; split <;> rfl
@[simp] theorem State.onCluster_fwds (s : State) (c : Nat) (f : Cluster → Cluster) : (s.onCluster c f).fwds = s.fwds := by unfold State.onCluster; split <;> rfl
@[simp] theorem State.onCluster_dead (s : State) (c : Nat) (f : Cluster → Cluster) : (s.onCluster c f).dead = s.dead := by unfold State.onCluster; split <;> rfl
@[simp] theorem State.onCluster_launches (s : State) (c : Nat) (f : Cluster → Cluster) : (s.onCluster c f).launches = s.launches := by unfold State.onCluster; split <;> rfl
@[simp] theorem State.onCluster_holds (s : State) (c : Nat) (f : Cluster → Cluster) : (s.onCluster c f).holds = s.holds := by unfold State.onCluster; split <;> rfl
@[simp] theorem State.onCluster_regions (s : State) (c : Nat) (f : Cluster → Cluster) : (s.onCluster c f).regions = s.regions := by unfold State.onCluster; split <;> rfl
@[simp] theorem State.onCluster_areas (s : State) (c : Nat) (f : Cluster → Cluster) : (s.onCluster c f).areas = s.areas := by unfold State.onCluster; split <;> rfl
@[simp] theorem State.onCluster_shadows (s : State) (c : Nat) (f : Cluster → Cluster) : (s.onCluster c f).shadows = s.shadows := by unfold State.onCluster; split <;> rfl
@[simp] theorem State.onCluster_lastW (s : State) (c : Nat) (f : Cluster → Cluster) : (s.onCluster c f).lastW = s.lastW := by unfold State.onCluster; split <;> rfl
@[simp] theorem State.onCluster_hostW (s : State) (c : Nat) (f : Cluster → Cluster) : (s.onCluster c f).hostW = s.hostW := by unfold State.onCluster; split <;> rfl
@[simp] theorem State.onCluster_behind (s : State) (c : Nat) (f : Cluster → Cluster) : (s.onCluster c f).behind = s.behind := by unfold State.onCluster; split <;> rfl
@[simp] theorem State.onCluster_slices (s : State) (c : Nat) (f : Cluster → Cluster) : (s.onCluster c f).slices = s.slices := by unfold State.onCluster; split <;> rfl
@[simp] theorem State.onCluster_updates (s : State) (c : Nat) (f : Cluster → Cluster) : (s.onCluster c f).updates = s.updates := by unfold State.onCluster; split <;> rfl
@[simp] theorem State.onCluster_stores (s : State) (c : Nat) (f : Cluster → Cluster) : (s.onCluster c f).stores = s.stores := by unfold State.onCluster; split <;> rfl
@[simp] theorem State.onCluster_faultMsgs (s : State) (c : Nat) (f : Cluster → Cluster) : (s.onCluster c f).faultMsgs = s.faultMsgs := by unfold State.onCluster; split <;> rfl
@[simp] theorem State.onCluster_nextPos (s : State) (c : Nat) (f : Cluster → Cluster) : (s.onCluster c f).nextPos = s.nextPos := by unfold State.onCluster; split <;> rfl
@[simp] theorem State.onCluster_pends (s : State) (c : Nat) (f : Cluster → Cluster) : (s.onCluster c f).pends = s.pends := by unfold State.onCluster; split <;> rfl
@[simp] theorem State.onCluster_nops (s : State) (c : Nat) (f : Cluster → Cluster) : (s.onCluster c f).nops = s.nops := by unfold State.onCluster; split <;> rfl
@[simp] theorem State.onCluster_fenced (s : State) (c : Nat) (f : Cluster → Cluster) : (s.onCluster c f).fenced = s.fenced := by unfold State.onCluster; split <;> rfl
@[simp] theorem State.onCluster_fusedCores (s : State) (c : Nat) (f : Cluster → Cluster) : (s.onCluster c f).fusedCores = s.fusedCores := by unfold State.onCluster; split <;> rfl
@[simp] theorem State.onCluster_bootEntry (s : State) (c : Nat) (f : Cluster → Cluster) : (s.onCluster c f).bootEntry = s.bootEntry := by unfold State.onCluster; split <;> rfl
@[simp] theorem State.onCluster_bootImage (s : State) (c : Nat) (f : Cluster → Cluster) : (s.onCluster c f).bootImage = s.bootImage := by unfold State.onCluster; split <;> rfl
@[simp] theorem State.onCluster_hostDeny (s : State) (c : Nat) (f : Cluster → Cluster) : (s.onCluster c f).hostDeny = s.hostDeny := by unfold State.onCluster; split <;> rfl
@[simp] theorem State.onCluster_notes (s : State) (c : Nat) (f : Cluster → Cluster) : (s.onCluster c f).notes = s.notes := by unfold State.onCluster; split <;> rfl
@[simp] theorem State.onCluster_msgs (s : State) (c : Nat) (f : Cluster → Cluster) : (s.onCluster c f).msgs = s.msgs := by unfold State.onCluster; split <;> rfl
@[simp] theorem State.onCluster_logical (s : State) (c : Nat) (f : Cluster → Cluster) : (s.onCluster c f).logical = s.logical := by unfold State.onCluster; split <;> rfl
@[simp] theorem State.onCluster_records (s : State) (c : Nat) (f : Cluster → Cluster) : (s.onCluster c f).records = s.records := by unfold State.onCluster; split <;> rfl
@[simp] theorem State.onCluster_heldRecs (s : State) (c : Nat) (f : Cluster → Cluster) : (s.onCluster c f).heldRecs = s.heldRecs := by unfold State.onCluster; split <;> rfl
@[simp] theorem State.onCluster_recCls (s : State) (c : Nat) (f : Cluster → Cluster) : (s.onCluster c f).recCls = s.recCls := by unfold State.onCluster; split <;> rfl
@[simp] theorem State.onCluster_failedRecs (s : State) (c : Nat) (f : Cluster → Cluster) : (s.onCluster c f).failedRecs = s.failedRecs := by unfold State.onCluster; split <;> rfl
@[simp] theorem State.onCluster_badUnits (s : State) (c : Nat) (f : Cluster → Cluster) : (s.onCluster c f).badUnits = s.badUnits := by unfold State.onCluster; split <;> rfl
@[simp] theorem State.onCluster_lost (s : State) (c : Nat) (f : Cluster → Cluster) : (s.onCluster c f).lost = s.lost := by unfold State.onCluster; split <;> rfl
@[simp] theorem State.onCluster_grans (s : State) (c : Nat) (f : Cluster → Cluster) : (s.onCluster c f).grans = s.grans := by unfold State.onCluster; split <;> rfl
@[simp] theorem State.onCluster_frameErrs (s : State) (c : Nat) (f : Cluster → Cluster) : (s.onCluster c f).frameErrs = s.frameErrs := by unfold State.onCluster; split <;> rfl
@[simp] theorem State.onCluster_retired (s : State) (c : Nat) (f : Cluster → Cluster) : (s.onCluster c f).retired = s.retired := by unfold State.onCluster; split <;> rfl
@[simp] theorem State.onCluster_softErrs (s : State) (c : Nat) (f : Cluster → Cluster) : (s.onCluster c f).softErrs = s.softErrs := by unfold State.onCluster; split <;> rfl
@[simp] theorem State.onCluster_badWords (s : State) (c : Nat) (f : Cluster → Cluster) : (s.onCluster c f).badWords = s.badWords := by unfold State.onCluster; split <;> rfl
@[simp] theorem State.onCluster_banks (s : State) (c : Nat) (f : Cluster → Cluster) : (s.onCluster c f).banks = s.banks := by unfold State.onCluster; split <;> rfl
@[simp] theorem State.onCluster_waits (s : State) (c : Nat) (f : Cluster → Cluster) : (s.onCluster c f).waits = s.waits := by unfold State.onCluster; split <;> rfl
@[simp] theorem State.onCluster_syncs (s : State) (c : Nat) (f : Cluster → Cluster) : (s.onCluster c f).syncs = s.syncs := by unfold State.onCluster; split <;> rfl
@[simp] theorem State.onCluster_markers (s : State) (c : Nat) (f : Cluster → Cluster) : (s.onCluster c f).markers = s.markers := by unfold State.onCluster; split <;> rfl
@[simp] theorem State.onCluster_counters (s : State) (c : Nat) (f : Cluster → Cluster) : (s.onCluster c f).counters = s.counters := by unfold State.onCluster; split <;> rfl
@[simp] theorem State.onCluster_queues (s : State) (c : Nat) (f : Cluster → Cluster) : (s.onCluster c f).queues = s.queues := by unfold State.onCluster; split <;> rfl
@[simp] theorem State.onCluster_deqWaiters (s : State) (c : Nat) (f : Cluster → Cluster) : (s.onCluster c f).deqWaiters = s.deqWaiters := by unfold State.onCluster; split <;> rfl
@[simp] theorem State.onCluster_enqs (s : State) (c : Nat) (f : Cluster → Cluster) : (s.onCluster c f).enqs = s.enqs := by unfold State.onCluster; split <;> rfl
@[simp] theorem State.onCluster_acks (s : State) (c : Nat) (f : Cluster → Cluster) : (s.onCluster c f).acks = s.acks := by unfold State.onCluster; split <;> rfl
@[simp] theorem State.onCluster_creditRets (s : State) (c : Nat) (f : Cluster → Cluster) : (s.onCluster c f).creditRets = s.creditRets := by unfold State.onCluster; split <;> rfl
@[simp] theorem State.onCluster_pointers (s : State) (c : Nat) (f : Cluster → Cluster) : (s.onCluster c f).pointers = s.pointers := by unfold State.onCluster; split <;> rfl
@[simp] theorem State.onCluster_channels (s : State) (c : Nat) (f : Cluster → Cluster) : (s.onCluster c f).channels = s.channels := by unfold State.onCluster; split <;> rfl
@[simp] theorem State.onCluster_pipeItems (s : State) (c : Nat) (f : Cluster → Cluster) : (s.onCluster c f).pipeItems = s.pipeItems := by unfold State.onCluster; split <;> rfl
@[simp] theorem State.onCluster_pipeCredits (s : State) (c : Nat) (f : Cluster → Cluster) : (s.onCluster c f).pipeCredits = s.pipeCredits := by unfold State.onCluster; split <;> rfl
@[simp] theorem State.onCluster_jobs (s : State) (c : Nat) (f : Cluster → Cluster) : (s.onCluster c f).jobs = s.jobs := by unfold State.onCluster; split <;> rfl
@[simp] theorem State.onCluster_late (s : State) (c : Nat) (f : Cluster → Cluster) : (s.onCluster c f).late = s.late := by unfold State.onCluster; split <;> rfl
@[simp] theorem State.onCluster_mxCmds (s : State) (c : Nat) (f : Cluster → Cluster) : (s.onCluster c f).mxCmds = s.mxCmds := by unfold State.onCluster; split <;> rfl
@[simp] theorem State.onCluster_opCache (s : State) (c : Nat) (f : Cluster → Cluster) : (s.onCluster c f).opCache = s.opCache := by unfold State.onCluster; split <;> rfl
@[simp] theorem State.onCluster_samples (s : State) (c : Nat) (f : Cluster → Cluster) : (s.onCluster c f).samples = s.samples := by unfold State.onCluster; split <;> rfl
@[simp] theorem State.onCluster_auditAdds (s : State) (c : Nat) (f : Cluster → Cluster) : (s.onCluster c f).auditAdds = s.auditAdds := by unfold State.onCluster; split <;> rfl
@[simp] theorem State.onCluster_auditSeqs (s : State) (c : Nat) (f : Cluster → Cluster) : (s.onCluster c f).auditSeqs = s.auditSeqs := by unfold State.onCluster; split <;> rfl
@[simp] theorem State.onCluster_icinvs (s : State) (c : Nat) (f : Cluster → Cluster) : (s.onCluster c f).icinvs = s.icinvs := by unfold State.onCluster; split <;> rfl
@[simp] theorem State.onCluster_entries (s : State) (c : Nat) (f : Cluster → Cluster) : (s.onCluster c f).entries = s.entries := by unfold State.onCluster; split <;> rfl
@[simp] theorem State.onCluster_inq (s : State) (c : Nat) (f : Cluster → Cluster) : (s.onCluster c f).inq = s.inq := by unfold State.onCluster; split <;> rfl
@[simp] theorem State.onCluster_inqRets (s : State) (c : Nat) (f : Cluster → Cluster) : (s.onCluster c f).inqRets = s.inqRets := by unfold State.onCluster; split <;> rfl
@[simp] theorem State.onCluster_profiles (s : State) (c : Nat) (f : Cluster → Cluster) : (s.onCluster c f).profiles = s.profiles := by unfold State.onCluster; split <;> rfl
@[simp] theorem State.onCluster_wsFull (s : State) (c : Nat) (f : Cluster → Cluster) : (s.onCluster c f).wsFull = s.wsFull := by unfold State.onCluster; split <;> rfl
@[simp] theorem State.onCluster_wsCount (s : State) (c : Nat) (f : Cluster → Cluster) : (s.onCluster c f).wsCount = s.wsCount := by unfold State.onCluster; split <;> rfl
@[simp] theorem State.onCluster_mcasts (s : State) (c : Nat) (f : Cluster → Cluster) : (s.onCluster c f).mcasts = s.mcasts := by unfold State.onCluster; split <;> rfl
@[simp] theorem State.onCluster_rxq (s : State) (c : Nat) (f : Cluster → Cluster) : (s.onCluster c f).rxq = s.rxq := by unfold State.onCluster; split <;> rfl
@[simp] theorem State.onCluster_occ (s : State) (c : Nat) (f : Cluster → Cluster) : (s.onCluster c f).occ = s.occ := by unfold State.onCluster; split <;> rfl
@[simp] theorem State.onCluster_icache (s : State) (c : Nat) (f : Cluster → Cluster) : (s.onCluster c f).icache = s.icache := by unfold State.onCluster; split <;> rfl
@[simp] theorem State.onCluster_islices (s : State) (c : Nat) (f : Cluster → Cluster) : (s.onCluster c f).islices = s.islices := by unfold State.onCluster; split <;> rfl
@[simp] theorem State.onCluster_link (s : State) (c : Nat) (f : Cluster → Cluster) : (s.onCluster c f).link = s.link := by unfold State.onCluster; split <;> rfl
@[simp] theorem State.onCluster_moves (s : State) (c : Nat) (f : Cluster → Cluster) : (s.onCluster c f).moves = s.moves := by unfold State.onCluster; split <;> rfl
@[simp] theorem State.onCluster_contains (s : State) (c : Nat) (f : Cluster → Cluster) : (s.onCluster c f).contains = s.contains := by unfold State.onCluster; split <;> rfl
@[simp] theorem State.onCluster_saved (s : State) (c : Nat) (f : Cluster → Cluster) : (s.onCluster c f).saved = s.saved := by unfold State.onCluster; split <;> rfl
@[simp] theorem State.onCluster_savedTiles (s : State) (c : Nat) (f : Cluster → Cluster) : (s.onCluster c f).savedTiles = s.savedTiles := by unfold State.onCluster; split <;> rfl
@[simp] theorem State.onCluster_savedBufs (s : State) (c : Nat) (f : Cluster → Cluster) : (s.onCluster c f).savedBufs = s.savedBufs := by unfold State.onCluster; split <;> rfl
@[simp] theorem State.onCluster_xtNet (s : State) (c : Nat) (f : Cluster → Cluster) : (s.onCluster c f).xtNet = s.xtNet := by unfold State.onCluster; split <;> rfl
@[simp] theorem State.onCluster_deadlocks (s : State) (c : Nat) (f : Cluster → Cluster) : (s.onCluster c f).deadlocks = s.deadlocks := by unfold State.onCluster; split <;> rfl
@[simp] theorem State.onCluster_flashRoutes (s : State) (c : Nat) (f : Cluster → Cluster) : (s.onCluster c f).flashRoutes = s.flashRoutes := by unfold State.onCluster; split <;> rfl
@[simp] theorem State.onCluster_flashPackage (s : State) (c : Nat) (f : Cluster → Cluster) : (s.onCluster c f).flashPackage = s.flashPackage := by unfold State.onCluster; split <;> rfl
@[simp] theorem State.onCluster_flashImage (s : State) (c : Nat) (f : Cluster → Cluster) : (s.onCluster c f).flashImage = s.flashImage := by unfold State.onCluster; split <;> rfl
@[simp] theorem State.onCluster_flashEntry (s : State) (c : Nat) (f : Cluster → Cluster) : (s.onCluster c f).flashEntry = s.flashEntry := by unfold State.onCluster; split <;> rfl
@[simp] theorem State.onCluster_fuseVendor (s : State) (c : Nat) (f : Cluster → Cluster) : (s.onCluster c f).fuseVendor = s.fuseVendor := by unfold State.onCluster; split <;> rfl

/-! ### Updates of a strand -/

@[simp] theorem Strand.onReg_live (t : Strand) (n : Nat) (f : Reg → Reg) : (t.onReg n f).live = t.live := by unfold Strand.onReg; split <;> rfl
@[simp] theorem Strand.onReg_uid (t : Strand) (n : Nat) (f : Reg → Reg) : (t.onReg n f).uid = t.uid := by unfold Strand.onReg; split <;> rfl
@[simp] theorem Strand.onReg_core (t : Strand) (n : Nat) (f : Reg → Reg) : (t.onReg n f).core = t.core := by unfold Strand.onReg; split <;> rfl
@[simp] theorem Strand.onReg_slot (t : Strand) (n : Nat) (f : Reg → Reg) : (t.onReg n f).slot = t.slot := by unfold Strand.onReg; split <;> rfl
@[simp] theorem Strand.onReg_mode (t : Strand) (n : Nat) (f : Reg → Reg) : (t.onReg n f).mode = t.mode := by unfold Strand.onReg; split <;> rfl
@[simp] theorem Strand.onReg_kind (t : Strand) (n : Nat) (f : Reg → Reg) : (t.onReg n f).kind = t.kind := by unfold Strand.onReg; split <;> rfl
@[simp] theorem Strand.onReg_run (t : Strand) (n : Nat) (f : Reg → Reg) : (t.onReg n f).run = t.run := by unfold Strand.onReg; split <;> rfl
@[simp] theorem Strand.onReg_launch (t : Strand) (n : Nat) (f : Reg → Reg) : (t.onReg n f).launch = t.launch := by unfold Strand.onReg; split <;> rfl
@[simp] theorem Strand.onReg_team (t : Strand) (n : Nat) (f : Reg → Reg) : (t.onReg n f).team = t.team := by unfold Strand.onReg; split <;> rfl
@[simp] theorem Strand.onReg_pc (t : Strand) (n : Nat) (f : Reg → Reg) : (t.onReg n f).pc = t.pc := by unfold Strand.onReg; split <;> rfl
@[simp] theorem Strand.onReg_y (t : Strand) (n : Nat) (f : Reg → Reg) : (t.onReg n f).y = t.y := by unfold Strand.onReg; split <;> rfl
@[simp] theorem Strand.onReg_v (t : Strand) (n : Nat) (f : Reg → Reg) : (t.onReg n f).v = t.v := by unfold Strand.onReg; split <;> rfl
@[simp] theorem Strand.onReg_m (t : Strand) (n : Nat) (f : Reg → Reg) : (t.onReg n f).m = t.m := by unfold Strand.onReg; split <;> rfl
@[simp] theorem Strand.onReg_e (t : Strand) (n : Nat) (f : Reg → Reg) : (t.onReg n f).e = t.e := by unfold Strand.onReg; split <;> rfl
@[simp] theorem Strand.onReg_trapVector (t : Strand) (n : Nat) (f : Reg → Reg) : (t.onReg n f).trapVector = t.trapVector := by unfold Strand.onReg; split <;> rfl
@[simp] theorem Strand.onReg_trapCause (t : Strand) (n : Nat) (f : Reg → Reg) : (t.onReg n f).trapCause = t.trapCause := by unfold Strand.onReg; split <;> rfl
@[simp] theorem Strand.onReg_trapPc (t : Strand) (n : Nat) (f : Reg → Reg) : (t.onReg n f).trapPc = t.trapPc := by unfold Strand.onReg; split <;> rfl
@[simp] theorem Strand.onReg_trapInfo (t : Strand) (n : Nat) (f : Reg → Reg) : (t.onReg n f).trapInfo = t.trapInfo := by unfold Strand.onReg; split <;> rfl
@[simp] theorem Strand.onReg_status (t : Strand) (n : Nat) (f : Reg → Reg) : (t.onReg n f).status = t.status := by unfold Strand.onReg; split <;> rfl
@[simp] theorem Strand.onReg_roundMode (t : Strand) (n : Nat) (f : Reg → Reg) : (t.onReg n f).roundMode = t.roundMode := by unfold Strand.onReg; split <;> rfl
@[simp] theorem Strand.onReg_overflowPtr (t : Strand) (n : Nat) (f : Reg → Reg) : (t.onReg n f).overflowPtr = t.overflowPtr := by unfold Strand.onReg; split <;> rfl
@[simp] theorem Strand.onReg_overflowStride (t : Strand) (n : Nat) (f : Reg → Reg) : (t.onReg n f).overflowStride = t.overflowStride := by unfold Strand.onReg; split <;> rfl
@[simp] theorem Strand.onReg_spillBase (t : Strand) (n : Nat) (f : Reg → Reg) : (t.onReg n f).spillBase = t.spillBase := by unfold Strand.onReg; split <;> rfl
@[simp] theorem Strand.onReg_spillSize (t : Strand) (n : Nat) (f : Reg → Reg) : (t.onReg n f).spillSize = t.spillSize := by unfold Strand.onReg; split <;> rfl
@[simp] theorem Strand.onReg_svTrapVector (t : Strand) (n : Nat) (f : Reg → Reg) : (t.onReg n f).svTrapVector = t.svTrapVector := by unfold Strand.onReg; split <;> rfl
@[simp] theorem Strand.onReg_svTrapCause (t : Strand) (n : Nat) (f : Reg → Reg) : (t.onReg n f).svTrapCause = t.svTrapCause := by unfold Strand.onReg; split <;> rfl
@[simp] theorem Strand.onReg_svTrapPc (t : Strand) (n : Nat) (f : Reg → Reg) : (t.onReg n f).svTrapPc = t.svTrapPc := by unfold Strand.onReg; split <;> rfl
@[simp] theorem Strand.onReg_svTrapInfo (t : Strand) (n : Nat) (f : Reg → Reg) : (t.onReg n f).svTrapInfo = t.svTrapInfo := by unfold Strand.onReg; split <;> rfl
@[simp] theorem Strand.onReg_svStatus (t : Strand) (n : Nat) (f : Reg → Reg) : (t.onReg n f).svStatus = t.svStatus := by unfold Strand.onReg; split <;> rfl
@[simp] theorem Strand.onReg_svScratch0 (t : Strand) (n : Nat) (f : Reg → Reg) : (t.onReg n f).svScratch0 = t.svScratch0 := by unfold Strand.onReg; split <;> rfl
@[simp] theorem Strand.onReg_svScratch1 (t : Strand) (n : Nat) (f : Reg → Reg) : (t.onReg n f).svScratch1 = t.svScratch1 := by unfold Strand.onReg; split <;> rfl
@[simp] theorem Strand.onReg_actorClass (t : Strand) (n : Nat) (f : Reg → Reg) : (t.onReg n f).actorClass = t.actorClass := by unfold Strand.onReg; split <;> rfl
@[simp] theorem Strand.onReg_actorKey (t : Strand) (n : Nat) (f : Reg → Reg) : (t.onReg n f).actorKey = t.actorKey := by unfold Strand.onReg; split <;> rfl
@[simp] theorem Strand.onReg_actorBase (t : Strand) (n : Nat) (f : Reg → Reg) : (t.onReg n f).actorBase = t.actorBase := by unfold Strand.onReg; split <;> rfl
@[simp] theorem Strand.onReg_actorSize (t : Strand) (n : Nat) (f : Reg → Reg) : (t.onReg n f).actorSize = t.actorSize := by unfold Strand.onReg; split <;> rfl
@[simp] theorem Strand.onReg_msgSender (t : Strand) (n : Nat) (f : Reg → Reg) : (t.onReg n f).msgSender = t.msgSender := by unfold Strand.onReg; split <;> rfl
@[simp] theorem Strand.onReg_sfq (t : Strand) (n : Nat) (f : Reg → Reg) : (t.onReg n f).sfq = t.sfq := by unfold Strand.onReg; split <;> rfl
@[simp] theorem Strand.onReg_seq (t : Strand) (n : Nat) (f : Reg → Reg) : (t.onReg n f).seq = t.seq := by unfold Strand.onReg; split <;> rfl
@[simp] theorem Strand.onReg_posted (t : Strand) (n : Nat) (f : Reg → Reg) : (t.onReg n f).posted = t.posted := by unfold Strand.onReg; split <;> rfl
@[simp] theorem Strand.onReg_tickets (t : Strand) (n : Nat) (f : Reg → Reg) : (t.onReg n f).tickets = t.tickets := by unfold Strand.onReg; split <;> rfl
@[simp] theorem Strand.onReg_acks (t : Strand) (n : Nat) (f : Reg → Reg) : (t.onReg n f).acks = t.acks := by unfold Strand.onReg; split <;> rfl
@[simp] theorem Strand.onReg_cap (t : Strand) (n : Nat) (f : Reg → Reg) : (t.onReg n f).cap = t.cap := by unfold Strand.onReg; split <;> rfl
@[simp] theorem Strand.onReg_audx (t : Strand) (n : Nat) (f : Reg → Reg) : (t.onReg n f).audx = t.audx := by unfold Strand.onReg; split <;> rfl
@[simp] theorem Strand.onReg_wait (t : Strand) (n : Nat) (f : Reg → Reg) : (t.onReg n f).wait = t.wait := by unfold Strand.onReg; split <;> rfl
@[simp] theorem Strand.onReg_yielded (t : Strand) (n : Nat) (f : Reg → Reg) : (t.onReg n f).yielded = t.yielded := by unfold Strand.onReg; split <;> rfl
@[simp] theorem Strand.onReg_yieldAt (t : Strand) (n : Nat) (f : Reg → Reg) : (t.onReg n f).yieldAt = t.yieldAt := by unfold Strand.onReg; split <;> rfl
@[simp] theorem Strand.onReg_hold (t : Strand) (n : Nat) (f : Reg → Reg) : (t.onReg n f).hold = t.hold := by unfold Strand.onReg; split <;> rfl
@[simp] theorem Strand.onReg_ackPend (t : Strand) (n : Nat) (f : Reg → Reg) : (t.onReg n f).ackPend = t.ackPend := by unfold Strand.onReg; split <;> rfl
@[simp] theorem Strand.onReg_haltReq (t : Strand) (n : Nat) (f : Reg → Reg) : (t.onReg n f).haltReq = t.haltReq := by unfold Strand.onReg; split <;> rfl
@[simp] theorem Strand.onReg_stepReq (t : Strand) (n : Nat) (f : Reg → Reg) : (t.onReg n f).stepReq = t.stepReq := by unfold Strand.onReg; split <;> rfl
@[simp] theorem Strand.onReg_quietHalt (t : Strand) (n : Nat) (f : Reg → Reg) : (t.onReg n f).quietHalt = t.quietHalt := by unfold Strand.onReg; split <;> rfl
@[simp] theorem Strand.onReg_before (t : Strand) (n : Nat) (f : Reg → Reg) : (t.onReg n f).before = t.before := by unfold Strand.onReg; split <;> rfl
@[simp] theorem Strand.onReg_entry (t : Strand) (n : Nat) (f : Reg → Reg) : (t.onReg n f).entry = t.entry := by unfold Strand.onReg; split <;> rfl
@[simp] theorem Strand.onReg_msgWords (t : Strand) (n : Nat) (f : Reg → Reg) : (t.onReg n f).msgWords = t.msgWords := by unfold Strand.onReg; split <;> rfl
@[simp] theorem Strand.onReg_tIn (t : Strand) (n : Nat) (f : Reg → Reg) : (t.onReg n f).tIn = t.tIn := by unfold Strand.onReg; split <;> rfl
@[simp] theorem Strand.onReg_tStart (t : Strand) (n : Nat) (f : Reg → Reg) : (t.onReg n f).tStart = t.tStart := by unfold Strand.onReg; split <;> rfl
@[simp] theorem Strand.onReg_twin (t : Strand) (n : Nat) (f : Reg → Reg) : (t.onReg n f).twin = t.twin := by unfold Strand.onReg; split <;> rfl
@[simp] theorem Strand.onReg_twinSends (t : Strand) (n : Nat) (f : Reg → Reg) : (t.onReg n f).twinSends = t.twinSends := by unfold Strand.onReg; split <;> rfl
@[simp] theorem Strand.onReg_fetchBuf (t : Strand) (n : Nat) (f : Reg → Reg) : (t.onReg n f).fetchBuf = t.fetchBuf := by unfold Strand.onReg; split <;> rfl
@[simp] theorem Strand.onReg_heldRec (t : Strand) (n : Nat) (f : Reg → Reg) : (t.onReg n f).heldRec = t.heldRec := by unfold Strand.onReg; split <;> rfl
@[simp] theorem Strand.onReg_preTrap (t : Strand) (n : Nat) (f : Reg → Reg) : (t.onReg n f).preTrap = t.preTrap := by unfold Strand.onReg; split <;> rfl
@[simp] theorem Strand.onReg_endReport (t : Strand) (n : Nat) (f : Reg → Reg) : (t.onReg n f).endReport = t.endReport := by unfold Strand.onReg; split <;> rfl
@[simp] theorem Strand.onReg_stallSince (t : Strand) (n : Nat) (f : Reg → Reg) : (t.onReg n f).stallSince = t.stallSince := by unfold Strand.onReg; split <;> rfl
@[simp] theorem Strand.onReg_starved (t : Strand) (n : Nat) (f : Reg → Reg) : (t.onReg n f).starved = t.starved := by unfold Strand.onReg; split <;> rfl
@[simp] theorem Strand.onReg_stallIn (t : Strand) (n : Nat) (f : Reg → Reg) : (t.onReg n f).stallIn = t.stallIn := by unfold Strand.onReg; split <;> rfl
@[simp] theorem Strand.onReg_haltAt (t : Strand) (n : Nat) (f : Reg → Reg) : (t.onReg n f).haltAt = t.haltAt := by unfold Strand.onReg; split <;> rfl
@[simp] theorem Strand.onReg_ending (t : Strand) (n : Nat) (f : Reg → Reg) : (t.onReg n f).ending = t.ending := by unfold Strand.onReg; split <;> rfl
@[simp] theorem Strand.onReg_need (t : Strand) (n : Nat) (f : Reg → Reg) : (t.onReg n f).need = t.need := by unfold Strand.onReg; split <;> rfl
@[simp] theorem Strand.onReg_relClock (t : Strand) (n : Nat) (f : Reg → Reg) : (t.onReg n f).relClock = t.relClock := by unfold Strand.onReg; split <;> rfl
@[simp] theorem Strand.onReg_lastAt (t : Strand) (n : Nat) (f : Reg → Reg) : (t.onReg n f).lastAt = t.lastAt := by unfold Strand.onReg; split <;> rfl
@[simp] theorem Strand.onReg_stopped (t : Strand) (n : Nat) (f : Reg → Reg) : (t.onReg n f).stopped = t.stopped := by unfold Strand.onReg; split <;> rfl

@[simp] theorem Strand.onV_live (t : Strand) (n : Nat) (f : VReg → VReg) : (t.onV n f).live = t.live := by unfold Strand.onV; split <;> rfl
@[simp] theorem Strand.onV_uid (t : Strand) (n : Nat) (f : VReg → VReg) : (t.onV n f).uid = t.uid := by unfold Strand.onV; split <;> rfl
@[simp] theorem Strand.onV_core (t : Strand) (n : Nat) (f : VReg → VReg) : (t.onV n f).core = t.core := by unfold Strand.onV; split <;> rfl
@[simp] theorem Strand.onV_slot (t : Strand) (n : Nat) (f : VReg → VReg) : (t.onV n f).slot = t.slot := by unfold Strand.onV; split <;> rfl
@[simp] theorem Strand.onV_mode (t : Strand) (n : Nat) (f : VReg → VReg) : (t.onV n f).mode = t.mode := by unfold Strand.onV; split <;> rfl
@[simp] theorem Strand.onV_kind (t : Strand) (n : Nat) (f : VReg → VReg) : (t.onV n f).kind = t.kind := by unfold Strand.onV; split <;> rfl
@[simp] theorem Strand.onV_run (t : Strand) (n : Nat) (f : VReg → VReg) : (t.onV n f).run = t.run := by unfold Strand.onV; split <;> rfl
@[simp] theorem Strand.onV_launch (t : Strand) (n : Nat) (f : VReg → VReg) : (t.onV n f).launch = t.launch := by unfold Strand.onV; split <;> rfl
@[simp] theorem Strand.onV_team (t : Strand) (n : Nat) (f : VReg → VReg) : (t.onV n f).team = t.team := by unfold Strand.onV; split <;> rfl
@[simp] theorem Strand.onV_pc (t : Strand) (n : Nat) (f : VReg → VReg) : (t.onV n f).pc = t.pc := by unfold Strand.onV; split <;> rfl
@[simp] theorem Strand.onV_gk (t : Strand) (n : Nat) (f : VReg → VReg) : (t.onV n f).gk = t.gk := by unfold Strand.onV; split <;> rfl
@[simp] theorem Strand.onV_y (t : Strand) (n : Nat) (f : VReg → VReg) : (t.onV n f).y = t.y := by unfold Strand.onV; split <;> rfl
@[simp] theorem Strand.onV_m (t : Strand) (n : Nat) (f : VReg → VReg) : (t.onV n f).m = t.m := by unfold Strand.onV; split <;> rfl
@[simp] theorem Strand.onV_e (t : Strand) (n : Nat) (f : VReg → VReg) : (t.onV n f).e = t.e := by unfold Strand.onV; split <;> rfl
@[simp] theorem Strand.onV_trapVector (t : Strand) (n : Nat) (f : VReg → VReg) : (t.onV n f).trapVector = t.trapVector := by unfold Strand.onV; split <;> rfl
@[simp] theorem Strand.onV_trapCause (t : Strand) (n : Nat) (f : VReg → VReg) : (t.onV n f).trapCause = t.trapCause := by unfold Strand.onV; split <;> rfl
@[simp] theorem Strand.onV_trapPc (t : Strand) (n : Nat) (f : VReg → VReg) : (t.onV n f).trapPc = t.trapPc := by unfold Strand.onV; split <;> rfl
@[simp] theorem Strand.onV_trapInfo (t : Strand) (n : Nat) (f : VReg → VReg) : (t.onV n f).trapInfo = t.trapInfo := by unfold Strand.onV; split <;> rfl
@[simp] theorem Strand.onV_status (t : Strand) (n : Nat) (f : VReg → VReg) : (t.onV n f).status = t.status := by unfold Strand.onV; split <;> rfl
@[simp] theorem Strand.onV_roundMode (t : Strand) (n : Nat) (f : VReg → VReg) : (t.onV n f).roundMode = t.roundMode := by unfold Strand.onV; split <;> rfl
@[simp] theorem Strand.onV_overflowPtr (t : Strand) (n : Nat) (f : VReg → VReg) : (t.onV n f).overflowPtr = t.overflowPtr := by unfold Strand.onV; split <;> rfl
@[simp] theorem Strand.onV_overflowStride (t : Strand) (n : Nat) (f : VReg → VReg) : (t.onV n f).overflowStride = t.overflowStride := by unfold Strand.onV; split <;> rfl
@[simp] theorem Strand.onV_spillBase (t : Strand) (n : Nat) (f : VReg → VReg) : (t.onV n f).spillBase = t.spillBase := by unfold Strand.onV; split <;> rfl
@[simp] theorem Strand.onV_spillSize (t : Strand) (n : Nat) (f : VReg → VReg) : (t.onV n f).spillSize = t.spillSize := by unfold Strand.onV; split <;> rfl
@[simp] theorem Strand.onV_svTrapVector (t : Strand) (n : Nat) (f : VReg → VReg) : (t.onV n f).svTrapVector = t.svTrapVector := by unfold Strand.onV; split <;> rfl
@[simp] theorem Strand.onV_svTrapCause (t : Strand) (n : Nat) (f : VReg → VReg) : (t.onV n f).svTrapCause = t.svTrapCause := by unfold Strand.onV; split <;> rfl
@[simp] theorem Strand.onV_svTrapPc (t : Strand) (n : Nat) (f : VReg → VReg) : (t.onV n f).svTrapPc = t.svTrapPc := by unfold Strand.onV; split <;> rfl
@[simp] theorem Strand.onV_svTrapInfo (t : Strand) (n : Nat) (f : VReg → VReg) : (t.onV n f).svTrapInfo = t.svTrapInfo := by unfold Strand.onV; split <;> rfl
@[simp] theorem Strand.onV_svStatus (t : Strand) (n : Nat) (f : VReg → VReg) : (t.onV n f).svStatus = t.svStatus := by unfold Strand.onV; split <;> rfl
@[simp] theorem Strand.onV_svScratch0 (t : Strand) (n : Nat) (f : VReg → VReg) : (t.onV n f).svScratch0 = t.svScratch0 := by unfold Strand.onV; split <;> rfl
@[simp] theorem Strand.onV_svScratch1 (t : Strand) (n : Nat) (f : VReg → VReg) : (t.onV n f).svScratch1 = t.svScratch1 := by unfold Strand.onV; split <;> rfl
@[simp] theorem Strand.onV_actorClass (t : Strand) (n : Nat) (f : VReg → VReg) : (t.onV n f).actorClass = t.actorClass := by unfold Strand.onV; split <;> rfl
@[simp] theorem Strand.onV_actorKey (t : Strand) (n : Nat) (f : VReg → VReg) : (t.onV n f).actorKey = t.actorKey := by unfold Strand.onV; split <;> rfl
@[simp] theorem Strand.onV_actorBase (t : Strand) (n : Nat) (f : VReg → VReg) : (t.onV n f).actorBase = t.actorBase := by unfold Strand.onV; split <;> rfl
@[simp] theorem Strand.onV_actorSize (t : Strand) (n : Nat) (f : VReg → VReg) : (t.onV n f).actorSize = t.actorSize := by unfold Strand.onV; split <;> rfl
@[simp] theorem Strand.onV_msgSender (t : Strand) (n : Nat) (f : VReg → VReg) : (t.onV n f).msgSender = t.msgSender := by unfold Strand.onV; split <;> rfl
@[simp] theorem Strand.onV_sfq (t : Strand) (n : Nat) (f : VReg → VReg) : (t.onV n f).sfq = t.sfq := by unfold Strand.onV; split <;> rfl
@[simp] theorem Strand.onV_seq (t : Strand) (n : Nat) (f : VReg → VReg) : (t.onV n f).seq = t.seq := by unfold Strand.onV; split <;> rfl
@[simp] theorem Strand.onV_posted (t : Strand) (n : Nat) (f : VReg → VReg) : (t.onV n f).posted = t.posted := by unfold Strand.onV; split <;> rfl
@[simp] theorem Strand.onV_tickets (t : Strand) (n : Nat) (f : VReg → VReg) : (t.onV n f).tickets = t.tickets := by unfold Strand.onV; split <;> rfl
@[simp] theorem Strand.onV_acks (t : Strand) (n : Nat) (f : VReg → VReg) : (t.onV n f).acks = t.acks := by unfold Strand.onV; split <;> rfl
@[simp] theorem Strand.onV_cap (t : Strand) (n : Nat) (f : VReg → VReg) : (t.onV n f).cap = t.cap := by unfold Strand.onV; split <;> rfl
@[simp] theorem Strand.onV_audx (t : Strand) (n : Nat) (f : VReg → VReg) : (t.onV n f).audx = t.audx := by unfold Strand.onV; split <;> rfl
@[simp] theorem Strand.onV_wait (t : Strand) (n : Nat) (f : VReg → VReg) : (t.onV n f).wait = t.wait := by unfold Strand.onV; split <;> rfl
@[simp] theorem Strand.onV_yielded (t : Strand) (n : Nat) (f : VReg → VReg) : (t.onV n f).yielded = t.yielded := by unfold Strand.onV; split <;> rfl
@[simp] theorem Strand.onV_yieldAt (t : Strand) (n : Nat) (f : VReg → VReg) : (t.onV n f).yieldAt = t.yieldAt := by unfold Strand.onV; split <;> rfl
@[simp] theorem Strand.onV_hold (t : Strand) (n : Nat) (f : VReg → VReg) : (t.onV n f).hold = t.hold := by unfold Strand.onV; split <;> rfl
@[simp] theorem Strand.onV_ackPend (t : Strand) (n : Nat) (f : VReg → VReg) : (t.onV n f).ackPend = t.ackPend := by unfold Strand.onV; split <;> rfl
@[simp] theorem Strand.onV_haltReq (t : Strand) (n : Nat) (f : VReg → VReg) : (t.onV n f).haltReq = t.haltReq := by unfold Strand.onV; split <;> rfl
@[simp] theorem Strand.onV_stepReq (t : Strand) (n : Nat) (f : VReg → VReg) : (t.onV n f).stepReq = t.stepReq := by unfold Strand.onV; split <;> rfl
@[simp] theorem Strand.onV_quietHalt (t : Strand) (n : Nat) (f : VReg → VReg) : (t.onV n f).quietHalt = t.quietHalt := by unfold Strand.onV; split <;> rfl
@[simp] theorem Strand.onV_before (t : Strand) (n : Nat) (f : VReg → VReg) : (t.onV n f).before = t.before := by unfold Strand.onV; split <;> rfl
@[simp] theorem Strand.onV_entry (t : Strand) (n : Nat) (f : VReg → VReg) : (t.onV n f).entry = t.entry := by unfold Strand.onV; split <;> rfl
@[simp] theorem Strand.onV_msgWords (t : Strand) (n : Nat) (f : VReg → VReg) : (t.onV n f).msgWords = t.msgWords := by unfold Strand.onV; split <;> rfl
@[simp] theorem Strand.onV_tIn (t : Strand) (n : Nat) (f : VReg → VReg) : (t.onV n f).tIn = t.tIn := by unfold Strand.onV; split <;> rfl
@[simp] theorem Strand.onV_tStart (t : Strand) (n : Nat) (f : VReg → VReg) : (t.onV n f).tStart = t.tStart := by unfold Strand.onV; split <;> rfl
@[simp] theorem Strand.onV_twin (t : Strand) (n : Nat) (f : VReg → VReg) : (t.onV n f).twin = t.twin := by unfold Strand.onV; split <;> rfl
@[simp] theorem Strand.onV_twinSends (t : Strand) (n : Nat) (f : VReg → VReg) : (t.onV n f).twinSends = t.twinSends := by unfold Strand.onV; split <;> rfl
@[simp] theorem Strand.onV_fetchBuf (t : Strand) (n : Nat) (f : VReg → VReg) : (t.onV n f).fetchBuf = t.fetchBuf := by unfold Strand.onV; split <;> rfl
@[simp] theorem Strand.onV_heldRec (t : Strand) (n : Nat) (f : VReg → VReg) : (t.onV n f).heldRec = t.heldRec := by unfold Strand.onV; split <;> rfl
@[simp] theorem Strand.onV_preTrap (t : Strand) (n : Nat) (f : VReg → VReg) : (t.onV n f).preTrap = t.preTrap := by unfold Strand.onV; split <;> rfl
@[simp] theorem Strand.onV_endReport (t : Strand) (n : Nat) (f : VReg → VReg) : (t.onV n f).endReport = t.endReport := by unfold Strand.onV; split <;> rfl
@[simp] theorem Strand.onV_stallSince (t : Strand) (n : Nat) (f : VReg → VReg) : (t.onV n f).stallSince = t.stallSince := by unfold Strand.onV; split <;> rfl
@[simp] theorem Strand.onV_starved (t : Strand) (n : Nat) (f : VReg → VReg) : (t.onV n f).starved = t.starved := by unfold Strand.onV; split <;> rfl
@[simp] theorem Strand.onV_stallIn (t : Strand) (n : Nat) (f : VReg → VReg) : (t.onV n f).stallIn = t.stallIn := by unfold Strand.onV; split <;> rfl
@[simp] theorem Strand.onV_haltAt (t : Strand) (n : Nat) (f : VReg → VReg) : (t.onV n f).haltAt = t.haltAt := by unfold Strand.onV; split <;> rfl
@[simp] theorem Strand.onV_ending (t : Strand) (n : Nat) (f : VReg → VReg) : (t.onV n f).ending = t.ending := by unfold Strand.onV; split <;> rfl
@[simp] theorem Strand.onV_need (t : Strand) (n : Nat) (f : VReg → VReg) : (t.onV n f).need = t.need := by unfold Strand.onV; split <;> rfl
@[simp] theorem Strand.onV_relClock (t : Strand) (n : Nat) (f : VReg → VReg) : (t.onV n f).relClock = t.relClock := by unfold Strand.onV; split <;> rfl
@[simp] theorem Strand.onV_lastAt (t : Strand) (n : Nat) (f : VReg → VReg) : (t.onV n f).lastAt = t.lastAt := by unfold Strand.onV; split <;> rfl
@[simp] theorem Strand.onV_stopped (t : Strand) (n : Nat) (f : VReg → VReg) : (t.onV n f).stopped = t.stopped := by unfold Strand.onV; split <;> rfl

@[simp] theorem Strand.enterY_live (t : Strand) (x : Word) : (t.enterY x).live = t.live := rfl
@[simp] theorem Strand.enterY_uid (t : Strand) (x : Word) : (t.enterY x).uid = t.uid := rfl
@[simp] theorem Strand.enterY_core (t : Strand) (x : Word) : (t.enterY x).core = t.core := rfl
@[simp] theorem Strand.enterY_slot (t : Strand) (x : Word) : (t.enterY x).slot = t.slot := rfl
@[simp] theorem Strand.enterY_mode (t : Strand) (x : Word) : (t.enterY x).mode = t.mode := rfl
@[simp] theorem Strand.enterY_kind (t : Strand) (x : Word) : (t.enterY x).kind = t.kind := rfl
@[simp] theorem Strand.enterY_run (t : Strand) (x : Word) : (t.enterY x).run = t.run := rfl
@[simp] theorem Strand.enterY_launch (t : Strand) (x : Word) : (t.enterY x).launch = t.launch := rfl
@[simp] theorem Strand.enterY_team (t : Strand) (x : Word) : (t.enterY x).team = t.team := rfl
@[simp] theorem Strand.enterY_pc (t : Strand) (x : Word) : (t.enterY x).pc = t.pc := rfl
@[simp] theorem Strand.enterY_gk (t : Strand) (x : Word) : (t.enterY x).gk = t.gk := rfl
@[simp] theorem Strand.enterY_v (t : Strand) (x : Word) : (t.enterY x).v = t.v := rfl
@[simp] theorem Strand.enterY_m (t : Strand) (x : Word) : (t.enterY x).m = t.m := rfl
@[simp] theorem Strand.enterY_e (t : Strand) (x : Word) : (t.enterY x).e = t.e := rfl
@[simp] theorem Strand.enterY_trapVector (t : Strand) (x : Word) : (t.enterY x).trapVector = t.trapVector := rfl
@[simp] theorem Strand.enterY_trapCause (t : Strand) (x : Word) : (t.enterY x).trapCause = t.trapCause := rfl
@[simp] theorem Strand.enterY_trapPc (t : Strand) (x : Word) : (t.enterY x).trapPc = t.trapPc := rfl
@[simp] theorem Strand.enterY_trapInfo (t : Strand) (x : Word) : (t.enterY x).trapInfo = t.trapInfo := rfl
@[simp] theorem Strand.enterY_status (t : Strand) (x : Word) : (t.enterY x).status = t.status := rfl
@[simp] theorem Strand.enterY_roundMode (t : Strand) (x : Word) : (t.enterY x).roundMode = t.roundMode := rfl
@[simp] theorem Strand.enterY_overflowPtr (t : Strand) (x : Word) : (t.enterY x).overflowPtr = t.overflowPtr := rfl
@[simp] theorem Strand.enterY_overflowStride (t : Strand) (x : Word) : (t.enterY x).overflowStride = t.overflowStride := rfl
@[simp] theorem Strand.enterY_spillBase (t : Strand) (x : Word) : (t.enterY x).spillBase = t.spillBase := rfl
@[simp] theorem Strand.enterY_spillSize (t : Strand) (x : Word) : (t.enterY x).spillSize = t.spillSize := rfl
@[simp] theorem Strand.enterY_svTrapVector (t : Strand) (x : Word) : (t.enterY x).svTrapVector = t.svTrapVector := rfl
@[simp] theorem Strand.enterY_svTrapCause (t : Strand) (x : Word) : (t.enterY x).svTrapCause = t.svTrapCause := rfl
@[simp] theorem Strand.enterY_svTrapPc (t : Strand) (x : Word) : (t.enterY x).svTrapPc = t.svTrapPc := rfl
@[simp] theorem Strand.enterY_svTrapInfo (t : Strand) (x : Word) : (t.enterY x).svTrapInfo = t.svTrapInfo := rfl
@[simp] theorem Strand.enterY_svStatus (t : Strand) (x : Word) : (t.enterY x).svStatus = t.svStatus := rfl
@[simp] theorem Strand.enterY_svScratch0 (t : Strand) (x : Word) : (t.enterY x).svScratch0 = t.svScratch0 := rfl
@[simp] theorem Strand.enterY_svScratch1 (t : Strand) (x : Word) : (t.enterY x).svScratch1 = t.svScratch1 := rfl
@[simp] theorem Strand.enterY_actorClass (t : Strand) (x : Word) : (t.enterY x).actorClass = t.actorClass := rfl
@[simp] theorem Strand.enterY_actorKey (t : Strand) (x : Word) : (t.enterY x).actorKey = t.actorKey := rfl
@[simp] theorem Strand.enterY_actorBase (t : Strand) (x : Word) : (t.enterY x).actorBase = t.actorBase := rfl
@[simp] theorem Strand.enterY_actorSize (t : Strand) (x : Word) : (t.enterY x).actorSize = t.actorSize := rfl
@[simp] theorem Strand.enterY_msgSender (t : Strand) (x : Word) : (t.enterY x).msgSender = t.msgSender := rfl
@[simp] theorem Strand.enterY_sfq (t : Strand) (x : Word) : (t.enterY x).sfq = t.sfq := rfl
@[simp] theorem Strand.enterY_seq (t : Strand) (x : Word) : (t.enterY x).seq = t.seq := rfl
@[simp] theorem Strand.enterY_posted (t : Strand) (x : Word) : (t.enterY x).posted = t.posted := rfl
@[simp] theorem Strand.enterY_tickets (t : Strand) (x : Word) : (t.enterY x).tickets = t.tickets := rfl
@[simp] theorem Strand.enterY_acks (t : Strand) (x : Word) : (t.enterY x).acks = t.acks := rfl
@[simp] theorem Strand.enterY_cap (t : Strand) (x : Word) : (t.enterY x).cap = t.cap := rfl
@[simp] theorem Strand.enterY_audx (t : Strand) (x : Word) : (t.enterY x).audx = t.audx := rfl
@[simp] theorem Strand.enterY_wait (t : Strand) (x : Word) : (t.enterY x).wait = t.wait := rfl
@[simp] theorem Strand.enterY_yielded (t : Strand) (x : Word) : (t.enterY x).yielded = t.yielded := rfl
@[simp] theorem Strand.enterY_yieldAt (t : Strand) (x : Word) : (t.enterY x).yieldAt = t.yieldAt := rfl
@[simp] theorem Strand.enterY_hold (t : Strand) (x : Word) : (t.enterY x).hold = t.hold := rfl
@[simp] theorem Strand.enterY_ackPend (t : Strand) (x : Word) : (t.enterY x).ackPend = t.ackPend := rfl
@[simp] theorem Strand.enterY_haltReq (t : Strand) (x : Word) : (t.enterY x).haltReq = t.haltReq := rfl
@[simp] theorem Strand.enterY_stepReq (t : Strand) (x : Word) : (t.enterY x).stepReq = t.stepReq := rfl
@[simp] theorem Strand.enterY_quietHalt (t : Strand) (x : Word) : (t.enterY x).quietHalt = t.quietHalt := rfl
@[simp] theorem Strand.enterY_before (t : Strand) (x : Word) : (t.enterY x).before = t.before := rfl
@[simp] theorem Strand.enterY_entry (t : Strand) (x : Word) : (t.enterY x).entry = t.entry := rfl
@[simp] theorem Strand.enterY_msgWords (t : Strand) (x : Word) : (t.enterY x).msgWords = t.msgWords := rfl
@[simp] theorem Strand.enterY_tIn (t : Strand) (x : Word) : (t.enterY x).tIn = t.tIn := rfl
@[simp] theorem Strand.enterY_tStart (t : Strand) (x : Word) : (t.enterY x).tStart = t.tStart := rfl
@[simp] theorem Strand.enterY_twin (t : Strand) (x : Word) : (t.enterY x).twin = t.twin := rfl
@[simp] theorem Strand.enterY_twinSends (t : Strand) (x : Word) : (t.enterY x).twinSends = t.twinSends := rfl
@[simp] theorem Strand.enterY_fetchBuf (t : Strand) (x : Word) : (t.enterY x).fetchBuf = t.fetchBuf := rfl
@[simp] theorem Strand.enterY_heldRec (t : Strand) (x : Word) : (t.enterY x).heldRec = t.heldRec := rfl
@[simp] theorem Strand.enterY_preTrap (t : Strand) (x : Word) : (t.enterY x).preTrap = t.preTrap := rfl
@[simp] theorem Strand.enterY_endReport (t : Strand) (x : Word) : (t.enterY x).endReport = t.endReport := rfl
@[simp] theorem Strand.enterY_stallSince (t : Strand) (x : Word) : (t.enterY x).stallSince = t.stallSince := rfl
@[simp] theorem Strand.enterY_starved (t : Strand) (x : Word) : (t.enterY x).starved = t.starved := rfl
@[simp] theorem Strand.enterY_stallIn (t : Strand) (x : Word) : (t.enterY x).stallIn = t.stallIn := rfl
@[simp] theorem Strand.enterY_haltAt (t : Strand) (x : Word) : (t.enterY x).haltAt = t.haltAt := rfl
@[simp] theorem Strand.enterY_ending (t : Strand) (x : Word) : (t.enterY x).ending = t.ending := rfl
@[simp] theorem Strand.enterY_need (t : Strand) (x : Word) : (t.enterY x).need = t.need := rfl
@[simp] theorem Strand.enterY_relClock (t : Strand) (x : Word) : (t.enterY x).relClock = t.relClock := rfl
@[simp] theorem Strand.enterY_lastAt (t : Strand) (x : Word) : (t.enterY x).lastAt = t.lastAt := rfl
@[simp] theorem Strand.enterY_stopped (t : Strand) (x : Word) : (t.enterY x).stopped = t.stopped := rfl

@[simp] theorem Strand.setM_live (t : Strand) (n : BitVec 3) (x : BitVec 128) : (t.setM n x).live = t.live := rfl
@[simp] theorem Strand.setM_uid (t : Strand) (n : BitVec 3) (x : BitVec 128) : (t.setM n x).uid = t.uid := rfl
@[simp] theorem Strand.setM_core (t : Strand) (n : BitVec 3) (x : BitVec 128) : (t.setM n x).core = t.core := rfl
@[simp] theorem Strand.setM_slot (t : Strand) (n : BitVec 3) (x : BitVec 128) : (t.setM n x).slot = t.slot := rfl
@[simp] theorem Strand.setM_mode (t : Strand) (n : BitVec 3) (x : BitVec 128) : (t.setM n x).mode = t.mode := rfl
@[simp] theorem Strand.setM_kind (t : Strand) (n : BitVec 3) (x : BitVec 128) : (t.setM n x).kind = t.kind := rfl
@[simp] theorem Strand.setM_run (t : Strand) (n : BitVec 3) (x : BitVec 128) : (t.setM n x).run = t.run := rfl
@[simp] theorem Strand.setM_launch (t : Strand) (n : BitVec 3) (x : BitVec 128) : (t.setM n x).launch = t.launch := rfl
@[simp] theorem Strand.setM_team (t : Strand) (n : BitVec 3) (x : BitVec 128) : (t.setM n x).team = t.team := rfl
@[simp] theorem Strand.setM_pc (t : Strand) (n : BitVec 3) (x : BitVec 128) : (t.setM n x).pc = t.pc := rfl
@[simp] theorem Strand.setM_gk (t : Strand) (n : BitVec 3) (x : BitVec 128) : (t.setM n x).gk = t.gk := rfl
@[simp] theorem Strand.setM_y (t : Strand) (n : BitVec 3) (x : BitVec 128) : (t.setM n x).y = t.y := rfl
@[simp] theorem Strand.setM_v (t : Strand) (n : BitVec 3) (x : BitVec 128) : (t.setM n x).v = t.v := rfl
@[simp] theorem Strand.setM_e (t : Strand) (n : BitVec 3) (x : BitVec 128) : (t.setM n x).e = t.e := rfl
@[simp] theorem Strand.setM_trapVector (t : Strand) (n : BitVec 3) (x : BitVec 128) : (t.setM n x).trapVector = t.trapVector := rfl
@[simp] theorem Strand.setM_trapCause (t : Strand) (n : BitVec 3) (x : BitVec 128) : (t.setM n x).trapCause = t.trapCause := rfl
@[simp] theorem Strand.setM_trapPc (t : Strand) (n : BitVec 3) (x : BitVec 128) : (t.setM n x).trapPc = t.trapPc := rfl
@[simp] theorem Strand.setM_trapInfo (t : Strand) (n : BitVec 3) (x : BitVec 128) : (t.setM n x).trapInfo = t.trapInfo := rfl
@[simp] theorem Strand.setM_status (t : Strand) (n : BitVec 3) (x : BitVec 128) : (t.setM n x).status = t.status := rfl
@[simp] theorem Strand.setM_roundMode (t : Strand) (n : BitVec 3) (x : BitVec 128) : (t.setM n x).roundMode = t.roundMode := rfl
@[simp] theorem Strand.setM_overflowPtr (t : Strand) (n : BitVec 3) (x : BitVec 128) : (t.setM n x).overflowPtr = t.overflowPtr := rfl
@[simp] theorem Strand.setM_overflowStride (t : Strand) (n : BitVec 3) (x : BitVec 128) : (t.setM n x).overflowStride = t.overflowStride := rfl
@[simp] theorem Strand.setM_spillBase (t : Strand) (n : BitVec 3) (x : BitVec 128) : (t.setM n x).spillBase = t.spillBase := rfl
@[simp] theorem Strand.setM_spillSize (t : Strand) (n : BitVec 3) (x : BitVec 128) : (t.setM n x).spillSize = t.spillSize := rfl
@[simp] theorem Strand.setM_svTrapVector (t : Strand) (n : BitVec 3) (x : BitVec 128) : (t.setM n x).svTrapVector = t.svTrapVector := rfl
@[simp] theorem Strand.setM_svTrapCause (t : Strand) (n : BitVec 3) (x : BitVec 128) : (t.setM n x).svTrapCause = t.svTrapCause := rfl
@[simp] theorem Strand.setM_svTrapPc (t : Strand) (n : BitVec 3) (x : BitVec 128) : (t.setM n x).svTrapPc = t.svTrapPc := rfl
@[simp] theorem Strand.setM_svTrapInfo (t : Strand) (n : BitVec 3) (x : BitVec 128) : (t.setM n x).svTrapInfo = t.svTrapInfo := rfl
@[simp] theorem Strand.setM_svStatus (t : Strand) (n : BitVec 3) (x : BitVec 128) : (t.setM n x).svStatus = t.svStatus := rfl
@[simp] theorem Strand.setM_svScratch0 (t : Strand) (n : BitVec 3) (x : BitVec 128) : (t.setM n x).svScratch0 = t.svScratch0 := rfl
@[simp] theorem Strand.setM_svScratch1 (t : Strand) (n : BitVec 3) (x : BitVec 128) : (t.setM n x).svScratch1 = t.svScratch1 := rfl
@[simp] theorem Strand.setM_actorClass (t : Strand) (n : BitVec 3) (x : BitVec 128) : (t.setM n x).actorClass = t.actorClass := rfl
@[simp] theorem Strand.setM_actorKey (t : Strand) (n : BitVec 3) (x : BitVec 128) : (t.setM n x).actorKey = t.actorKey := rfl
@[simp] theorem Strand.setM_actorBase (t : Strand) (n : BitVec 3) (x : BitVec 128) : (t.setM n x).actorBase = t.actorBase := rfl
@[simp] theorem Strand.setM_actorSize (t : Strand) (n : BitVec 3) (x : BitVec 128) : (t.setM n x).actorSize = t.actorSize := rfl
@[simp] theorem Strand.setM_msgSender (t : Strand) (n : BitVec 3) (x : BitVec 128) : (t.setM n x).msgSender = t.msgSender := rfl
@[simp] theorem Strand.setM_sfq (t : Strand) (n : BitVec 3) (x : BitVec 128) : (t.setM n x).sfq = t.sfq := rfl
@[simp] theorem Strand.setM_seq (t : Strand) (n : BitVec 3) (x : BitVec 128) : (t.setM n x).seq = t.seq := rfl
@[simp] theorem Strand.setM_posted (t : Strand) (n : BitVec 3) (x : BitVec 128) : (t.setM n x).posted = t.posted := rfl
@[simp] theorem Strand.setM_tickets (t : Strand) (n : BitVec 3) (x : BitVec 128) : (t.setM n x).tickets = t.tickets := rfl
@[simp] theorem Strand.setM_acks (t : Strand) (n : BitVec 3) (x : BitVec 128) : (t.setM n x).acks = t.acks := rfl
@[simp] theorem Strand.setM_cap (t : Strand) (n : BitVec 3) (x : BitVec 128) : (t.setM n x).cap = t.cap := rfl
@[simp] theorem Strand.setM_audx (t : Strand) (n : BitVec 3) (x : BitVec 128) : (t.setM n x).audx = t.audx := rfl
@[simp] theorem Strand.setM_wait (t : Strand) (n : BitVec 3) (x : BitVec 128) : (t.setM n x).wait = t.wait := rfl
@[simp] theorem Strand.setM_yielded (t : Strand) (n : BitVec 3) (x : BitVec 128) : (t.setM n x).yielded = t.yielded := rfl
@[simp] theorem Strand.setM_yieldAt (t : Strand) (n : BitVec 3) (x : BitVec 128) : (t.setM n x).yieldAt = t.yieldAt := rfl
@[simp] theorem Strand.setM_hold (t : Strand) (n : BitVec 3) (x : BitVec 128) : (t.setM n x).hold = t.hold := rfl
@[simp] theorem Strand.setM_ackPend (t : Strand) (n : BitVec 3) (x : BitVec 128) : (t.setM n x).ackPend = t.ackPend := rfl
@[simp] theorem Strand.setM_haltReq (t : Strand) (n : BitVec 3) (x : BitVec 128) : (t.setM n x).haltReq = t.haltReq := rfl
@[simp] theorem Strand.setM_stepReq (t : Strand) (n : BitVec 3) (x : BitVec 128) : (t.setM n x).stepReq = t.stepReq := rfl
@[simp] theorem Strand.setM_quietHalt (t : Strand) (n : BitVec 3) (x : BitVec 128) : (t.setM n x).quietHalt = t.quietHalt := rfl
@[simp] theorem Strand.setM_before (t : Strand) (n : BitVec 3) (x : BitVec 128) : (t.setM n x).before = t.before := rfl
@[simp] theorem Strand.setM_entry (t : Strand) (n : BitVec 3) (x : BitVec 128) : (t.setM n x).entry = t.entry := rfl
@[simp] theorem Strand.setM_msgWords (t : Strand) (n : BitVec 3) (x : BitVec 128) : (t.setM n x).msgWords = t.msgWords := rfl
@[simp] theorem Strand.setM_tIn (t : Strand) (n : BitVec 3) (x : BitVec 128) : (t.setM n x).tIn = t.tIn := rfl
@[simp] theorem Strand.setM_tStart (t : Strand) (n : BitVec 3) (x : BitVec 128) : (t.setM n x).tStart = t.tStart := rfl
@[simp] theorem Strand.setM_twin (t : Strand) (n : BitVec 3) (x : BitVec 128) : (t.setM n x).twin = t.twin := rfl
@[simp] theorem Strand.setM_twinSends (t : Strand) (n : BitVec 3) (x : BitVec 128) : (t.setM n x).twinSends = t.twinSends := rfl
@[simp] theorem Strand.setM_fetchBuf (t : Strand) (n : BitVec 3) (x : BitVec 128) : (t.setM n x).fetchBuf = t.fetchBuf := rfl
@[simp] theorem Strand.setM_heldRec (t : Strand) (n : BitVec 3) (x : BitVec 128) : (t.setM n x).heldRec = t.heldRec := rfl
@[simp] theorem Strand.setM_preTrap (t : Strand) (n : BitVec 3) (x : BitVec 128) : (t.setM n x).preTrap = t.preTrap := rfl
@[simp] theorem Strand.setM_endReport (t : Strand) (n : BitVec 3) (x : BitVec 128) : (t.setM n x).endReport = t.endReport := rfl
@[simp] theorem Strand.setM_stallSince (t : Strand) (n : BitVec 3) (x : BitVec 128) : (t.setM n x).stallSince = t.stallSince := rfl
@[simp] theorem Strand.setM_starved (t : Strand) (n : BitVec 3) (x : BitVec 128) : (t.setM n x).starved = t.starved := rfl
@[simp] theorem Strand.setM_stallIn (t : Strand) (n : BitVec 3) (x : BitVec 128) : (t.setM n x).stallIn = t.stallIn := rfl
@[simp] theorem Strand.setM_haltAt (t : Strand) (n : BitVec 3) (x : BitVec 128) : (t.setM n x).haltAt = t.haltAt := rfl
@[simp] theorem Strand.setM_ending (t : Strand) (n : BitVec 3) (x : BitVec 128) : (t.setM n x).ending = t.ending := rfl
@[simp] theorem Strand.setM_need (t : Strand) (n : BitVec 3) (x : BitVec 128) : (t.setM n x).need = t.need := rfl
@[simp] theorem Strand.setM_relClock (t : Strand) (n : BitVec 3) (x : BitVec 128) : (t.setM n x).relClock = t.relClock := rfl
@[simp] theorem Strand.setM_lastAt (t : Strand) (n : BitVec 3) (x : BitVec 128) : (t.setM n x).lastAt = t.lastAt := rfl
@[simp] theorem Strand.setM_stopped (t : Strand) (n : BitVec 3) (x : BitVec 128) : (t.setM n x).stopped = t.stopped := rfl

@[simp] theorem Strand.setE_live (t : Strand) (n : BitVec 3) (x : Word) : (t.setE n x).live = t.live := rfl
@[simp] theorem Strand.setE_uid (t : Strand) (n : BitVec 3) (x : Word) : (t.setE n x).uid = t.uid := rfl
@[simp] theorem Strand.setE_core (t : Strand) (n : BitVec 3) (x : Word) : (t.setE n x).core = t.core := rfl
@[simp] theorem Strand.setE_slot (t : Strand) (n : BitVec 3) (x : Word) : (t.setE n x).slot = t.slot := rfl
@[simp] theorem Strand.setE_mode (t : Strand) (n : BitVec 3) (x : Word) : (t.setE n x).mode = t.mode := rfl
@[simp] theorem Strand.setE_kind (t : Strand) (n : BitVec 3) (x : Word) : (t.setE n x).kind = t.kind := rfl
@[simp] theorem Strand.setE_run (t : Strand) (n : BitVec 3) (x : Word) : (t.setE n x).run = t.run := rfl
@[simp] theorem Strand.setE_launch (t : Strand) (n : BitVec 3) (x : Word) : (t.setE n x).launch = t.launch := rfl
@[simp] theorem Strand.setE_team (t : Strand) (n : BitVec 3) (x : Word) : (t.setE n x).team = t.team := rfl
@[simp] theorem Strand.setE_pc (t : Strand) (n : BitVec 3) (x : Word) : (t.setE n x).pc = t.pc := rfl
@[simp] theorem Strand.setE_gk (t : Strand) (n : BitVec 3) (x : Word) : (t.setE n x).gk = t.gk := rfl
@[simp] theorem Strand.setE_y (t : Strand) (n : BitVec 3) (x : Word) : (t.setE n x).y = t.y := rfl
@[simp] theorem Strand.setE_v (t : Strand) (n : BitVec 3) (x : Word) : (t.setE n x).v = t.v := rfl
@[simp] theorem Strand.setE_m (t : Strand) (n : BitVec 3) (x : Word) : (t.setE n x).m = t.m := rfl
@[simp] theorem Strand.setE_trapVector (t : Strand) (n : BitVec 3) (x : Word) : (t.setE n x).trapVector = t.trapVector := rfl
@[simp] theorem Strand.setE_trapCause (t : Strand) (n : BitVec 3) (x : Word) : (t.setE n x).trapCause = t.trapCause := rfl
@[simp] theorem Strand.setE_trapPc (t : Strand) (n : BitVec 3) (x : Word) : (t.setE n x).trapPc = t.trapPc := rfl
@[simp] theorem Strand.setE_trapInfo (t : Strand) (n : BitVec 3) (x : Word) : (t.setE n x).trapInfo = t.trapInfo := rfl
@[simp] theorem Strand.setE_status (t : Strand) (n : BitVec 3) (x : Word) : (t.setE n x).status = t.status := rfl
@[simp] theorem Strand.setE_roundMode (t : Strand) (n : BitVec 3) (x : Word) : (t.setE n x).roundMode = t.roundMode := rfl
@[simp] theorem Strand.setE_overflowPtr (t : Strand) (n : BitVec 3) (x : Word) : (t.setE n x).overflowPtr = t.overflowPtr := rfl
@[simp] theorem Strand.setE_overflowStride (t : Strand) (n : BitVec 3) (x : Word) : (t.setE n x).overflowStride = t.overflowStride := rfl
@[simp] theorem Strand.setE_spillBase (t : Strand) (n : BitVec 3) (x : Word) : (t.setE n x).spillBase = t.spillBase := rfl
@[simp] theorem Strand.setE_spillSize (t : Strand) (n : BitVec 3) (x : Word) : (t.setE n x).spillSize = t.spillSize := rfl
@[simp] theorem Strand.setE_svTrapVector (t : Strand) (n : BitVec 3) (x : Word) : (t.setE n x).svTrapVector = t.svTrapVector := rfl
@[simp] theorem Strand.setE_svTrapCause (t : Strand) (n : BitVec 3) (x : Word) : (t.setE n x).svTrapCause = t.svTrapCause := rfl
@[simp] theorem Strand.setE_svTrapPc (t : Strand) (n : BitVec 3) (x : Word) : (t.setE n x).svTrapPc = t.svTrapPc := rfl
@[simp] theorem Strand.setE_svTrapInfo (t : Strand) (n : BitVec 3) (x : Word) : (t.setE n x).svTrapInfo = t.svTrapInfo := rfl
@[simp] theorem Strand.setE_svStatus (t : Strand) (n : BitVec 3) (x : Word) : (t.setE n x).svStatus = t.svStatus := rfl
@[simp] theorem Strand.setE_svScratch0 (t : Strand) (n : BitVec 3) (x : Word) : (t.setE n x).svScratch0 = t.svScratch0 := rfl
@[simp] theorem Strand.setE_svScratch1 (t : Strand) (n : BitVec 3) (x : Word) : (t.setE n x).svScratch1 = t.svScratch1 := rfl
@[simp] theorem Strand.setE_actorClass (t : Strand) (n : BitVec 3) (x : Word) : (t.setE n x).actorClass = t.actorClass := rfl
@[simp] theorem Strand.setE_actorKey (t : Strand) (n : BitVec 3) (x : Word) : (t.setE n x).actorKey = t.actorKey := rfl
@[simp] theorem Strand.setE_actorBase (t : Strand) (n : BitVec 3) (x : Word) : (t.setE n x).actorBase = t.actorBase := rfl
@[simp] theorem Strand.setE_actorSize (t : Strand) (n : BitVec 3) (x : Word) : (t.setE n x).actorSize = t.actorSize := rfl
@[simp] theorem Strand.setE_msgSender (t : Strand) (n : BitVec 3) (x : Word) : (t.setE n x).msgSender = t.msgSender := rfl
@[simp] theorem Strand.setE_sfq (t : Strand) (n : BitVec 3) (x : Word) : (t.setE n x).sfq = t.sfq := rfl
@[simp] theorem Strand.setE_seq (t : Strand) (n : BitVec 3) (x : Word) : (t.setE n x).seq = t.seq := rfl
@[simp] theorem Strand.setE_posted (t : Strand) (n : BitVec 3) (x : Word) : (t.setE n x).posted = t.posted := rfl
@[simp] theorem Strand.setE_tickets (t : Strand) (n : BitVec 3) (x : Word) : (t.setE n x).tickets = t.tickets := rfl
@[simp] theorem Strand.setE_acks (t : Strand) (n : BitVec 3) (x : Word) : (t.setE n x).acks = t.acks := rfl
@[simp] theorem Strand.setE_cap (t : Strand) (n : BitVec 3) (x : Word) : (t.setE n x).cap = t.cap := rfl
@[simp] theorem Strand.setE_audx (t : Strand) (n : BitVec 3) (x : Word) : (t.setE n x).audx = t.audx := rfl
@[simp] theorem Strand.setE_wait (t : Strand) (n : BitVec 3) (x : Word) : (t.setE n x).wait = t.wait := rfl
@[simp] theorem Strand.setE_yielded (t : Strand) (n : BitVec 3) (x : Word) : (t.setE n x).yielded = t.yielded := rfl
@[simp] theorem Strand.setE_yieldAt (t : Strand) (n : BitVec 3) (x : Word) : (t.setE n x).yieldAt = t.yieldAt := rfl
@[simp] theorem Strand.setE_hold (t : Strand) (n : BitVec 3) (x : Word) : (t.setE n x).hold = t.hold := rfl
@[simp] theorem Strand.setE_ackPend (t : Strand) (n : BitVec 3) (x : Word) : (t.setE n x).ackPend = t.ackPend := rfl
@[simp] theorem Strand.setE_haltReq (t : Strand) (n : BitVec 3) (x : Word) : (t.setE n x).haltReq = t.haltReq := rfl
@[simp] theorem Strand.setE_stepReq (t : Strand) (n : BitVec 3) (x : Word) : (t.setE n x).stepReq = t.stepReq := rfl
@[simp] theorem Strand.setE_quietHalt (t : Strand) (n : BitVec 3) (x : Word) : (t.setE n x).quietHalt = t.quietHalt := rfl
@[simp] theorem Strand.setE_before (t : Strand) (n : BitVec 3) (x : Word) : (t.setE n x).before = t.before := rfl
@[simp] theorem Strand.setE_entry (t : Strand) (n : BitVec 3) (x : Word) : (t.setE n x).entry = t.entry := rfl
@[simp] theorem Strand.setE_msgWords (t : Strand) (n : BitVec 3) (x : Word) : (t.setE n x).msgWords = t.msgWords := rfl
@[simp] theorem Strand.setE_tIn (t : Strand) (n : BitVec 3) (x : Word) : (t.setE n x).tIn = t.tIn := rfl
@[simp] theorem Strand.setE_tStart (t : Strand) (n : BitVec 3) (x : Word) : (t.setE n x).tStart = t.tStart := rfl
@[simp] theorem Strand.setE_twin (t : Strand) (n : BitVec 3) (x : Word) : (t.setE n x).twin = t.twin := rfl
@[simp] theorem Strand.setE_twinSends (t : Strand) (n : BitVec 3) (x : Word) : (t.setE n x).twinSends = t.twinSends := rfl
@[simp] theorem Strand.setE_fetchBuf (t : Strand) (n : BitVec 3) (x : Word) : (t.setE n x).fetchBuf = t.fetchBuf := rfl
@[simp] theorem Strand.setE_heldRec (t : Strand) (n : BitVec 3) (x : Word) : (t.setE n x).heldRec = t.heldRec := rfl
@[simp] theorem Strand.setE_preTrap (t : Strand) (n : BitVec 3) (x : Word) : (t.setE n x).preTrap = t.preTrap := rfl
@[simp] theorem Strand.setE_endReport (t : Strand) (n : BitVec 3) (x : Word) : (t.setE n x).endReport = t.endReport := rfl
@[simp] theorem Strand.setE_stallSince (t : Strand) (n : BitVec 3) (x : Word) : (t.setE n x).stallSince = t.stallSince := rfl
@[simp] theorem Strand.setE_starved (t : Strand) (n : BitVec 3) (x : Word) : (t.setE n x).starved = t.starved := rfl
@[simp] theorem Strand.setE_stallIn (t : Strand) (n : BitVec 3) (x : Word) : (t.setE n x).stallIn = t.stallIn := rfl
@[simp] theorem Strand.setE_haltAt (t : Strand) (n : BitVec 3) (x : Word) : (t.setE n x).haltAt = t.haltAt := rfl
@[simp] theorem Strand.setE_ending (t : Strand) (n : BitVec 3) (x : Word) : (t.setE n x).ending = t.ending := rfl
@[simp] theorem Strand.setE_need (t : Strand) (n : BitVec 3) (x : Word) : (t.setE n x).need = t.need := rfl
@[simp] theorem Strand.setE_relClock (t : Strand) (n : BitVec 3) (x : Word) : (t.setE n x).relClock = t.relClock := rfl
@[simp] theorem Strand.setE_lastAt (t : Strand) (n : BitVec 3) (x : Word) : (t.setE n x).lastAt = t.lastAt := rfl
@[simp] theorem Strand.setE_stopped (t : Strand) (n : BitVec 3) (x : Word) : (t.setE n x).stopped = t.stopped := rfl

@[simp] theorem Strand.advance_pc (t : Strand) (len : Nat) : (t.advance len).pc = t.pc + BitVec.ofNat 48 len := rfl
@[simp] theorem Strand.advance_live (t : Strand) (len : Nat) : (t.advance len).live = t.live := rfl
@[simp] theorem Strand.advance_uid (t : Strand) (len : Nat) : (t.advance len).uid = t.uid := rfl
@[simp] theorem Strand.advance_core (t : Strand) (len : Nat) : (t.advance len).core = t.core := rfl
@[simp] theorem Strand.advance_slot (t : Strand) (len : Nat) : (t.advance len).slot = t.slot := rfl
@[simp] theorem Strand.advance_mode (t : Strand) (len : Nat) : (t.advance len).mode = t.mode := rfl
@[simp] theorem Strand.advance_kind (t : Strand) (len : Nat) : (t.advance len).kind = t.kind := rfl
@[simp] theorem Strand.advance_run (t : Strand) (len : Nat) : (t.advance len).run = t.run := rfl
@[simp] theorem Strand.advance_launch (t : Strand) (len : Nat) : (t.advance len).launch = t.launch := rfl
@[simp] theorem Strand.advance_team (t : Strand) (len : Nat) : (t.advance len).team = t.team := rfl
@[simp] theorem Strand.advance_gk (t : Strand) (len : Nat) : (t.advance len).gk = t.gk := rfl
@[simp] theorem Strand.advance_y (t : Strand) (len : Nat) : (t.advance len).y = t.y := rfl
@[simp] theorem Strand.advance_v (t : Strand) (len : Nat) : (t.advance len).v = t.v := rfl
@[simp] theorem Strand.advance_m (t : Strand) (len : Nat) : (t.advance len).m = t.m := rfl
@[simp] theorem Strand.advance_e (t : Strand) (len : Nat) : (t.advance len).e = t.e := rfl
@[simp] theorem Strand.advance_trapVector (t : Strand) (len : Nat) : (t.advance len).trapVector = t.trapVector := rfl
@[simp] theorem Strand.advance_trapCause (t : Strand) (len : Nat) : (t.advance len).trapCause = t.trapCause := rfl
@[simp] theorem Strand.advance_trapPc (t : Strand) (len : Nat) : (t.advance len).trapPc = t.trapPc := rfl
@[simp] theorem Strand.advance_trapInfo (t : Strand) (len : Nat) : (t.advance len).trapInfo = t.trapInfo := rfl
@[simp] theorem Strand.advance_status (t : Strand) (len : Nat) : (t.advance len).status = t.status := rfl
@[simp] theorem Strand.advance_roundMode (t : Strand) (len : Nat) : (t.advance len).roundMode = t.roundMode := rfl
@[simp] theorem Strand.advance_overflowPtr (t : Strand) (len : Nat) : (t.advance len).overflowPtr = t.overflowPtr := rfl
@[simp] theorem Strand.advance_overflowStride (t : Strand) (len : Nat) : (t.advance len).overflowStride = t.overflowStride := rfl
@[simp] theorem Strand.advance_spillBase (t : Strand) (len : Nat) : (t.advance len).spillBase = t.spillBase := rfl
@[simp] theorem Strand.advance_spillSize (t : Strand) (len : Nat) : (t.advance len).spillSize = t.spillSize := rfl
@[simp] theorem Strand.advance_svTrapVector (t : Strand) (len : Nat) : (t.advance len).svTrapVector = t.svTrapVector := rfl
@[simp] theorem Strand.advance_svTrapCause (t : Strand) (len : Nat) : (t.advance len).svTrapCause = t.svTrapCause := rfl
@[simp] theorem Strand.advance_svTrapPc (t : Strand) (len : Nat) : (t.advance len).svTrapPc = t.svTrapPc := rfl
@[simp] theorem Strand.advance_svTrapInfo (t : Strand) (len : Nat) : (t.advance len).svTrapInfo = t.svTrapInfo := rfl
@[simp] theorem Strand.advance_svStatus (t : Strand) (len : Nat) : (t.advance len).svStatus = t.svStatus := rfl
@[simp] theorem Strand.advance_svScratch0 (t : Strand) (len : Nat) : (t.advance len).svScratch0 = t.svScratch0 := rfl
@[simp] theorem Strand.advance_svScratch1 (t : Strand) (len : Nat) : (t.advance len).svScratch1 = t.svScratch1 := rfl
@[simp] theorem Strand.advance_actorClass (t : Strand) (len : Nat) : (t.advance len).actorClass = t.actorClass := rfl
@[simp] theorem Strand.advance_actorKey (t : Strand) (len : Nat) : (t.advance len).actorKey = t.actorKey := rfl
@[simp] theorem Strand.advance_actorBase (t : Strand) (len : Nat) : (t.advance len).actorBase = t.actorBase := rfl
@[simp] theorem Strand.advance_actorSize (t : Strand) (len : Nat) : (t.advance len).actorSize = t.actorSize := rfl
@[simp] theorem Strand.advance_msgSender (t : Strand) (len : Nat) : (t.advance len).msgSender = t.msgSender := rfl
@[simp] theorem Strand.advance_sfq (t : Strand) (len : Nat) : (t.advance len).sfq = t.sfq := rfl
@[simp] theorem Strand.advance_seq (t : Strand) (len : Nat) : (t.advance len).seq = t.seq := rfl
@[simp] theorem Strand.advance_posted (t : Strand) (len : Nat) : (t.advance len).posted = t.posted := rfl
@[simp] theorem Strand.advance_tickets (t : Strand) (len : Nat) : (t.advance len).tickets = t.tickets := rfl
@[simp] theorem Strand.advance_acks (t : Strand) (len : Nat) : (t.advance len).acks = t.acks := rfl
@[simp] theorem Strand.advance_cap (t : Strand) (len : Nat) : (t.advance len).cap = t.cap := rfl
@[simp] theorem Strand.advance_audx (t : Strand) (len : Nat) : (t.advance len).audx = t.audx := rfl
@[simp] theorem Strand.advance_wait (t : Strand) (len : Nat) : (t.advance len).wait = t.wait := rfl
@[simp] theorem Strand.advance_yielded (t : Strand) (len : Nat) : (t.advance len).yielded = t.yielded := rfl
@[simp] theorem Strand.advance_yieldAt (t : Strand) (len : Nat) : (t.advance len).yieldAt = t.yieldAt := rfl
@[simp] theorem Strand.advance_hold (t : Strand) (len : Nat) : (t.advance len).hold = t.hold := rfl
@[simp] theorem Strand.advance_ackPend (t : Strand) (len : Nat) : (t.advance len).ackPend = t.ackPend := rfl
@[simp] theorem Strand.advance_haltReq (t : Strand) (len : Nat) : (t.advance len).haltReq = t.haltReq := rfl
@[simp] theorem Strand.advance_stepReq (t : Strand) (len : Nat) : (t.advance len).stepReq = t.stepReq := rfl
@[simp] theorem Strand.advance_quietHalt (t : Strand) (len : Nat) : (t.advance len).quietHalt = t.quietHalt := rfl
@[simp] theorem Strand.advance_before (t : Strand) (len : Nat) : (t.advance len).before = t.before := rfl
@[simp] theorem Strand.advance_entry (t : Strand) (len : Nat) : (t.advance len).entry = t.entry := rfl
@[simp] theorem Strand.advance_msgWords (t : Strand) (len : Nat) : (t.advance len).msgWords = t.msgWords := rfl
@[simp] theorem Strand.advance_tIn (t : Strand) (len : Nat) : (t.advance len).tIn = t.tIn := rfl
@[simp] theorem Strand.advance_tStart (t : Strand) (len : Nat) : (t.advance len).tStart = t.tStart := rfl
@[simp] theorem Strand.advance_twin (t : Strand) (len : Nat) : (t.advance len).twin = t.twin := rfl
@[simp] theorem Strand.advance_twinSends (t : Strand) (len : Nat) : (t.advance len).twinSends = t.twinSends := rfl
@[simp] theorem Strand.advance_fetchBuf (t : Strand) (len : Nat) : (t.advance len).fetchBuf = t.fetchBuf := rfl
@[simp] theorem Strand.advance_heldRec (t : Strand) (len : Nat) : (t.advance len).heldRec = t.heldRec := rfl
@[simp] theorem Strand.advance_preTrap (t : Strand) (len : Nat) : (t.advance len).preTrap = t.preTrap := rfl
@[simp] theorem Strand.advance_endReport (t : Strand) (len : Nat) : (t.advance len).endReport = t.endReport := rfl
@[simp] theorem Strand.advance_stallSince (t : Strand) (len : Nat) : (t.advance len).stallSince = t.stallSince := rfl
@[simp] theorem Strand.advance_starved (t : Strand) (len : Nat) : (t.advance len).starved = t.starved := rfl
@[simp] theorem Strand.advance_stallIn (t : Strand) (len : Nat) : (t.advance len).stallIn = t.stallIn := rfl
@[simp] theorem Strand.advance_haltAt (t : Strand) (len : Nat) : (t.advance len).haltAt = t.haltAt := rfl
@[simp] theorem Strand.advance_ending (t : Strand) (len : Nat) : (t.advance len).ending = t.ending := rfl
@[simp] theorem Strand.advance_need (t : Strand) (len : Nat) : (t.advance len).need = t.need := rfl
@[simp] theorem Strand.advance_relClock (t : Strand) (len : Nat) : (t.advance len).relClock = t.relClock := rfl
@[simp] theorem Strand.advance_lastAt (t : Strand) (len : Nat) : (t.advance len).lastAt = t.lastAt := rfl
@[simp] theorem Strand.advance_stopped (t : Strand) (len : Nat) : (t.advance len).stopped = t.stopped := rfl

end Sys2Proof.Machine
end

