-- ==== Sys2Proof/Laws/Memory.lean ====
section
/-! SUPPORT. Reads after writes, and the canonical form that every memory operation keeps. -/

namespace Sys2Proof.Machine

/-! ### Reads and writes of one byte -/

@[simp] theorem Mem.get_nil (a : Nat) : Mem.get [] a = unlisted := rfl

/-- Below every address it lists, a canonical list reads as an unlisted byte. -/
theorem Mem.get_below (m : List Host.Cell) (lo a : Nat) (h : Mem.sorted lo m = true) (ha : a < lo) :
    Mem.get m a = unlisted := by
  induction m generalizing lo with
  | nil => rfl
  | cons c t _ =>
    obtain ⟨k, v⟩ := c
    simp only [Mem.sorted, Bool.and_eq_true, decide_eq_true_eq] at h
    have hk : a < k := by omega
    simp [Mem.get, Nat.ne_of_lt hk, hk]

/-- A canonical list stays canonical above a lower bound. -/
theorem Mem.sorted_mono (m : List Host.Cell) (lo hi : Nat) (h : Mem.sorted hi m = true) (hl : lo ≤ hi) :
    Mem.sorted lo m = true := by
  cases m with
  | nil => rfl
  | cons c t =>
    obtain ⟨k, v⟩ := c
    simp only [Mem.sorted, Bool.and_eq_true, decide_eq_true_eq] at h ⊢
    exact ⟨⟨by omega, h.1.2⟩, h.2⟩

/-- A write keeps a list canonical. -/
theorem Mem.sorted_set (m : List Host.Cell) (lo a : Nat) (x : Byte) (h : Mem.sorted lo m = true) (ha : lo ≤ a) :
    Mem.sorted lo (Mem.set m a x) = true := by
  induction m generalizing lo with
  | nil =>
    unfold Mem.set
    split <;> simp_all [Mem.sorted]
  | cons c t ih =>
    obtain ⟨k, v⟩ := c
    simp only [Mem.sorted, Bool.and_eq_true, decide_eq_true_eq] at h
    unfold Mem.set
    split
    · split
      · simp [Mem.sorted, h]
      · rename_i hx
        simp only [Mem.sorted, Bool.and_eq_true, decide_eq_true_eq]
        exact ⟨⟨ha, hx⟩, ⟨by omega, h.1.2⟩, h.2⟩
    · split
      · rename_i hak
        split
        · exact Mem.sorted_mono t lo (k + 1) h.2 (by omega)
        · rename_i hx
          simp only [Mem.sorted, Bool.and_eq_true, decide_eq_true_eq]
          exact ⟨⟨ha, hx⟩, by rw [hak]; exact h.2⟩
      · simp only [Mem.sorted, Bool.and_eq_true, decide_eq_true_eq]
        exact ⟨h.1, ih (k + 1) h.2 (by omega)⟩

/-- A write keeps the canonical form. -/
theorem Mem.wf_set (m : List Host.Cell) (a : Nat) (x : Byte) (h : Mem.wf m = true) : Mem.wf (Mem.set m a x) = true :=
  Mem.sorted_set m 0 a x h (Nat.zero_le a)

/-- Another byte reads as before, whatever the list. -/
theorem Mem.get_set_ne_sorted (m : List Host.Cell) (lo a b : Nat) (x : Byte) (h : Mem.sorted lo m = true) (hb : b ≠ a) :
    Mem.get (Mem.set m a x) b = Mem.get m b := by
  induction m generalizing lo with
  | nil =>
    unfold Mem.set
    split
    · rfl
    · simp [Mem.get, hb]
  | cons c t ih =>
    obtain ⟨k, v⟩ := c
    simp only [Mem.sorted, Bool.and_eq_true, decide_eq_true_eq] at h
    unfold Mem.set
    split
    · rename_i hak
      split
      · rfl
      · simp only [Mem.get, hb, if_false]
        by_cases h1 : b < a
        · have : b ≠ k := by omega
          have : b < k := by omega
          simp [*]
        · simp [h1]
    · split
      · rename_i hak
        subst hak
        have hbelow := Mem.get_below t (a + 1) b h.2
        split
        · by_cases h1 : b < a
          · simp [Mem.get, hb, h1, hbelow (by omega)]
          · simp [Mem.get, hb, h1]
        · simp [Mem.get, hb]
      · simp only [Mem.get, ih (k + 1) h.2]

/-- Another byte of a canonical memory reads as before a write. -/
theorem Mem.get_set_ne (m : List Host.Cell) (a b : Nat) (x : Byte) (h : Mem.wf m = true) (hb : b ≠ a) :
    Mem.get (Mem.set m a x) b = Mem.get m b :=
  Mem.get_set_ne_sorted m 0 a b x h hb

/-- The byte written reads as what was written. -/
theorem Mem.get_set_same_sorted (m : List Host.Cell) (lo a : Nat) (x : Byte) (h : Mem.sorted lo m = true) :
    Mem.get (Mem.set m a x) a = x := by
  induction m generalizing lo with
  | nil =>
    unfold Mem.set
    split <;> simp_all [Mem.get]
  | cons c t ih =>
    obtain ⟨k, v⟩ := c
    simp only [Mem.sorted, Bool.and_eq_true, decide_eq_true_eq] at h
    unfold Mem.set
    split
    · rename_i hak
      split
      · rename_i hx
        simp [Mem.get, Nat.ne_of_lt hak, hak, hx]
      · simp [Mem.get]
    · split
      · rename_i hak
        split
        · rename_i hx
          rw [hx]
          exact Mem.get_below t (k + 1) a h.2 (by omega)
        · simp [Mem.get]
      · rename_i h1 h2
        simp [Mem.get, h1, h2, ih (k + 1) h.2]

/-- The byte written to a canonical memory reads as what was written. -/
theorem Mem.get_set_same (m : List Host.Cell) (a : Nat) (x : Byte) (h : Mem.wf m = true) :
    Mem.get (Mem.set m a x) a = x :=
  Mem.get_set_same_sorted m 0 a x h

/-! ### Reads and writes of several bytes -/

/-- A write of any number of bytes keeps the canonical form. -/
theorem Mem.wf_write (m : List Host.Cell) (a n v : Nat) (h : Mem.wf m = true) : Mem.wf (Mem.write m a n v) = true := by
  induction n generalizing m a v with
  | zero => exact h
  | succ n ih => exact ih _ _ _ (Mem.wf_set m a _ h)

/-- A byte outside those written reads as before. -/
theorem Mem.get_write_out (m : List Host.Cell) (a n v b : Nat) (h : Mem.wf m = true) (hb : b < a ∨ a + n ≤ b) :
    Mem.get (Mem.write m a n v) b = Mem.get m b := by
  induction n generalizing m a v with
  | zero => rfl
  | succ n ih =>
    rw [Mem.write, ih _ _ _ (Mem.wf_set m a _ h) (by omega), Mem.get_set_ne m a b _ h (by omega)]

/-- Each byte written reads as its byte of the value. -/
theorem Mem.get_write_in (m : List Host.Cell) (a n v i : Nat) (h : Mem.wf m = true) (hi : i < n) :
    Mem.get (Mem.write m a n v) (a + i) = byteOf v i := by
  induction n generalizing m a v i with
  | zero => omega
  | succ n ih =>
    rw [Mem.write]
    cases i with
    | zero =>
      rw [Mem.get_write_out _ _ _ _ _ (Mem.wf_set m a _ h) (by omega)]
      simp [byteOf, Mem.get_set_same m a _ h]
    | succ j =>
      have := ih (Mem.set m a (BitVec.ofNat 8 v)) (a + 1) (v / 256) j (Mem.wf_set m a _ h) (by omega)
      rw [show a + (j + 1) = a + 1 + j by omega, this]
      simp [byteOf, Nat.div_div_eq_div_mul, Nat.pow_succ, Nat.mul_comm]

/-- A read of `n` bytes is below 256 ^ n. -/
theorem Mem.read_lt (m : List Host.Cell) (a n : Nat) : Mem.read m a n < 256 ^ n := by
  induction n generalizing a with
  | zero => simp [Mem.read]
  | succ n ih =>
    have h1 := ih (a + 1)
    have h2 := (Mem.get m a).isLt
    rw [Mem.read, Nat.pow_succ]
    omega

/-- Two memories whose bytes agree read alike. -/
theorem Mem.read_congr (m m' : List Host.Cell) (a n : Nat) (h : ∀ i, i < n → Mem.get m (a + i) = Mem.get m' (a + i)) :
    Mem.read m a n = Mem.read m' a n := by
  induction n generalizing a with
  | zero => rfl
  | succ n ih =>
    have h0 := h 0 (by omega)
    simp only [Nat.add_zero] at h0
    rw [Mem.read, Mem.read, h0, ih (a + 1) (fun i hi => by
      have := h (i + 1) (by omega)
      rwa [show a + (i + 1) = a + 1 + i by omega] at this)]

/-- A write reads back as its low bytes. -/
theorem Mem.read_write_same (m : List Host.Cell) (a n v : Nat) (h : Mem.wf m = true) :
    Mem.read (Mem.write m a n v) a n = v % 256 ^ n := by
  induction n generalizing m a v with
  | zero => simp [Mem.read, Nat.mod_one]
  | succ n ih =>
    have hw := Mem.wf_set m a (BitVec.ofNat 8 v) h
    rw [Mem.read, Mem.write, ih _ _ _ hw, Mem.get_write_out _ _ _ _ _ hw (by omega), Mem.get_set_same m a _ h]
    have e : 256 ^ (n + 1) = 256 * 256 ^ n := Nat.pow_succ'
    rw [BitVec.toNat_ofNat, e]
    exact (Nat.mod_mul ..).symm

/-- A read outside the bytes written is as before. -/
theorem Mem.read_write_out (m : List Host.Cell) (a n v b k : Nat) (h : Mem.wf m = true) (hb : b + k ≤ a ∨ a + n ≤ b) :
    Mem.read (Mem.write m a n v) b k = Mem.read m b k :=
  Mem.read_congr _ _ _ _ (fun i hi => Mem.get_write_out m a n v (b + i) h (by omega))

/-- Dropping bytes keeps a list canonical. -/
theorem Mem.sorted_filter (p : Host.Cell → Bool) (m : List Host.Cell) (lo : Nat) (h : Mem.sorted lo m = true) :
    Mem.sorted lo (m.filter p) = true := by
  induction m generalizing lo with
  | nil => rfl
  | cons c t ih =>
    obtain ⟨k, v⟩ := c
    simp only [Mem.sorted, Bool.and_eq_true, decide_eq_true_eq] at h
    rw [List.filter_cons]
    split
    · simp only [Mem.sorted, Bool.and_eq_true, decide_eq_true_eq]
      exact ⟨h.1, ih (k + 1) h.2⟩
    · exact Mem.sorted_mono _ lo (k + 1) (ih (k + 1) h.2) (by omega)

/-- Dropping bytes keeps the canonical form. -/
theorem Mem.wf_filter (p : Host.Cell → Bool) (m : List Host.Cell) (h : Mem.wf m = true) : Mem.wf (m.filter p) = true :=
  Mem.sorted_filter p m 0 h

/-- Canonical memories whose bytes agree are equal data. -/
theorem Mem.ext_sorted (m m' : List Host.Cell) (lo : Nat) (h : Mem.sorted lo m = true) (h' : Mem.sorted lo m' = true)
    (he : ∀ a, Mem.get m a = Mem.get m' a) : m = m' := by
  induction m generalizing m' lo with
  | nil =>
    cases m' with
    | nil => rfl
    | cons c t =>
      obtain ⟨k, v⟩ := c
      simp only [Mem.sorted, Bool.and_eq_true, decide_eq_true_eq] at h'
      have := he k
      simp [Mem.get] at this
      exact absurd this.symm h'.1.2
  | cons c t ih =>
    obtain ⟨k, v⟩ := c
    simp only [Mem.sorted, Bool.and_eq_true, decide_eq_true_eq] at h
    cases m' with
    | nil =>
      have := he k
      simp [Mem.get] at this
      exact absurd this h.1.2
    | cons c' t' =>
      obtain ⟨k', v'⟩ := c'
      simp only [Mem.sorted, Bool.and_eq_true, decide_eq_true_eq] at h'
      have hk : k = k' := by
        rcases Nat.lt_trichotomy k k' with hl | hl | hl
        · have := he k
          simp [Mem.get, Nat.ne_of_lt hl, hl] at this
          exact absurd this h.1.2
        · exact hl
        · have := he k'
          simp [Mem.get, Nat.ne_of_lt hl, hl] at this
          exact absurd this.symm h'.1.2
      subst hk
      have hv : v = v' := by
        have := he k
        simpa [Mem.get] using this
      subst hv
      have : t = t' := by
        apply ih t' (k + 1) h.2 h'.2
        intro a
        by_cases hak : a < k + 1
        · rw [Mem.get_below t (k + 1) a h.2 hak, Mem.get_below t' (k + 1) a h'.2 hak]
        · have := he a
          have h1 : a ≠ k := by omega
          have h2 : ¬ a < k := by omega
          simpa [Mem.get, h1, h2] using this
      rw [this]

/-- Equal memories are equal data. -/
theorem Mem.ext_wf (m m' : List Host.Cell) (h : Mem.wf m = true) (h' : Mem.wf m' = true)
    (he : ∀ a, Mem.get m a = Mem.get m' a) : m = m' :=
  Mem.ext_sorted m m' 0 h h' he

/-- The memories of the machine after reset are canonical. -/
theorem State.reset_memories :
    Mem.wf State.reset.hbm = true ∧ Mem.wf State.reset.spad = true ∧ Mem.wf State.reset.host = true := ⟨rfl, rfl, rfl⟩

/-! ### The operations of the machine that write memory -/

/-- A write of the owner's bytes keeps device memory canonical, and touches no other memory. -/
theorem State.ownerBytes_wf (s : State) (others : List Nat) (a v mask : Nat) (keys : List Nat) (h : Mem.wf s.hbm = true) :
    Mem.wf (s.ownerBytes others a v mask keys).hbm = true := by
  induction keys generalizing s a v mask with
  | nil => exact h
  | cons k ks ih => exact ih _ _ _ _ (Mem.wf_set _ _ _ h)

@[simp] theorem State.ownerBytes_spad (s : State) (others : List Nat) (a v mask : Nat) (keys : List Nat) :
    (s.ownerBytes others a v mask keys).spad = s.spad := by
  induction keys generalizing s a v mask with
  | nil => rfl
  | cons k ks ih => exact ih _ _ _ _

@[simp] theorem State.ownerBytes_host (s : State) (others : List Nat) (a v mask : Nat) (keys : List Nat) :
    (s.ownerBytes others a v mask keys).host = s.host := by
  induction keys generalizing s a v mask with
  | nil => rfl
  | cons k ks ih => exact ih _ _ _ _

/-- A write in the shadow of a die touches no memory. -/
@[simp] theorem State.shadowWrite_hbm (s : State) (d a v mask : Nat) (keys : List Nat) :
    (s.shadowWrite d a v mask keys).hbm = s.hbm := by
  induction keys generalizing s a v mask with
  | nil => rfl
  | cons k ks ih => exact ih _ _ _ _

@[simp] theorem State.shadowWrite_spad (s : State) (d a v mask : Nat) (keys : List Nat) :
    (s.shadowWrite d a v mask keys).spad = s.spad := by
  induction keys generalizing s a v mask with
  | nil => rfl
  | cons k ks ih => exact ih _ _ _ _

@[simp] theorem State.shadowWrite_host (s : State) (d a v mask : Nat) (keys : List Nat) :
    (s.shadowWrite d a v mask keys).host = s.host := by
  induction keys generalizing s a v mask with
  | nil => rfl
  | cons k ks ih => exact ih _ _ _ _

/-- What an operation that writes at most device memory does to the memories: device memory stays canonical, the others
stay. -/
structure WritesDevice (s t : State) : Prop where
  hbm : Mem.wf s.hbm = true → Mem.wf t.hbm = true
  spad : t.spad = s.spad
  host : t.host = s.host

theorem WritesDevice.refl (s : State) : WritesDevice s s := ⟨id, rfl, rfl⟩

theorem WritesDevice.trans {s t u : State} (h : WritesDevice s t) (h' : WritesDevice t u) : WritesDevice s u :=
  ⟨fun x => h'.hbm (h.hbm x), h'.spad.trans h.spad, h'.host.trans h.host⟩

/-- An operation that leaves the three memories as they are. -/
theorem WritesDevice.of_eq {s t : State} (h : t.hbm = s.hbm) (h' : t.spad = s.spad) (h'' : t.host = s.host) :
    WritesDevice s t := ⟨fun x => by rw [h]; exact x, h', h''⟩

theorem State.applyOwner_memory (s : State) (w a v mask : Nat) (keys : List Nat) (clock : List Nat) :
    WritesDevice s (s.applyOwner w a v mask keys clock) :=
  ⟨fun h => State.ownerBytes_wf _ _ a v mask keys h, State.ownerBytes_spad .., State.ownerBytes_host ..⟩

theorem State.onDie_memory (s : State) (d : Nat) (f : Die → Die) : WritesDevice s (s.onDie d f) :=
  .of_eq (State.onDie_hbm ..) (State.onDie_spad ..) (State.onDie_host ..)

theorem State.tickDie_memory (s : State) (d : Nat) : WritesDevice s (s.tickDie d) := by
  have h : WritesDevice s (s.onDie d (fun x => { x with clock := tickClock x.clock d })) := State.onDie_memory ..
  unfold State.tickDie State.tickFor
  exact h.trans (.of_eq rfl rfl rfl)

theorem State.performLocal_memory (s : State) (d a v mask : Nat) (keys : List Nat) :
    WritesDevice s (s.performLocal d a v mask keys) := by
  exact (State.tickDie_memory s d).trans (State.applyOwner_memory ..)


theorem State.performStore_memory (s : State) (d : Nat) (st : Store) (keys : List Nat) :
    WritesDevice s (s.performStore d st keys) := by
  unfold State.performStore
  split
  · exact State.performLocal_memory ..
  · have h : WritesDevice s (s.shadowWrite d st.addr st.val st.mask keys) :=
      .of_eq (State.shadowWrite_hbm ..) (State.shadowWrite_spad ..) (State.shadowWrite_host ..)
    exact (h.trans (State.tickDie_memory ..)).trans (.of_eq rfl rfl rfl)

/-- Steps that each write at most device memory do so together. -/
theorem WritesDevice.foldl {α : Type} (f : State → α → State) (h : ∀ s a, WritesDevice s (f s a)) (l : List α) (s : State) :
    WritesDevice s (l.foldl f s) := by
  induction l generalizing s with
  | nil => exact .refl s
  | cons a l ih => exact (h s a).trans (ih _)

theorem State.touch_memory (s : State) (cls a : Nat) : WritesDevice s (s.touch cls a) := by
  unfold State.touch
  dsimp only
  repeat' split
  all_goals first
    | exact .of_eq rfl rfl rfl
    | exact State.onDie_memory ..

theorem State.sendRecord_memory (s : State) (x : Store) (cause : Nat) : WritesDevice s (s.sendRecord x cause) :=
  .of_eq rfl rfl rfl

theorem State.dropBad_memory (s : State) (st : Store) (ks : List Nat) : WritesDevice s (s.dropBad st ks).1 := by
  unfold State.dropBad
  dsimp only
  split
  · exact .refl s
  · exact State.sendRecord_memory ..

theorem State.writeBack_memory (s : State) (c line : Nat) : WritesDevice s (s.writeBack c line) := by
  unfold State.writeBack
  dsimp only
  split
  · exact .refl s
  · refine WritesDevice.trans (t := { s with slices := s.slices.filter (fun x => !(x.cluster == c && x.addr / 128 == line)) })
      (.of_eq rfl rfl rfl) (WritesDevice.trans (State.touch_memory _ (s.ownerClass (128 * line)) (128 * line)) ?_)
    split
    · exact State.sendRecord_memory ..
    · exact ((State.dropBad_memory ..).trans (State.performStore_memory ..)).trans (.of_eq rfl rfl rfl)

theorem State.flushLines_memory (s : State) (d a n : Nat) : WritesDevice s (s.flushLines d a n) := by
  unfold State.flushLines
  split
  · exact .refl s
  · exact .foldl _ (fun s c => .foldl _ (fun s line => State.writeBack_memory s c line) _ s) _ s

theorem State.ownerWrite_memory (s : State) (a v : Nat) (keys : List Nat) : WritesDevice s (s.ownerWrite a v keys) :=
  (State.flushLines_memory ..).trans (State.performLocal_memory ..)

theorem State.devWrite_memory (s : State) (d a n v : Nat) : WritesDevice s (s.devWrite d a n v) := by
  unfold State.devWrite
  dsimp only
  refine (State.touch_memory s (s.ownerClass a) a).trans (t := s.touch (s.ownerClass a) a) ?_
  split
  · exact .refl _
  · split
    · exact .of_eq rfl rfl rfl
    · exact (((State.dropBad_memory ..).trans (State.flushLines_memory ..)).trans (State.performStore_memory ..)).trans
        (.of_eq rfl rfl rfl)

theorem State.ownerPiece_memory (others : List Nat) (s : State) (q : Nat × Nat × List Nat) :
    WritesDevice s (State.ownerPiece others s q) :=
  ⟨fun h => State.ownerBytes_wf _ _ _ _ _ _ h, State.ownerBytes_spad .., State.ownerBytes_host ..⟩

theorem State.applyPieces_memory (s : State) (w : Nat) (clock : List Nat) (l : List (Nat × Nat × List Nat)) :
    WritesDevice s (s.applyPieces w clock l) := by
  unfold State.applyPieces
  split
  · exact .refl s
  · rename_i q qs
    dsimp only
    generalize hu : List.foldl (State.ownerPiece _) _ _ = u
    have h : WritesDevice s u := by
      rw [← hu]
      exact WritesDevice.trans (t := { s with lastW := setLast s.lastW ((q :: qs).flatMap (·.2.2)) clock })
        (.of_eq rfl rfl rfl) (WritesDevice.foldl _ (State.ownerPiece_memory _) _ _)
    exact h.trans (.of_eq rfl rfl rfl)

theorem State.shadowWrite_memory (s : State) (d a v mask : Nat) (keys : List Nat) :
    WritesDevice s (s.shadowWrite d a v mask keys) :=
  .of_eq (State.shadowWrite_hbm ..) (State.shadowWrite_spad ..) (State.shadowWrite_host ..)

theorem State.devWrite2_memory (s : State) (d : Nat) (p q : Nat × Nat × Nat) : WritesDevice s (s.devWrite2 d p q) := by
  unfold State.devWrite2
  split
  · dsimp only
    split
    · exact (State.devWrite_memory ..).trans (State.devWrite_memory ..)
    · generalize hu : State.flushLines (State.flushLines _ _ _ _) _ _ _ = u
      have h : WritesDevice s u := by
        rw [← hu]
        exact (((State.touch_memory ..).trans (State.touch_memory ..)).trans (State.flushLines_memory ..)).trans
          (State.flushLines_memory ..)
      split
      · exact (h.trans (State.tickDie_memory ..)).trans (State.applyPieces_memory ..)
      · exact (((h.trans (State.shadowWrite_memory ..)).trans (State.shadowWrite_memory ..)).trans
          (State.tickDie_memory ..)).trans (.of_eq rfl rfl rfl)
  · exact (State.devWrite_memory ..).trans (State.devWrite_memory ..)

theorem State.ringWords_memory (s : State) (d base size n : Nat) (ws : List Word) :
    WritesDevice s (s.ringWords d base size n ws) := by
  unfold State.ringWords
  dsimp only
  split
  · exact State.devWrite_memory ..
  · exact State.devWrite2_memory ..

theorem State.recWrite_memory (s : State) (cls a v : Nat) (keys : List Nat) : WritesDevice s (s.recWrite cls a v keys) := by
  unfold State.recWrite
  dsimp only
  split
  · exact .of_eq rfl rfl rfl
  · exact State.ownerWrite_memory ..

theorem State.setRecWord_memory (s : State) (l off v : Nat) : WritesDevice s (s.setRecWord l off v) := State.recWrite_memory ..

theorem State.parkRecord_memory (s : State) (l hstate : Nat) : WritesDevice s (s.parkRecord l hstate) :=
  (State.recWrite_memory ..).trans (.of_eq rfl rfl rfl)

theorem State.parkByTrap_memory (s : State) (cause : Nat) (pc : Addr) : WritesDevice s (s.parkByTrap cause pc) := by
  unfold State.parkByTrap
  split
  · exact .refl s
  · exact .of_eq rfl rfl rfl
  · exact ((State.parkRecord_memory ..).trans (State.setRecWord_memory ..)).trans (.of_eq rfl rfl rfl)

theorem State.traceRecord_memory (s : State) (kind core slot : Nat) (payload : List Word) :
    WritesDevice s (s.traceRecord kind core slot payload) := by
  unfold State.traceRecord
  dsimp only
  split
  · exact .refl s
  · refine WritesDevice.trans (State.touch_memory s (s.ownerClass (s.cluster (clusterOf core)).traceBase.toNat)
      (s.cluster (clusterOf core)).traceBase.toNat) ?_
    split
    · exact State.devWrite_memory ..
    · exact (State.ringWords_memory ..).trans (State.devWrite_memory ..)

theorem State.onCur_memory (s : State) (f : Strand → Strand) : WritesDevice s (s.onCur f) := .of_eq rfl rfl rfl

theorem State.onStrands_memory (s : State) (p : Strand → Bool) (f : Strand → Strand) : WritesDevice s (s.onStrands p f) :=
  .of_eq rfl rfl rfl

theorem State.endOnTrap_memory (s : State) : WritesDevice s s.endOnTrap :=
  .of_eq rfl rfl rfl

theorem State.notes_memory (s : State) (ns : List DroverNote) : WritesDevice s { s with notes := ns } :=
  .of_eq rfl rfl rfl

/-- Taking a trap writes at most device memory: the record of a capsule that it parks, and a trace record. -/
theorem takeTrap_memory (s : State) (cause : Nat) (info : Word) : WritesDevice s (takeTrap s cause info) := by
  have h : WritesDevice s ((s.parkByTrap cause s.cur.pc).onCur (fun t =>
      { t.unstall with haltReq := t.haltReq || t.stepReq, stepReq := false })) :=
    (State.parkByTrap_memory ..).trans (State.onCur_memory ..)
  unfold takeTrap
  dsimp only
  generalize (s.parkByTrap cause s.cur.pc).onCur (fun t =>
      { t.unstall with haltReq := t.haltReq || t.stepReq, stepReq := false }) = u at h ⊢
  split
  · have h' := h.trans (State.traceRecord_memory u 3 u.cur.core u.cur.slot (trapPayload cause u.cur.pc info))
    split
    · exact (h'.trans (State.onCur_memory ..)).trans (State.endOnTrap_memory ..)
    · exact h'.trans (State.onCur_memory ..)
  · split
    · exact (h.trans (State.onCur_memory ..)).trans (State.notes_memory ..)
    · exact (h.trans (State.onCur_memory ..)).trans (State.notes_memory ..)

end Sys2Proof.Machine
end

