-- ==== Sys2Proof/Laws/Issue.lean ====
section
/-! SUPPORT. What the checks at issue decide, what reading the sources changes, and what writing a register changes. -/

namespace Sys2Proof.Machine

/-! ### Registers after a write -/

theorem Strand.reg_onReg (t : Strand) (n : Nat) (f : Reg → Reg) (c : Nat) :
    (t.onReg n f).reg c = if c = n ∧ n < 56 then f (t.reg n) else t.reg c := by
  unfold Strand.onReg Strand.reg
  by_cases hn : n < 56
  · by_cases hc : c < 56
    · by_cases hcn : c = n
      · subst hcn; simp [hn]
      · simp [hn, hc, hcn, Ne.symm hcn]
    · have : c ≠ n := by omega
      simp [hn, hc, this]
  · simp [hn]

@[simp] theorem Strand.vreg_onReg (t : Strand) (n : Nat) (f : Reg → Reg) (c : Nat) :
    (t.onReg n f).vreg c = t.vreg c := by simp [Strand.vreg]

theorem Strand.vreg_onV (t : Strand) (n : Nat) (f : VReg → VReg) (c : Nat) :
    (t.onV n f).vreg c = if c = n ∧ n < 32 then f (t.vreg n) else t.vreg c := by
  unfold Strand.onV Strand.vreg
  by_cases hn : n < 32
  · by_cases hc : c < 32
    · by_cases hcn : c = n
      · subst hcn; simp [hn]
      · simp [hn, hc, hcn, Ne.symm hcn]
    · have : c ≠ n := by omega
      simp [hn, hc, this]
  · simp [hn]

@[simp] theorem Strand.reg_onV (t : Strand) (n : Nat) (f : VReg → VReg) (c : Nat) :
    (t.onV n f).reg c = t.reg c := by simp [Strand.reg]

/-! ### Reading the sources -/

/-- A change of the g, k and v registers alone. -/
def SameButRegs (u t : Strand) : Prop := t = { u with gk := t.gk, v := t.v }

theorem SameButRegs.refl (u : Strand) : SameButRegs u u := rfl

theorem SameButRegs.trans {u t w : Strand} (h : SameButRegs u t) (h' : SameButRegs t w) : SameButRegs u w := by
  unfold SameButRegs at *; rw [h', h]

theorem Strand.sameButRegs_onReg (t : Strand) (n : Nat) (f : Reg → Reg) : SameButRegs t (t.onReg n f) := by
  unfold Strand.onReg SameButRegs; split <;> rfl

theorem Strand.sameButRegs_onV (t : Strand) (n : Nat) (f : VReg → VReg) : SameButRegs t (t.onV n f) := by
  unfold Strand.onV SameButRegs; split <;> rfl

/-- What reading some registers changes: the full/empty bits of those registers at most. -/
structure Reads (u t : Strand) (cs : List Nat) : Prop where
  same : SameButRegs u t
  scalar : ∀ r, (t.reg r).val = (u.reg r).val ∧ (t.reg r).pend = (u.reg r).pend
    ∧ (t.reg r).tag = (u.reg r).tag ∧ (t.reg r).mark = (u.reg r).mark
  vector : ∀ r, (t.vreg r).val = (u.vreg r).val ∧ (t.vreg r).pend = (u.vreg r).pend
    ∧ (t.vreg r).tag = (u.vreg r).tag ∧ (t.vreg r).mark = (u.vreg r).mark
  unread : ∀ r, r < 56 → r ∉ cs → t.reg r = u.reg r
  unreadV : ∀ r, 64 + r ∉ cs → t.vreg r = u.vreg r

theorem Reads.refl (u : Strand) (cs : List Nat) : Reads u u cs :=
  ⟨.refl u, fun _ => ⟨rfl, rfl, rfl, rfl⟩, fun _ => ⟨rfl, rfl, rfl, rfl⟩, fun _ _ _ => rfl, fun _ _ => rfl⟩

theorem Reads.trans {u t w : Strand} {cs ds : List Nat} (h : Reads u t cs) (h' : Reads t w ds) : Reads u w (cs ++ ds) := by
  refine ⟨h.same.trans h'.same, fun r => ?_, fun r => ?_, fun r hr hn => ?_, fun r hn => ?_⟩
  · obtain ⟨a, b, c, d⟩ := h.scalar r; obtain ⟨a', b', c', d'⟩ := h'.scalar r
    exact ⟨a'.trans a, b'.trans b, c'.trans c, d'.trans d⟩
  · obtain ⟨a, b, c, d⟩ := h.vector r; obtain ⟨a', b', c', d'⟩ := h'.vector r
    exact ⟨a'.trans a, b'.trans b, c'.trans c, d'.trans d⟩
  · simp only [List.mem_append, not_or] at hn
    exact (h'.unread r hr hn.2).trans (h.unread r hr hn.1)
  · simp only [List.mem_append, not_or] at hn
    exact (h'.unreadV r hn.2).trans (h.unreadV r hn.1)

/-- A cell that names a register: 0 to 55 a g or k register, 64 and more a v register. -/
def cellOk (c : Nat) : Prop := c < 56 ∨ 64 ≤ c

theorem Strand.takeCell_reads (t : Strand) (c : Nat) (hc : cellOk c) : Reads t (t.takeCell c) [c] := by
  unfold Strand.takeCell
  split
  · refine ⟨t.sameButRegs_onReg c _, fun r => ?_, fun r => ?_, fun r _ hr => ?_, fun r _ => ?_⟩
    · rw [Strand.reg_onReg]; split
      · rename_i h; rw [h.1]; unfold Reg.take; split <;> simp
      · simp
    · simp
    · rw [Strand.reg_onReg, if_neg (fun h => hr (by simp [h.1]))]
    · simp
  · rename_i h56
    have h64 : 64 ≤ c := by rcases hc with h | h <;> omega
    refine ⟨t.sameButRegs_onV _ _, fun r => ?_, fun r => ?_, fun r _ hr => ?_, fun r hr => ?_⟩
    · simp
    · rw [Strand.vreg_onV]; split
      · rename_i h; rw [h.1]; unfold VReg.take; split <;> simp
      · simp
    · simp
    · rw [Strand.vreg_onV, if_neg (fun h => hr (by rw [h.1]; simp; omega))]

theorem Strand.takeCells_reads (t : Strand) (cs : List Nat) (h : ∀ c ∈ cs, cellOk c) :
    Reads t (cs.foldl Strand.takeCell t) cs := by
  induction cs generalizing t with
  | nil => exact .refl t []
  | cons c cs ih =>
    exact (t.takeCell_reads c (h c (by simp))).trans (ih _ (fun d hd => h d (by simp [hd])))

/-- The registers that source fields name. -/
def srcCells (fs : List Field) : List Nat := (fs.filter (·.src)).flatMap (·.cells)

theorem mem_srcCells (fs : List Field) (c : Nat) : c ∈ srcCells fs ↔ ∃ f ∈ fs, f.src = true ∧ c ∈ f.cells := by
  simp [srcCells, and_assoc]

/-- Every field names registers. -/
def fieldsOk (fs : List Field) : Prop := ∀ f ∈ fs, ∀ c ∈ f.cells, cellOk c

theorem Strand.consume_reads (t : Strand) (fs : List Field) (h : fieldsOk fs) : Reads t (t.consume fs) (srcCells fs) := by
  unfold Strand.consume srcCells
  have h' : ∀ f ∈ fs.filter (·.src), ∀ c ∈ f.cells, cellOk c := fun f hf => h f (List.mem_filter.mp hf).1
  generalize fs.filter (·.src) = gs at h' ⊢
  induction gs generalizing t with
  | nil => exact .refl t []
  | cons g gs ih =>
    rw [List.foldl_cons, List.flatMap_cons]
    exact (t.takeCells_reads g.cells (h' g (by simp))).trans (ih _ (fun f hf => h' f (by simp [hf])))

/-! ### The checks at issue -/

/-- Fields that are clear are ready. -/
theorem verdict_ready (t : Strand) (fs : List Field) (h : ∀ f ∈ fs, Clear t f) : verdict t fs = .ready := by
  have h1 : fs.find? Field.bad = none := by
    rw [List.find?_eq_none]; intro f hf; simp [(h f hf).1]
  have h2 : ∀ f ∈ fs, f.empty t = false := by
    intro f hf
    unfold Field.empty
    cases hs : f.src
    · rfl
    · simp only [Bool.true_and, List.any_eq_false]
      intro c hc; simp [((h f hf).2.1 hs c hc).1]
  have h3 : ∀ f ∈ fs, f.late t = false := by
    intro f hf
    unfold Field.late
    cases hs : f.src
    · rfl
    · simp only [Bool.true_and, List.any_eq_false]
      intro c hc; simp [((h f hf).2.1 hs c hc).2.1]
  have h4 : ∀ f ∈ fs, f.busy t = false := by
    intro f hf
    unfold Field.busy
    cases hs : f.dst
    · rfl
    · simp only [Bool.true_and, List.any_eq_false]
      intro c hc; simp [(h f hf).2.2 hs c hc]
  have h5 : ∀ f ∈ fs, f.tag t = none := by
    intro f hf
    unfold Field.tag
    split
    · rename_i hs
      rw [List.findSome?_eq_none_iff]
      intro c hc; exact ((h f hf).2.1 hs c hc).2.2
    · rfl
  have h6 : fs.find? (fun f => f.pol && f.empty t) = none := by
    rw [List.find?_eq_none]; intro f hf; simp [h2 f hf]
  have h7 : fs.any (fun f => f.empty t) = false := by
    rw [List.any_eq_false]; intro f hf; simp [h2 f hf]
  have h8 : fs.any (fun f => f.late t) = false := by
    rw [List.any_eq_false]; intro f hf; simp [h3 f hf]
  have h9 : fs.any (fun f => f.busy t) = false := by
    rw [List.any_eq_false]; intro f hf; simp [h4 f hf]
  have h10 : fs.findSome? (fun f => f.tag t) = none := by
    rw [List.findSome?_eq_none_iff]; exact h5
  simp [verdict, h1, h6, h7, h8, h9, h10]

/-- An instruction that meets its checks has its own effect, on the state in which its sources have been read. -/
theorem issue_of_ready {s : State} {i : Issue} (h : Ready s i) (k : State → Host.Outcome State Fault Refusal) :
    issue s i k = k (s.onCur (fun t => (t.consume i.fields).countStep)) := by
  have hm : (i.mem && (s.cur.hold != 0 || !s.caughtUp s.cur)) = false := by
    cases hm : i.mem
    · rfl
    · simp [h.ordered hm]
  simp [issue, verdict_ready s.cur i.fields h.fields, hm, h.capsule]

/-- The strand whose sources have been read. -/
theorem Strand.countStep_eq (t : Strand) : t.countStep = { t with cap := t.countStep.cap } := by
  unfold Strand.countStep; split <;> rfl

theorem Strand.countStep_cap (t : Strand) :
    t.countStep.cap = if t.cap.mode = .none then t.cap else { t.cap with count := t.cap.count + 1 } := by
  unfold Strand.countStep; split <;> rfl

theorem SameButRegs.cap {u t : Strand} (h : SameButRegs u t) : t.cap = u.cap := by rw [h]

theorem SameButRegs.countStep_cap {u t : Strand} (h : SameButRegs u t) : t.countStep.cap = u.countStep.cap := by
  rw [Strand.countStep_cap, Strand.countStep_cap, h.cap]

@[simp] theorem Strand.reg_countStep (t : Strand) (c : Nat) : t.countStep.reg c = t.reg c := by
  rw [Strand.countStep_eq]; rfl

@[simp] theorem Strand.vreg_countStep (t : Strand) (c : Nat) : t.countStep.vreg c = t.vreg c := by
  rw [Strand.countStep_eq]; rfl

/-- Nothing of memory changes where only the strand that issues does. -/
theorem SameMemory.onCur (s : State) (f : Strand → Strand) : SameMemory s (s.onCur f) :=
  ⟨fun _ => rfl, fun _ => rfl, fun _ => rfl⟩

/-- The strand whose sources have been read and whose step is counted, as `issue` hands it on: `t` has what it had but
for the full/empty bits of the registers read, and the count. -/
theorem Strand.begin_eq (u : Strand) (fs : List Field) (h : fieldsOk fs) :
    (u.consume fs).countStep = { u with gk := (u.consume fs).gk, v := (u.consume fs).v, cap := u.countStep.cap } := by
  have hs := (u.consume_reads fs h).same
  rw [Strand.countStep_eq, hs.countStep_cap]
  unfold SameButRegs at hs
  rw [hs]

/-- Registers of `t` against those of `u`: those read keep all but the full/empty bit, the others everything. -/
theorem Reads.keepsRegs {u t : Strand} {fs : List Field} (h : Reads u t (srcCells fs)) : KeepsRegs u t fs [] :=
  ⟨fun c _ => h.scalar c, fun c _ => h.vector c,
   fun c hc _ hn => h.unread c hc (fun hm => by
    obtain ⟨f, hf, hs, hcf⟩ := (mem_srcCells fs c).mp hm; exact hn f hf hs hcf),
   fun c _ hn => h.unreadV c (fun hm => by
    obtain ⟨f, hf, hs, hcf⟩ := (mem_srcCells fs (64 + c)).mp hm; exact hn f hf hs hcf)⟩

@[simp] theorem Strand.reg_advance (t : Strand) (len c : Nat) : (t.advance len).reg c = t.reg c := rfl
@[simp] theorem Strand.vreg_advance (t : Strand) (len c : Nat) : (t.advance len).vreg c = t.vreg c := rfl
@[simp] theorem Strand.reg_enterY (t : Strand) (x : Word) (c : Nat) : (t.enterY x).reg c = t.reg c := rfl
@[simp] theorem Strand.vreg_enterY (t : Strand) (x : Word) (c : Nat) : (t.enterY x).vreg c = t.vreg c := rfl

theorem Strand.reg_result (t : Strand) (d : BitVec 6) (x : Word) (c : Nat) :
    (t.result d x).reg c = if c = d.toNat ∧ d.toNat < 56 then (t.reg c).put x else t.reg c := by
  unfold Strand.result Strand.setG
  rw [Strand.reg_onReg]
  split
  · rename_i h; rw [h.1]; simp
  · simp

@[simp] theorem Strand.vreg_result (t : Strand) (d : BitVec 6) (x : Word) (c : Nat) : (t.result d x).vreg c = t.vreg c := by
  simp [Strand.result, Strand.setG]

theorem Strand.result_eq (t : Strand) (d : BitVec 6) (x : Word) :
    t.result d x = { t with gk := (t.result d x).gk, y := #v[x, t.y[0], t.y[1], t.y[2]] } := by
  unfold Strand.result Strand.setG Strand.onReg Strand.enterY; split <;> rfl

/-- A scalar result on a strand whose sources have been read (R25). -/
theorem finish_result (s : State) (fs : List Field) (d : BitVec 6) (v : Word) (len : Nat) (hok : fieldsOk fs) :
    ∃ t, finish (s.onCur (fun t => (t.consume fs).countStep)) len (fun t => t.result d v) = .next t
      ∧ ScalarResult s t fs d v len := by
  have hr := s.cur.consume_reads fs hok
  have hk := hr.keepsRegs
  have hb := s.cur.begin_eq fs hok
  refine ⟨_, rfl, ?_⟩
  simp only [State.onCur]
  have hreg : ∀ c, (((s.cur.consume fs).countStep.result d v).advance len).reg c =
      if c = d.toNat ∧ d.toNat < 56 then ((s.cur.consume fs).reg c).put v else (s.cur.consume fs).reg c := by
    intro c; rw [Strand.reg_advance, Strand.reg_result, Strand.reg_countStep]
  have heq : ((s.cur.consume fs).countStep.result d v).advance len =
      s.cur.withRegs (((s.cur.consume fs).countStep.result d v).advance len) := by
    unfold Strand.withRegs Strand.advance
    rw [Strand.result_eq, hb]
  refine ⟨fun hd => ?_, ?_, ?_, ⟨⟨⟨fun c hc => ?_, fun c _ => ?_, fun c h56 hc hn => ?_, fun c hc hn => ?_⟩, ?_⟩, ?_⟩, ?_⟩
  · rw [hreg]; simp [hd, Reg.put]
  · rw [Strand.advance_y, Strand.result_eq, hb]
  · rw [Strand.advance_pc, Strand.result_eq, hb]
  · simp only [List.mem_singleton] at hc
    rw [hreg, if_neg (fun h => hc h.1)]; exact hr.scalar c
  · rw [Strand.vreg_advance, Strand.vreg_result, Strand.vreg_countStep]; exact hr.vector c
  · simp only [List.mem_singleton] at hc
    rw [hreg, if_neg (fun h => hc h.1)]; exact hk.unread c h56 (by simp) hn
  · rw [Strand.vreg_advance, Strand.vreg_result, Strand.vreg_countStep]; exact hk.unreadV c (by simp) hn
  · rw [Strand.advance_cap, Strand.result_eq, hb]
  · rw [← heq]
  · exact ⟨fun _ => rfl, fun _ => rfl, fun _ => rfl⟩

/-- The usual fields name registers. -/
theorem cellOk_gk {n c : Nat} (h : c ∈ gkCell n) : cellOk c := by
  unfold gkCell at h; split at h
  · rename_i hn; rw [List.mem_singleton.mp h]; exact .inl hn
  · cases h

theorem fieldsOk_nil : fieldsOk [] := fun _ h => by cases h

theorem fieldsOk_cons {f : Field} {fs : List Field} : fieldsOk (f :: fs) ↔ (∀ c ∈ f.cells, cellOk c) ∧ fieldsOk fs :=
  ⟨fun h => ⟨h f (by simp), fun g hg => h g (by simp [hg])⟩, fun h g hg => by
    rcases List.mem_cons.mp hg with rfl | hg
    · exact h.1
    · exact h.2 g hg⟩

theorem cellsOk_s (a : BitVec 6) (p : Bool) (l : Nat) : ∀ c ∈ (Field.s a p l).cells, cellOk c := fun _ => cellOk_gk
theorem cellsOk_d (a : BitVec 6) (l : Nat) : ∀ c ∈ (Field.d a l).cells, cellOk c := fun _ => cellOk_gk
theorem cellsOk_sd (a : BitVec 6) (p : Bool) (l : Nat) : ∀ c ∈ (Field.sd a p l).cells, cellOk c := fun _ => cellOk_gk

theorem cellsOk_vd (n : BitVec 5) (r : Bool) : ∀ c ∈ (Field.vd n r).cells, cellOk c := fun c h => by
  rw [show (Field.vd n r).cells = [64 + n.toNat] from rfl, List.mem_singleton] at h; exact .inr (by omega)

theorem cellsOk_gd (n : BitVec 5) : ∀ c ∈ (Field.gd n).cells, cellOk c := fun c h => by
  rw [show (Field.gd n).cells = [n.toNat] from rfl, List.mem_singleton] at h; exact .inl (by omega)

theorem cellsOk_v (f : BitVec 6) (p : Bool) : ∀ c ∈ (Field.v f p).cells, cellOk c := fun c h => by
  rw [show (Field.v f p).cells = [vecCell f.toNat] from rfl, List.mem_singleton] at h
  unfold vecCell at h; unfold cellOk; split at h <;> omega

theorem fieldsOk_3 (x : A3) : fieldsOk (fields3 x) := by
  simp only [fields3, fieldsOk_cons]
  exact ⟨cellsOk_s _ _ _, cellsOk_s _ _ _, cellsOk_d _ _, fieldsOk_nil⟩

theorem fieldsOk_2 (x : A2) : fieldsOk (fields2 x) := by
  simp only [fields2, fieldsOk_cons]
  exact ⟨cellsOk_s _ _ _, cellsOk_d _ _, fieldsOk_nil⟩

/-- An instruction that issues with a scalar result yields it. -/
theorem yields_of_issue {i : Instr} {s : State} {q : Issue} {d : BitVec 6} {v : Word} {len : Nat} (h : Ready s q)
    (hok : fieldsOk q.fields) (he : exec i s = issue s q (fun s' => finish s' len (fun t => t.result d v))) :
    Yields i s q.fields d v len := by
  unfold Yields
  rw [he, issue_of_ready h]
  exact finish_result s q.fields d v len hok

end Sys2Proof.Machine
end

