-- ==== Sys2Proof/Laws/PerInstr.lean ====
section
/-! SUPPORT. Statements for every instruction, one lemma per constructor. -/

namespace Sys2Proof.Laws.EncodedLength

open Sys2Proof

/-- How many halfwords an instruction takes (R20, R22, R37): a step of the machine's own none, a compact word one, a word
two, and a word with its prefix four. -/
def Statement (i : Instr) : Prop :=
  (encode i).length = 0 ∨ (encode i).length = 1 ∨ (encode i).length = 2 ∨ (encode i).length = 4

/-- A word is two halfwords. -/
theorem halves_length (w : Nat) : (halves w).length = 2 := rfl

/-- A vector word is two halfwords, or four with its prefix. -/
theorem encV_length (major fn : Nat) (x : VOp) : (encV major fn x).length = 2 ∨ (encV major fn x).length = 4 := by
  unfold encV withPfx
  split
  · exact .inl rfl
  · exact .inr rfl

/-- The same of any word that may have a prefix. -/
theorem withPfx_length (p : Option Pfx) (w : Nat) : (withPfx p w).length = 2 ∨ (withPfx p w).length = 4 := by
  unfold withPfx
  split
  · exact .inl rfl
  · exact .inr rfl

theorem add (x : A3) : Statement (.add x) := .inr (.inr (.inl rfl))
theorem sub (x : A3) : Statement (.sub x) := .inr (.inr (.inl rfl))
theorem mul (x : A3) : Statement (.mul x) := .inr (.inr (.inl rfl))
theorem mulh (x : A3) : Statement (.mulh x) := .inr (.inr (.inl rfl))
theorem mulhn (x : A3) : Statement (.mulhn x) := .inr (.inr (.inl rfl))
theorem div (x : A3) : Statement (.div x) := .inr (.inr (.inl rfl))
theorem divn (x : A3) : Statement (.divn x) := .inr (.inr (.inl rfl))
theorem rem (x : A3) : Statement (.rem x) := .inr (.inr (.inl rfl))
theorem remn (x : A3) : Statement (.remn x) := .inr (.inr (.inl rfl))
theorem and (x : A3) : Statement (.and x) := .inr (.inr (.inl rfl))
theorem or (x : A3) : Statement (.or x) := .inr (.inr (.inl rfl))
theorem xor (x : A3) : Statement (.xor x) := .inr (.inr (.inl rfl))
theorem andn (x : A3) : Statement (.andn x) := .inr (.inr (.inl rfl))
theorem orn (x : A3) : Statement (.orn x) := .inr (.inr (.inl rfl))
theorem shl (x : A3) : Statement (.shl x) := .inr (.inr (.inl rfl))
theorem shr (x : A3) : Statement (.shr x) := .inr (.inr (.inl rfl))
theorem sra (x : A3) : Statement (.sra x) := .inr (.inr (.inl rfl))
theorem rot (x : A3) : Statement (.rot x) := .inr (.inr (.inl rfl))
theorem min (x : A3) : Statement (.min x) := .inr (.inr (.inl rfl))
theorem max (x : A3) : Statement (.max x) := .inr (.inr (.inl rfl))
theorem minn (x : A3) : Statement (.minn x) := .inr (.inr (.inl rfl))
theorem maxn (x : A3) : Statement (.maxn x) := .inr (.inr (.inl rfl))
theorem seq (x : A3) : Statement (.seq x) := .inr (.inr (.inl rfl))
theorem sne (x : A3) : Statement (.sne x) := .inr (.inr (.inl rfl))
theorem slt (x : A3) : Statement (.slt x) := .inr (.inr (.inl rfl))
theorem sltn (x : A3) : Statement (.sltn x) := .inr (.inr (.inl rfl))
theorem sle (x : A3) : Statement (.sle x) := .inr (.inr (.inl rfl))
theorem slen (x : A3) : Statement (.slen x) := .inr (.inr (.inl rfl))
theorem addw (x : A3) : Statement (.addw x) := .inr (.inr (.inl rfl))
theorem subw (x : A3) : Statement (.subw x) := .inr (.inr (.inl rfl))
theorem lea (x : A3) : Statement (.lea x) := .inr (.inr (.inl rfl))
theorem leaw (x : A3) : Statement (.leaw x) := .inr (.inr (.inl rfl))
theorem clz (x : A2) : Statement (.clz x) := .inr (.inr (.inl rfl))
theorem ctz (x : A2) : Statement (.ctz x) := .inr (.inr (.inl rfl))
theorem popc (x : A2) : Statement (.popc x) := .inr (.inr (.inl rfl))
theorem brev (x : A2) : Statement (.brev x) := .inr (.inr (.inl rfl))
theorem abs (x : A2) : Statement (.abs x) := .inr (.inr (.inl rfl))
theorem neg (x : A2) : Statement (.neg x) := .inr (.inr (.inl rfl))
theorem sxtb (x : A2) : Statement (.sxtb x) := .inr (.inr (.inl rfl))
theorem sxth (x : A2) : Statement (.sxth x) := .inr (.inr (.inl rfl))
theorem sxtw (x : A2) : Statement (.sxtw x) := .inr (.inr (.inl rfl))
theorem zxtb (x : A2) : Statement (.zxtb x) := .inr (.inr (.inl rfl))
theorem zxth (x : A2) : Statement (.zxth x) := .inr (.inr (.inl rfl))
theorem zxtw (x : A2) : Statement (.zxtw x) := .inr (.inr (.inl rfl))
theorem addi (x : A2) (imm : BitVec 9) : Statement (.addi x imm) := .inr (.inr (.inl rfl))
theorem andi (x : A2) (imm : BitVec 9) : Statement (.andi x imm) := .inr (.inr (.inl rfl))
theorem ori (x : A2) (imm : BitVec 9) : Statement (.ori x imm) := .inr (.inr (.inl rfl))
theorem xori (x : A2) (imm : BitVec 9) : Statement (.xori x imm) := .inr (.inr (.inl rfl))
theorem slti (x : A2) (imm : BitVec 9) : Statement (.slti x imm) := .inr (.inr (.inl rfl))
theorem shli (x : A2) (n : BitVec 6) : Statement (.shli x n) := .inr (.inr (.inl rfl))
theorem shri (x : A2) (n : BitVec 6) : Statement (.shri x n) := .inr (.inr (.inl rfl))
theorem srai (x : A2) (n : BitVec 6) : Statement (.srai x n) := .inr (.inr (.inl rfl))
theorem li (d : BitVec 6) (imm : BitVec 19) : Statement (.li d imm) := .inr (.inr (.inl rfl))
theorem liu (d : BitVec 6) (imm : BitVec 19) : Statement (.liu d imm) := .inr (.inr (.inl rfl))
theorem bz (x : A1) (off : BitVec 15) : Statement (.bz x off) := .inr (.inr (.inl rfl))
theorem bnz (x : A1) (off : BitVec 15) : Statement (.bnz x off) := .inr (.inr (.inl rfl))
theorem bltz (x : A1) (off : BitVec 15) : Statement (.bltz x off) := .inr (.inr (.inl rfl))
theorem bgez (x : A1) (off : BitVec 15) : Statement (.bgez x off) := .inr (.inr (.inl rfl))
theorem blez (x : A1) (off : BitVec 15) : Statement (.blez x off) := .inr (.inr (.inl rfl))
theorem bgtz (x : A1) (off : BitVec 15) : Statement (.bgtz x off) := .inr (.inr (.inl rfl))
theorem bodd (x : A1) (off : BitVec 15) : Statement (.bodd x off) := .inr (.inr (.inl rfl))
theorem bloop (x : A1) (off : BitVec 15) : Statement (.bloop x off) := .inr (.inr (.inl rfl))
theorem jal (d : BitVec 6) (off : BitVec 19) : Statement (.jal d off) := .inr (.inr (.inl rfl))
theorem jr (x : A1) : Statement (.jr x) := .inr (.inr (.inl rfl))
theorem jalr (x : A2) : Statement (.jalr x) := .inr (.inr (.inl rfl))
theorem trap (code : BitVec 6) : Statement (.trap code) := .inr (.inr (.inl rfl))
theorem crdBank0 (n d : BitVec 6) : Statement (.crdBank0 n d) := .inr (.inr (.inl rfl))
theorem crdBank1 (n d : BitVec 6) : Statement (.crdBank1 n d) := .inr (.inr (.inl rfl))
theorem cwrBank0 (n : BitVec 6) (x : A1) : Statement (.cwrBank0 n x) := .inr (.inr (.inl rfl))
theorem cwrBank1 (n : BitVec 6) (x : A1) : Statement (.cwrBank1 n x) := .inr (.inr (.inl rfl))
theorem fenceAcq (scope : BitVec 6) : Statement (.fenceAcq scope) := .inr (.inr (.inl rfl))
theorem fenceRel (scope : BitVec 6) : Statement (.fenceRel scope) := .inr (.inr (.inl rfl))
theorem fenceFull (scope : BitVec 6) : Statement (.fenceFull scope) := .inr (.inr (.inl rfl))
theorem icinv (scope : BitVec 6) (x : AB) : Statement (.icinv scope x) := .inr (.inr (.inl rfl))
theorem fencesp (x : A1) : Statement (.fencesp x) := .inr (.inr (.inl rfl))
theorem susp (x : A1) : Statement (.susp x) := .inr (.inr (.inl rfl))
theorem spawn (x : AB) : Statement (.spawn x) := .inr (.inr (.inl rfl))
theorem ext (x : A2) : Statement (.ext x) := .inr (.inr (.inl rfl))
theorem ins (x : A2) : Statement (.ins x) := .inr (.inr (.inl rfl))
theorem lds (x : A2) (size : BitVec 3) (off : BitVec 8) : Statement (.lds x size off) := .inr (.inr (.inl rfl))
theorem sts (x : A2) (size : BitVec 3) (off : BitVec 8) : Statement (.sts x size off) := .inr (.inr (.inl rfl))
theorem pushs (d : BitVec 6) : Statement (.pushs d) := .inr (.inr (.inl rfl))
theorem pops (d : BitVec 6) : Statement (.pops d) := .inr (.inr (.inl rfl))
theorem ldn (x : A3) (size : BitVec 3) : Statement (.ldn x size) := .inr (.inr (.inl rfl))
theorem stn (x : A3) (size : BitVec 3) : Statement (.stn x size) := .inr (.inr (.inl rfl))
theorem lda (d : BitVec 6) (size : BitVec 3) (off : BitVec 15) : Statement (.lda d size off) := .inr (.inr (.inl rfl))
theorem sta (d : BitVec 6) (size : BitVec 3) (off : BitVec 15) : Statement (.sta d size off) := .inr (.inr (.inl rfl))
theorem ldk (d : BitVec 6) (size : BitVec 3) (off : BitVec 16) : Statement (.ldk d size off) := .inr (.inr (.inl rfl))
theorem ldg (x : A2) (size : BitVec 3) (ord : BitVec 2) (scope : BitVec 3) (pol : BitVec 2) : Statement (.ldg x size ord scope pol) := .inr (.inr (.inl rfl))
theorem stg (x : A2) (size : BitVec 3) (ord : BitVec 2) (scope : BitVec 3) (pol : BitVec 2) : Statement (.stg x size ord scope pol) := .inr (.inr (.inl rfl))
theorem pfg (x : A1) (scope : BitVec 3) (pol : BitVec 2) : Statement (.pfg x scope pol) := .inr (.inr (.inl rfl))
theorem ldh (x : A2) (size : BitVec 3) (ord : BitVec 2) : Statement (.ldh x size ord) := .inr (.inr (.inl rfl))
theorem sth (x : A2) (size : BitVec 3) (ord : BitVec 2) : Statement (.sth x size ord) := .inr (.inr (.inl rfl))
theorem aadd (x : A3) (dw : Bool) : Statement (.aadd x dw) := .inr (.inr (.inl rfl))
theorem aand (x : A3) (dw : Bool) : Statement (.aand x dw) := .inr (.inr (.inl rfl))
theorem aor (x : A3) (dw : Bool) : Statement (.aor x dw) := .inr (.inr (.inl rfl))
theorem axor (x : A3) (dw : Bool) : Statement (.axor x dw) := .inr (.inr (.inl rfl))
theorem amin (x : A3) (dw : Bool) : Statement (.amin x dw) := .inr (.inr (.inl rfl))
theorem amax (x : A3) (dw : Bool) : Statement (.amax x dw) := .inr (.inr (.inl rfl))
theorem aminn (x : A3) (dw : Bool) : Statement (.aminn x dw) := .inr (.inr (.inl rfl))
theorem amaxn (x : A3) (dw : Bool) : Statement (.amaxn x dw) := .inr (.inr (.inl rfl))
theorem axchg (x : A3) (dw : Bool) : Statement (.axchg x dw) := .inr (.inr (.inl rfl))
theorem acas (x : A3) (dw : Bool) : Statement (.acas x dw) := .inr (.inr (.inl rfl))
theorem afadd (x : A3) : Statement (.afadd x) := .inr (.inr (.inl rfl))
theorem aaddAr (x : A3) (dw : Bool) : Statement (.aaddAr x dw) := .inr (.inr (.inl rfl))
theorem aandAr (x : A3) (dw : Bool) : Statement (.aandAr x dw) := .inr (.inr (.inl rfl))
theorem aorAr (x : A3) (dw : Bool) : Statement (.aorAr x dw) := .inr (.inr (.inl rfl))
theorem axorAr (x : A3) (dw : Bool) : Statement (.axorAr x dw) := .inr (.inr (.inl rfl))
theorem aminAr (x : A3) (dw : Bool) : Statement (.aminAr x dw) := .inr (.inr (.inl rfl))
theorem amaxAr (x : A3) (dw : Bool) : Statement (.amaxAr x dw) := .inr (.inr (.inl rfl))
theorem aminnAr (x : A3) (dw : Bool) : Statement (.aminnAr x dw) := .inr (.inr (.inl rfl))
theorem amaxnAr (x : A3) (dw : Bool) : Statement (.amaxnAr x dw) := .inr (.inr (.inl rfl))
theorem axchgAr (x : A3) (dw : Bool) : Statement (.axchgAr x dw) := .inr (.inr (.inl rfl))
theorem acasAr (x : A3) (dw : Bool) : Statement (.acasAr x dw) := .inr (.inr (.inl rfl))
theorem afaddAr (x : A3) : Statement (.afaddAr x) := .inr (.inr (.inl rfl))
theorem waitne (x : A3) : Statement (.waitne x) := .inr (.inr (.inl rfl))
theorem waiteq (x : A3) : Statement (.waiteq x) := .inr (.inr (.inl rfl))
theorem waitge (x : A3) : Statement (.waitge x) := .inr (.inr (.inl rfl))
theorem jwait (x : A2) : Statement (.jwait x) := .inr (.inr (.inl rfl))
theorem jtest (x : A2) : Statement (.jtest x) := .inr (.inr (.inl rfl))
theorem joininit (x : A3) : Statement (.joininit x) := .inr (.inr (.inl rfl))
theorem joindec (x : AB) : Statement (.joindec x) := .inr (.inr (.inl rfl))
theorem capb (x : A2) : Statement (.capb x) := .inr (.inr (.inl rfl))
theorem caps (d : BitVec 6) : Statement (.caps d) := .inr (.inr (.inl rfl))
theorem cape (x : A2) : Statement (.cape x) := .inr (.inr (.inl rfl))
theorem capa (x : A2) : Statement (.capa x) := .inr (.inr (.inl rfl))
theorem capr (x : A3) : Statement (.capr x) := .inr (.inr (.inl rfl))
theorem capq (x : A2) : Statement (.capq x) := .inr (.inr (.inl rfl))
theorem send (x : AB) : Statement (.send x) := .inr (.inr (.inl rfl))
theorem sendc (x : A3) : Statement (.sendc x) := .inr (.inr (.inl rfl))
theorem enq (x : AB) : Statement (.enq x) := .inr (.inr (.inl rfl))
theorem enqAck (x : A3) : Statement (.enqAck x) := .inr (.inr (.inl rfl))
theorem deq (x : A3) : Statement (.deq x) := .inr (.inr (.inl rfl))
theorem psend (x : AB) : Statement (.psend x) := .inr (.inr (.inl rfl))
theorem precv (x : A3) : Statement (.precv x) := .inr (.inr (.inl rfl))
theorem eos (x : A1) : Statement (.eos x) := .inr (.inr (.inl rfl))
theorem mcast (x : AB) : Statement (.mcast x) := .inr (.inr (.inl rfl))
theorem netrx (x : A2) : Statement (.netrx x) := .inr (.inr (.inl rfl))
theorem fwd (x : A2) (dir slot : BitVec 2) : Statement (.fwd x dir slot) := .inr (.inr (.inl rfl))
theorem fwdArm (d : BitVec 6) : Statement (.fwdArm d) := .inr (.inr (.inl rfl))
theorem launch (x : AB) : Statement (.launch x) := .inr (.inr (.inl rfl))
theorem ackw (x : A2) : Statement (.ackw x) := .inr (.inr (.inl rfl))
theorem tdef (n : BitVec 5) (x : A1) : Statement (.tdef n x) := .inr (.inr (.inl rfl))
theorem trel (n : BitVec 5) : Statement (.trel n) := .inr (.inr (.inl rfl))
theorem tstat (n : BitVec 5) (d : BitVec 6) : Statement (.tstat n d) := .inr (.inr (.inl rfl))
theorem cpyj (n : BitVec 5) (x : A2) : Statement (.cpyj n x) := .inr (.inr (.inl rfl))
theorem cpyjSt (n : BitVec 5) (x : A2) : Statement (.cpyjSt n x) := .inr (.inr (.inl rfl))
theorem cpyq (n : BitVec 5) (x : A2) : Statement (.cpyq n x) := .inr (.inr (.inl rfl))
theorem mxqF32 (a b : BitVec 5) : Statement (.mxqF32 a b) := .inr (.inr (.inl rfl))
theorem mxqI32 (a b : BitVec 5) : Statement (.mxqI32 a b) := .inr (.inr (.inl rfl))
theorem mxdrStF32 (x : A1) : Statement (.mxdrStF32 x) := .inr (.inr (.inl rfl))
theorem mxdrAddF32 (x : A1) : Statement (.mxdrAddF32 x) := .inr (.inr (.inl rfl))
theorem mxdrStI32 (x : A1) : Statement (.mxdrStI32 x) := .inr (.inr (.inl rfl))
theorem mxdrAddI32 (x : A1) : Statement (.mxdrAddI32 x) := .inr (.inr (.inl rfl))
theorem xmov (n : BitVec 3) (x : A1) : Statement (.xmov n x) := .inr (.inr (.inl rfl))
theorem xget (n : BitVec 3) (d : BitVec 6) : Statement (.xget n d) := .inr (.inr (.inl rfl))
theorem vadd (x : VOp) : Statement (.vadd x) := .inr (.inr (encV_length ..))
theorem vsub (x : VOp) : Statement (.vsub x) := .inr (.inr (encV_length ..))
theorem vmul (x : VOp) : Statement (.vmul x) := .inr (.inr (encV_length ..))
theorem vfma (x : VOp) : Statement (.vfma x) := .inr (.inr (encV_length ..))
theorem vfms (x : VOp) : Statement (.vfms x) := .inr (.inr (encV_length ..))
theorem vfnma (x : VOp) : Statement (.vfnma x) := .inr (.inr (encV_length ..))
theorem vmin (x : VOp) : Statement (.vmin x) := .inr (.inr (encV_length ..))
theorem vmax (x : VOp) : Statement (.vmax x) := .inr (.inr (encV_length ..))
theorem vminn (x : VOp) : Statement (.vminn x) := .inr (.inr (encV_length ..))
theorem vmaxn (x : VOp) : Statement (.vmaxn x) := .inr (.inr (encV_length ..))
theorem vabs (x : VOp) : Statement (.vabs x) := .inr (.inr (encV_length ..))
theorem vneg (x : VOp) : Statement (.vneg x) := .inr (.inr (encV_length ..))
theorem vand (x : VOp) : Statement (.vand x) := .inr (.inr (encV_length ..))
theorem vor (x : VOp) : Statement (.vor x) := .inr (.inr (encV_length ..))
theorem vxor (x : VOp) : Statement (.vxor x) := .inr (.inr (encV_length ..))
theorem vshl (x : VOp) : Statement (.vshl x) := .inr (.inr (encV_length ..))
theorem vceq (x : VOp) : Statement (.vceq x) := .inr (.inr (encV_length ..))
theorem vcne (x : VOp) : Statement (.vcne x) := .inr (.inr (encV_length ..))
theorem vclt (x : VOp) : Statement (.vclt x) := .inr (.inr (encV_length ..))
theorem vcle (x : VOp) : Statement (.vcle x) := .inr (.inr (encV_length ..))
theorem vsel (x : VOp) : Statement (.vsel x) := .inr (.inr (encV_length ..))
theorem vshr (x : VOp) : Statement (.vshr x) := .inr (.inr (encV_length ..))
theorem vsra (x : VOp) : Statement (.vsra x) := .inr (.inr (encV_length ..))
theorem vclass (x : VOp) : Statement (.vclass x) := .inr (.inr (encV_length ..))
theorem vcvt (x : VOp) : Statement (.vcvt x) := .inr (.inr (encV_length ..))
theorem vmov (x : VOp) : Statement (.vmov x) := .inr (.inr (encV_length ..))
theorem vbcast (x : VOp) : Statement (.vbcast x) := .inr (.inr (encV_length ..))
theorem vext (x : VOp) : Statement (.vext x) := .inr (.inr (encV_length ..))
theorem vins (x : VOp) : Statement (.vins x) := .inr (.inr (encV_length ..))
theorem vslide (x : VOp) : Statement (.vslide x) := .inr (.inr (encV_length ..))
theorem vperm (x : VOp) : Statement (.vperm x) := .inr (.inr (encV_length ..))
theorem vidx (x : VOp) : Statement (.vidx x) := .inr (.inr (encV_length ..))
theorem vreda (x : VOp) : Statement (.vreda x) := .inr (.inr (encV_length ..))
theorem vredx (x : VOp) : Statement (.vredx x) := .inr (.inr (encV_length ..))
theorem vredn (x : VOp) : Statement (.vredn x) := .inr (.inr (encV_length ..))
theorem vscan (x : VOp) : Statement (.vscan x) := .inr (.inr (encV_length ..))
theorem vlrs (x : VOp) : Statement (.vlrs x) := .inr (.inr (encV_length ..))
theorem tlrs (x : VOp) : Statement (.tlrs x) := .inr (.inr (encV_length ..))
theorem tema (x : VOp) : Statement (.tema x) := .inr (.inr (encV_length ..))
theorem vdot (x : VOp) : Statement (.vdot x) := .inr (.inr (encV_length ..))
theorem vrcp (x : VOp) : Statement (.vrcp x) := .inr (.inr (encV_length ..))
theorem vrsq (x : VOp) : Statement (.vrsq x) := .inr (.inr (encV_length ..))
theorem vsqrt (x : VOp) : Statement (.vsqrt x) := .inr (.inr (encV_length ..))
theorem vexp2 (x : VOp) : Statement (.vexp2 x) := .inr (.inr (encV_length ..))
theorem vlog2 (x : VOp) : Statement (.vlog2 x) := .inr (.inr (encV_length ..))
theorem vtanh (x : VOp) : Statement (.vtanh x) := .inr (.inr (encV_length ..))
theorem vsigm (x : VOp) : Statement (.vsigm x) := .inr (.inr (encV_length ..))
theorem vdiv (x : VOp) : Statement (.vdiv x) := .inr (.inr (encV_length ..))
theorem vfwd (p : Option Pfx) (dir slot : BitVec 2) (vd : BitVec 5) : Statement (.vfwd p dir slot vd) := .inr (.inr (withPfx_length ..))
theorem vfwdArm (p : Option Pfx) (vd : BitVec 5) : Statement (.vfwdArm p vd) := .inr (.inr (withPfx_length ..))
theorem vnop (p : Option Pfx) : Statement (.vnop p) := .inr (.inr (withPfx_length ..))
theorem mand (x : VOp) : Statement (.mand x) := .inr (.inr (encV_length ..))
theorem mor (x : VOp) : Statement (.mor x) := .inr (.inr (encV_length ..))
theorem mxor (x : VOp) : Statement (.mxor x) := .inr (.inr (encV_length ..))
theorem mnot (x : VOp) : Statement (.mnot x) := .inr (.inr (encV_length ..))
theorem mpop (x : VOp) : Statement (.mpop x) := .inr (.inr (encV_length ..))
theorem mset (x : VOp) : Statement (.mset x) := .inr (.inr (encV_length ..))
theorem cAdd (d a b : BitVec 3) : Statement (.cAdd d a b) := .inr (.inl rfl)
theorem cSub (d a b : BitVec 3) : Statement (.cSub d a b) := .inr (.inl rfl)
theorem cAnd (d a b : BitVec 3) : Statement (.cAnd d a b) := .inr (.inl rfl)
theorem cOr (d a b : BitVec 3) : Statement (.cOr d a b) := .inr (.inl rfl)
theorem cXor (d a b : BitVec 3) : Statement (.cXor d a b) := .inr (.inl rfl)
theorem cMov (d a : BitVec 3) : Statement (.cMov d a) := .inr (.inl rfl)
theorem cAddi (d a : BitVec 3) (imm : BitVec 4) : Statement (.cAddi d a imm) := .inr (.inl rfl)
theorem cShli (d a : BitVec 3) (imm : BitVec 4) : Statement (.cShli d a imm) := .inr (.inl rfl)
theorem cShri (d a : BitVec 3) (imm : BitVec 4) : Statement (.cShri d a imm) := .inr (.inl rfl)
theorem cSlt (d a b : BitVec 3) : Statement (.cSlt d a b) := .inr (.inl rfl)
theorem cLi (d : BitVec 3) (imm : BitVec 7) : Statement (.cLi d imm) := .inr (.inl rfl)
theorem cLdsD (d a : BitVec 3) (off : BitVec 4) : Statement (.cLdsD d a off) := .inr (.inl rfl)
theorem cStsD (d a : BitVec 3) (off : BitVec 4) : Statement (.cStsD d a off) := .inr (.inl rfl)
theorem cLdsW (d a : BitVec 3) (off : BitVec 4) : Statement (.cLdsW d a off) := .inr (.inl rfl)
theorem cStsW (d a : BitVec 3) (off : BitVec 4) : Statement (.cStsW d a off) := .inr (.inl rfl)
theorem cLdaD (d : BitVec 3) (off : BitVec 8) : Statement (.cLdaD d off) := .inr (.inl rfl)
theorem cStaD (d : BitVec 3) (off : BitVec 8) : Statement (.cStaD d off) := .inr (.inl rfl)
theorem cBz (a : BitVec 3) (off : BitVec 7) : Statement (.cBz a off) := .inr (.inl rfl)
theorem cBnz (a : BitVec 3) (off : BitVec 7) : Statement (.cBnz a off) := .inr (.inl rfl)
theorem cJr (a : BitVec 3) : Statement (.cJr a) := .inr (.inl rfl)
theorem eret : Statement (.eret) := .inr (.inr (.inl rfl))
theorem drainst : Statement (.drainst) := .inr (.inr (.inl rfl))
theorem yield : Statement (.yield) := .inr (.inr (.inl rfl))
theorem exit : Statement (.exit) := .inr (.inr (.inl rfl))
theorem nop : Statement (.nop) := .inr (.inr (.inl rfl))
theorem bkpt : Statement (.bkpt) := .inr (.inr (.inl rfl))
theorem halt : Statement (.halt) := .inr (.inr (.inl rfl))
theorem done : Statement (.done) := .inr (.inr (.inl rfl))
theorem mxz : Statement (.mxz) := .inr (.inr (.inl rfl))
theorem audx : Statement (.audx) := .inr (.inr (.inl rfl))
theorem xclr : Statement (.xclr) := .inr (.inr (.inl rfl))
theorem cNop : Statement (.cNop) := .inr (.inl rfl)
theorem cRet : Statement (.cRet) := .inr (.inl rfl)
theorem cExit : Statement (.cExit) := .inr (.inl rfl)
theorem cYield : Statement (.cYield) := .inr (.inl rfl)
theorem cDone : Statement (.cDone) := .inr (.inl rfl)
theorem cBkpt : Statement (.cBkpt) := .inr (.inl rfl)
theorem storeFault : Statement (.storeFault) := .inl rfl
theorem storeFaultRecordArrival : Statement (.storeFaultRecordArrival) := .inl rfl
theorem instructionFetch : Statement (.instructionFetch) := .inl rfl
theorem longLatencyResult : Statement (.longLatencyResult) := .inl rfl
theorem sfuEntryComplete : Statement (.sfuEntryComplete) := .inl rfl
theorem recurrenceComplete : Statement (.recurrenceComplete) := .inl rfl
theorem forwardLand : Statement (.forwardLand) := .inl rfl
theorem multicastFork : Statement (.multicastFork) := .inl rfl
theorem residueBranchSend : Statement (.residueBranchSend) := .inl rfl
theorem occupancyPropagate : Statement (.occupancyPropagate) := .inl rfl
theorem messageInject : Statement (.messageInject) := .inl rfl
theorem spawnPlace : Statement (.spawnPlace) := .inl rfl
theorem flowMessageArrival : Statement (.flowMessageArrival) := .inl rfl
theorem heapProbeDone : Statement (.heapProbeDone) := .inl rfl
theorem activationComplete : Statement (.activationComplete) := .inl rfl
theorem evictionWritebackDone : Statement (.evictionWritebackDone) := .inl rfl
theorem inputQueueCreditReturn : Statement (.inputQueueCreditReturn) := .inl rfl
theorem waystationFull : Statement (.waystationFull) := .inl rfl
theorem remoteMessageArrival : Statement (.remoteMessageArrival) := .inl rfl
theorem handlerStart : Statement (.handlerStart) := .inl rfl
theorem twinItem : Statement (.twinItem) := .inl rfl
theorem compareWindow : Statement (.compareWindow) := .inl rfl
theorem dispatch : Statement (.dispatch) := .inl rfl
theorem swapDelay : Statement (.swapDelay) := .inl rfl
theorem swapOut : Statement (.swapOut) := .inl rfl
theorem strandResume : Statement (.strandResume) := .inl rfl
theorem drainLimit : Statement (.drainLimit) := .inl rfl
theorem forcedSave : Statement (.forcedSave) := .inl rfl
theorem teamRestore : Statement (.teamRestore) := .inl rfl
theorem copyJobComplete : Statement (.copyJobComplete) := .inl rfl
theorem matrixRound : Statement (.matrixRound) := .inl rfl
theorem mxqComplete : Statement (.mxqComplete) := .inl rfl
theorem mxdrRowsTaken : Statement (.mxdrRowsTaken) := .inl rfl
theorem auditSampleComplete : Statement (.auditSampleComplete) := .inl rfl
theorem auditDeadline : Statement (.auditDeadline) := .inl rfl
theorem postedWriteAtOwner : Statement (.postedWriteAtOwner) := .inl rfl
theorem dieViewUpdate : Statement (.dieViewUpdate) := .inl rfl
theorem sliceWriteback : Statement (.sliceWriteback) := .inl rfl
theorem refreshMarker : Statement (.refreshMarker) := .inl rfl
theorem atomicPerform : Statement (.atomicPerform) := .inl rfl
theorem waitReply : Statement (.waitReply) := .inl rfl
theorem counterMessage : Statement (.counterMessage) := .inl rfl
theorem enqRecordArrival : Statement (.enqRecordArrival) := .inl rfl
theorem enqAckArrival : Statement (.enqAckArrival) := .inl rfl
theorem vc3CreditReturn : Statement (.vc3CreditReturn) := .inl rfl
theorem pipeItemArrival : Statement (.pipeItemArrival) := .inl rfl
theorem pipeCreditReturn : Statement (.pipeCreditReturn) := .inl rfl
theorem deadlock : Statement (.deadlock) := .inl rfl
theorem pageMove : Statement (.pageMove) := .inl rfl
theorem migrationPhaseEnd : Statement (.migrationPhaseEnd) := .inl rfl
theorem sramRebuildDone : Statement (.sramRebuildDone) := .inl rfl
theorem patrolScrub : Statement (.patrolScrub) := .inl rfl
theorem containment : Statement (.containment) := .inl rfl
theorem containmentResetDone : Statement (.containmentResetDone) := .inl rfl
theorem cqTail : Statement (.cqTail) := .inl rfl
theorem cqBase : Statement (.cqBase) := .inl rfl
theorem hostRegisterWrite : Statement (.hostRegisterWrite) := .inl rfl
theorem commandTake : Statement (.commandTake) := .inl rfl
theorem launchCommand : Statement (.launchCommand) := .inl rfl
theorem leaseResidency : Statement (.leaseResidency) := .inl rfl
theorem teamStart : Statement (.teamStart) := .inl rfl
theorem messageCommand : Statement (.messageCommand) := .inl rfl
theorem endCommand : Statement (.endCommand) := .inl rfl
theorem endDrainLimit : Statement (.endDrainLimit) := .inl rfl
theorem powerCommand : Statement (.powerCommand) := .inl rfl
theorem powerTransitionDone : Statement (.powerTransitionDone) := .inl rfl
theorem attestCommand : Statement (.attestCommand) := .inl rfl
theorem coldStart : Statement (.coldStart) := .inl rfl
theorem warmStart : Statement (.warmStart) := .inl rfl
theorem startStep : Statement (.startStep) := .inl rfl
theorem thermalTrip : Statement (.thermalTrip) := .inl rfl
theorem eventRingWrite : Statement (.eventRingWrite) := .inl rfl
theorem hostRingDelivery : Statement (.hostRingDelivery) := .inl rfl
theorem uliWindow : Statement (.uliWindow) := .inl rfl
theorem teamEnd : Statement (.teamEnd) := .inl rfl
theorem launchEnded : Statement (.launchEnded) := .inl rfl
theorem dbgHalt : Statement (.dbgHalt) := .inl rfl
theorem dbgResume : Statement (.dbgResume) := .inl rfl
theorem dbgStep : Statement (.dbgStep) := .inl rfl
theorem crossTrigger : Statement (.crossTrigger) := .inl rfl
theorem dbgStrandWrite : Statement (.dbgStrandWrite) := .inl rfl
theorem traceDump : Statement (.traceDump) := .inl rfl
theorem traceSample : Statement (.traceSample) := .inl rfl
theorem hostAccessToDeviceMemory : Statement (.hostAccessToDeviceMemory) := .inl rfl
theorem nSpaceAccessAtTarget : Statement (.nSpaceAccessAtTarget) := .inl rfl
theorem writeAcknowledgement : Statement (.writeAcknowledgement) := .inl rfl
theorem syncEngineOperation : Statement (.syncEngineOperation) := .inl rfl
theorem copyJobElementBlock : Statement (.copyJobElementBlock) := .inl rfl
theorem icinvAcknowledgement : Statement (.icinvAcknowledgement) := .inl rfl
theorem cornerTimeout : Statement (.cornerTimeout) := .inl rfl
theorem softError : Statement (.softError) := .inl rfl
theorem pseudoChannelLoss : Statement (.pseudoChannelLoss) := .inl rfl

end Sys2Proof.Laws.EncodedLength
end

