-- ==== Sys2Proof/Tests/Slice0.lean ====
section
/-! SUPPORT. Tests: ill-formed terms that are refused, words of the manual's own encodings, instructions on small states,
and for each statement states and operands that meet its hypotheses. -/

namespace Sys2Proof.Tests

open Sys2Proof Sys2Proof.Machine

/-! ### Small states -/

/-- A strand in launch mode on core 0, slot 0, of launch 1. -/
def tl : Strand := { live := true, uid := 1, launch := 1 }

/-- A boot strand in supervisor mode. -/
def ts : Strand := { live := true, uid := 1, mode := .supervisor, kind := .boot }

/-- A machine with one strand. -/
def one (t : Strand) : State := { cur := t, nextUid := 2 }

/-- A strand with a value in a register. -/
def Strand.put (t : Strand) (r : BitVec 6) (v : Word) : Strand := t.setG r v

/-- `Clear` as a test. -/
def clearB (t : Strand) (f : Field) : Bool :=
  !f.bad && (!f.src || f.cells.all (fun c => t.cellFull c && !t.cellPend c && t.cellTag c == none))
    && (!f.dst || f.cells.all (fun c => !t.cellPend c))

/-- `Ready` as a test. -/
def readyB (s : State) (i : Issue) : Bool :=
  i.fields.all (clearB s.cur) && (!i.mem || s.cur.hold == 0 && s.caughtUp s.cur) && capCheck s.cur i.cap i.fields i.own == none

theorem clear_of (t : Strand) (f : Field) (h : clearB t f = true) : Clear t f := by
  simp only [clearB, Bool.and_eq_true, Bool.not_eq_true', Bool.or_eq_true, List.all_eq_true, beq_iff_eq] at h
  obtain ⟨⟨hb, hs⟩, hd⟩ := h
  refine ⟨hb, fun hsrc c hc => ?_, fun hdst c hc => ?_⟩
  · rcases hs with hs | hs
    · rw [hsrc] at hs; cases hs
    · obtain ⟨⟨a, b⟩, d⟩ := hs c hc; exact ⟨a, b, d⟩
  · rcases hd with hd | hd
    · rw [hdst] at hd; cases hd
    · exact hd c hc

theorem ready_of {s : State} {i : Issue} (h : readyB s i = true) : Ready s i := by
  simp only [readyB, Bool.and_eq_true, Bool.or_eq_true, List.all_eq_true, beq_iff_eq, Bool.not_eq_true'] at h
  obtain ⟨⟨hf, hm⟩, hc⟩ := h
  refine ⟨fun f hf' => clear_of _ _ (hf f hf'), fun hm' => ?_, hc⟩
  rcases hm with hm | hm
  · rw [hm'] at hm; cases hm
  · exact hm

/-- The bytes an access maps to, or the cause of its fault. -/
def okIs (e : Except Nat (List Nat)) (l : List Nat) : Bool :=
  match e with
  | .ok x => x == l
  | .error _ => false

def errIs (e : Except Nat (List Nat)) (c : Nat) : Bool :=
  match e with
  | .ok _ => false
  | .error x => x == c

/-! ### States and operands that meet the hypotheses of the statements -/

/-- Registers 1 to 3 and a word of three operands. -/
def x3 : A3 := ⟨3, 1, 2, true, false⟩
def x2 : A2 := ⟨3, 1, true⟩
def x1 : A1 := ⟨1, true⟩
def xab : AB := ⟨1, 2, true, false⟩

theorem witness_ScalarTwoSourceResults :
    Ready (one tl) { fields := fields3 x3, cap := .allowed } ∧ Ready (one tl) { fields := fields3 ⟨60, 56, 59, false, true⟩, cap := .allowed } :=
  ⟨ready_of (by decide +kernel), ready_of (by decide +kernel)⟩

theorem witness_ScalarOneSourceResults :
    Ready (one tl) { fields := fields2 x2, cap := .allowed } ∧ (0x60000007 < 2 ^ 32 ∧ 0x60000007 % 128 = 7 ∧ 12 ≤ 0x60000007 / 2 ^ 27) :=
  ⟨ready_of (by decide +kernel), by decide⟩

theorem witness_ImmediateResults :
    Ready (one tl) { fields := fields2 x2, cap := .allowed } ∧ Ready (one tl) { fields := [.d 60 7], cap := .allowed } :=
  ⟨ready_of (by decide +kernel), ready_of (by decide +kernel)⟩

theorem witness_CompactResults :
    Ready (one tl) { fields := [.s (c3 7) false 9, .s (c3 0) false 12, .d (c3 7) 6] }
    ∧ Ready (one tl) { fields := [.s (c3 7) false 9, .d (c3 0) 6] } ∧ Ready (one tl) { fields := [.d (c3 7) 6] } :=
  ⟨ready_of (by decide +kernel), ready_of (by decide +kernel), ready_of (by decide +kernel)⟩

theorem witness_BitfieldAndExtensionResults :
    Ready (one tl) { fields := fields2 x2 } ∧ Ready (one tl) { fields := [.s 1 true 14, .sd 3 false 7] }
    ∧ Ready (one tl) { fields := [.d 3 7] } ∧ Ready (one tl) { fields := [.s 60 false 14] } ∧ Ready (one tl) { } :=
  ⟨ready_of (by decide +kernel), ready_of (by decide +kernel), ready_of (by decide +kernel), ready_of (by decide +kernel),
    ready_of (by decide +kernel)⟩

theorem witness_Branches :
    Ready (one tl) { fields := [.s 60 false 7], cap := .allowed } ∧ Ready (one tl) { fields := [.sd 1 true 7], cap := .allowed }
    ∧ (56 ≤ (59 : BitVec 6).toNat ∧ (59 : BitVec 6).toNat < 60) ∧ Ready (one tl) { fields := [.s (c3 1) false 5] } :=
  ⟨ready_of (by decide +kernel), ready_of (by decide +kernel), by decide, ready_of (by decide +kernel)⟩

theorem witness_JumpsAndLinks :
    Ready (one tl) { fields := [.d 46 7] } ∧ Ready (one tl) { fields := [.s 1 true 14] } ∧ Ready (one tl) { fields := fields2 x2 }
    ∧ Ready (one tl) { fields := [.s 46 false 0] } ∧ Ready (one tl) { fields := [.s (c3 7) false 6] } :=
  ⟨ready_of (by decide +kernel), ready_of (by decide +kernel), ready_of (by decide +kernel), ready_of (by decide +kernel),
    ready_of (by decide +kernel)⟩

theorem witness_ControlInstructions :
    Ready (one tl) { cap := .allowed } ∧ (Ready (one ts) { } ∧ (one ts).cur.mode = .supervisor) ∧ (one tl).cur.mode = .launch
    ∧ (Ready (one tl) { } ∧ (one tl).cur.modeStatus.getLsbD 8 = false)
    ∧ (Ready (one { tl with status := 0x100 }) { } ∧ (one { tl with status := 0x100 }).cur.status.getLsbD 8 = true)
    ∧ (Ready (one { ts with svStatus := 0x100 }) { } ∧ (one { ts with svStatus := 0x100 }).cur.svStatus.getLsbD 8 = true) :=
  ⟨ready_of (by decide +kernel), ⟨ready_of (by decide +kernel), rfl⟩, rfl, ⟨ready_of (by decide +kernel), by decide⟩,
    ⟨ready_of (by decide +kernel), by decide⟩, ⟨ready_of (by decide +kernel), by decide⟩⟩

/-- A vector operation of the strand whose flags are not yet raised. -/
def sfu1 : State := { one tl with sfu := [{ core := 0, strand := 1, vd := 0 }] }

theorem witness_ControlRegisterReads :
    Ready (one tl) { fields := [.d 3 7] } ∧ (one tl).flagsPending = false ∧ (Ready sfu1 { fields := [.d 3 7] } ∧ sfu1.flagsPending = true)
    ∧ 36 ≤ (36 : BitVec 6).toNat ∧ (Ready (one ts) { fields := [.d 3 7] } ∧ (one ts).cur.mode = .supervisor)
    ∧ (one tl).cur.mode = .launch ∧ 9 ≤ (9 : BitVec 6).toNat :=
  ⟨ready_of (by decide +kernel), by decide +kernel, ⟨ready_of (by decide +kernel), by decide +kernel⟩, by decide,
    ⟨ready_of (by decide +kernel), rfl⟩, rfl, by decide⟩

theorem witness_ControlRegisterWrites :
    Ready (one tl) { fields := [.s 1 true 14] } ∧ (one tl).flagsPending = false
    ∧ ((35 : BitVec 6).toNat < 36 ∧ (30 : BitVec 6).toNat ∉ [5, 18, 19, 20, 21, 22, 23, 24, 25, 26, 31, 32, 33, 34, 35])
    ∧ (Ready (one ts) { fields := [.s 1 true 14] } ∧ (one ts).cur.mode = .supervisor) ∧ (one tl).cur.mode = .launch
    ∧ (22 : BitVec 6).toNat ∈ [5, 19, 20, 21, 22] ∧ 36 ≤ (63 : BitVec 6).toNat :=
  ⟨ready_of (by decide +kernel), by decide +kernel, by decide, ⟨ready_of (by decide +kernel), rfl⟩, rfl, by decide, by decide⟩

theorem witness_ScratchpadLoads :
    Ready (one (tl.setG 1 262136)) { fields := [.s 1 false 14, dstField 3 3], mem := true, cap := capSize 3 }
    ∧ ((one (tl.setG 1 262136)).cur.val 1).toNat + 8 ≤ 262144 ∧ ((one (tl.setG 1 262136)).cur.val 1).toNat % 8 = 0
    ∧ 262144 < ((one (tl.setG 1 262137)).cur.val 1).toNat + 8
    ∧ (((one (tl.setG 1 4)).cur.val 1).toNat + 8 ≤ 262144 ∧ ((one (tl.setG 1 4)).cur.val 1).toNat % 8 ≠ 0)
    ∧ Ready (one (tl.setG 1 262141)) { fields := [.s 1 false 14, dstField 6 3], mem := true, cap := capSize 6 }
    ∧ Ready (one tl) { fields := [.s 1 false 14, dstField 4 3], mem := true, cap := capSize 4 }
    ∧ Ready (one tl) { fields := [.s (c3 1) false 8, .d (c3 3) 7], mem := true } :=
  ⟨ready_of (by decide +kernel), by decide +kernel, by decide +kernel, by decide +kernel, by decide +kernel,
    ready_of (by decide +kernel), ready_of (by decide +kernel), ready_of (by decide +kernel)⟩

theorem witness_ScratchpadStores :
    Mem.wf (one tl).spad = true
    ∧ Ready (one (tl.setG 1 262136)) { fields := [.s 1 false 14, dataField 3 3], mem := true, cap := capSize 3 }
    ∧ Ready (one tl) { fields := [.s 1 false 14, dataField 4 3], mem := true, cap := capSize 4 }
    ∧ Ready (one tl) { fields := [.s 1 false 14, dataField 5 3], mem := true, cap := capSize 5 }
    ∧ Ready (one tl) { fields := [.s (c3 1) false 8, .s (c3 3) false 7], mem := true } :=
  ⟨rfl, ready_of (by decide +kernel), ready_of (by decide +kernel), ready_of (by decide +kernel), ready_of (by decide +kernel)⟩

/-- A strand with a carve-out of 24 bytes at 64, whose TOP and count of records in the overflow area are given. -/
def spill (top ovf : Nat) : State :=
  { one { tl with spillBase := 64, spillSize := 24, overflowPtr := 0x1000, overflowStride := 16 } with
    spad := Mem.write [] 64 8 (ovf * 2 ^ 32 + top) }

theorem witness_SpillStack :
    (Mem.wf (spill 8 0).spad = true ∧ Ready (spill 8 0) { fields := [.s 1 false 7], mem := true, cap := .allowed }
      ∧ Ready (spill 8 0) { fields := [.d 1 7], mem := true, cap := .allowed })
    ∧ (one tl).cur.spillSize = 0
    ∧ (0 < (spill 8 0).cur.spillSize ∧ Mem.read (spill 8 0).spad 64 8 % 2 ^ 32 = 8 ∧ Mem.read (spill 8 0).spad 64 8 / 2 ^ 32 = 0
      ∧ 8 < (spill 8 0).cur.spillSize)
    ∧ Mem.read (spill 32 0).spad 64 8 % 2 ^ 32 = 32 ∧ Mem.read (spill 16 0).spad 64 8 % 2 ^ 32 = 16
    ∧ (Mem.wf (spill 24 1).spad = true ∧ (spill 24 1).cur.cap.mode = .none ∧ Mem.read (spill 24 1).spad 64 8 % 2 ^ 32 = 24
      ∧ Mem.read (spill 24 1).spad 64 8 / 2 ^ 32 = 1 ∧ 1 * 8 < (spill 24 1).cur.overflowStride
      ∧ (spill 24 2).cur.overflowStride ≤ 2 * 8 ∧ (spill 24 1).accessBefore 1 2 (0x1000 - 8) 8 = false
      ∧ (spill 24 1).readStalls (0x1000 - 8) 8 = false) :=
  ⟨⟨by decide +kernel, ready_of (by decide +kernel), ready_of (by decide +kernel)⟩, by decide +kernel, by decide +kernel,
    by decide +kernel, by decide +kernel, by decide +kernel⟩

/-- A handler whose record of 64 bytes stands at 128. -/
def actor : State := one { tl with kind := .handler, actorBase := 128, actorSize := 64 }

/-- A launch with 8 bytes of parameters. -/
def launch1 (stage : LaunchStage) : Launch :=
  { id := 1, slot := 0, stage := stage, m := { paramSize := 8, kernels := [{ teams := 2, strands := 1 }] } }

theorem witness_RecordAndParameterAccesses :
    Mem.wf actor.spad = true
    ∧ (Ready actor { fields := [dstField 3 3], mem := true } ∧ Ready actor { fields := [dataField 3 3], mem := true }
      ∧ 0 < actor.cur.actorSize ∧ 7 * 8 + 8 ≤ actor.cur.actorSize ∧ (actor.cur.actorBase + 7 * 8) % 8 = 0)
    ∧ ¬ (8 * 8 + 8 ≤ actor.cur.actorSize)
    ∧ (Ready actor { fields := [.d (c3 3) 7], mem := true } ∧ Ready actor { fields := [.s (c3 3) false 7], mem := true })
    ∧ ({ one tl with launches := [launch1 .live] } : State).launch? 1 = some (launch1 .live)
    ∧ Ready { one tl with launches := [launch1 .live] } { fields := [dstField 3 3], mem := true, cap := .allowed }
    ∧ (0x40 + 8 ≤ 0x40 + (launch1 .live).m.paramSize ∧ 0x40 % 8 = 0 ∧ 0x40 + (launch1 .live).m.paramSize < 0x48 + 8
      ∧ 0x3C + 8 ≤ 0x40 + (launch1 .live).m.paramSize ∧ 0x3C % 8 ≠ 0) :=
  ⟨rfl, ⟨ready_of (by decide +kernel), ready_of (by decide +kernel), by decide +kernel⟩, by decide +kernel,
    ⟨ready_of (by decide +kernel), ready_of (by decide +kernel)⟩, by decide +kernel, ready_of (by decide +kernel), by decide⟩

/-- Two teams of a kernel, on cores 0 and 1. -/
def teams (second : Bool) : State :=
  { one tl with
    launches := [launch1 .live],
    holds := [{ core := 0, launch := 1, started := true }, { core := 1, launch := 1, team := 1, idx := 1, started := second }] }

theorem witness_SiblingAccesses :
    ∀ b : Bool, (Ready (teams b) { fields := [.s 1 false 14, .s 2 false 21, dstField 3 3], mem := true }
      ∧ Ready (teams b) { fields := [.s 1 false 14, .s 2 false 21, dataField 3 3], mem := true })
    ∧ ∃ h g k, (teams b).holdOf 0 1 = some h ∧ (teams b).kernelOf h.launch h.kernel = some k ∧ k.teams = 2
      ∧ (teams b).sibling h 1 = some g ∧ g.started = b ∧ (teams b).nFlowFull 0 g.core = false
      ∧ ({ teams b with nops := (List.range 32).map (fun n => { uid := n, core := 0, target := 1 }) } : State).nFlowFull 0 g.core = true := by
  intro b
  refine ⟨⟨?_, ?_⟩, ?_⟩
  · cases b <;> exact ready_of (by decide +kernel)
  · cases b <;> exact ready_of (by decide +kernel)
  · refine ⟨{ core := 0, launch := 1, started := true }, { core := 1, launch := 1, team := 1, idx := 1, started := b },
      { teams := 2, strands := 1 }, ?_⟩
    cases b <;> decide +kernel

theorem witness_GlobalAndHostAccesses :
    (one tl).cur.cap.mode = .none
    ∧ Ready (one tl) { fields := [.s 1 false 14, dstField 3 3], mem := true }
    ∧ Ready (one tl) { fields := [.s 1 false 14, dataField 6 3], mem := true }
    ∧ Ready (one tl) { fields := [.s 1 false 14], mem := true, cap := .allowed }
    ∧ ((one (tl.setG 1 8)).cur.val 1).toNat % 8 = 0 ∧ ((one (tl.setG 1 4)).cur.val 1).toNat % 8 ≠ 0
    ∧ Ready (one tl) { fields := [.s 1 false 14, .d 3 7], mem := true }
    ∧ Ready (one tl) { fields := [.s 1 false 14, .s 3 false 7], mem := true } :=
  ⟨rfl, ready_of (by decide +kernel), ready_of (by decide +kernel), ready_of (by decide +kernel), by decide +kernel,
    by decide +kernel, ready_of (by decide +kernel), ready_of (by decide +kernel)⟩
/-- A vector word on v1, and v2 or g3, to vd 4; one of the recurrences with its carry in v5. -/
def xv : VOp := ⟨some ⟨false, false, 5, 0, false, true, 1⟩, 0, 2, false, 1, false, 4⟩
def xg : VOp := { xv with b := 35 }
def xr (a b : BitVec 6) : VOp := { xv with a := a, b := b, vd := 31 }

theorem witness_VectorArithmetic :
    Ready (one tl) { fields := [xv.fa, xv.fb, xv.fd] } ∧ Ready (one tl) { fields := [xv.fa, xv.fb, xv.fc, xv.fd] } :=
  ⟨ready_of (by decide +kernel), ready_of (by decide +kernel)⟩

theorem witness_VectorMinMaxSignAndBits :
    Ready (one tl) { fields := [xv.fa, xv.fb, xv.fd] } ∧ (7 : BitVec 3).toNat ∈ [3, 4, 5, 6, 7]
    ∧ Ready (one tl) { fields := [xv.fa, xv.fd] } :=
  ⟨ready_of (by decide +kernel), by decide, ready_of (by decide +kernel)⟩

theorem witness_VectorComparisons : Ready (one tl) { fields := [xv.fa, xv.fb] } := ready_of (by decide +kernel)

theorem witness_MaskInstructions :
    Ready (one tl) { } ∧ (Ready (one tl) { fields := [xg.fb] } ∧ 32 ≤ xg.b.toNat) ∧ Ready (one tl) { fields := [.gd xv.vd] } :=
  ⟨ready_of (by decide +kernel), ⟨ready_of (by decide +kernel), by decide⟩, ready_of (by decide +kernel)⟩

theorem witness_VectorMovesAndConversions :
    (Ready (one tl) { fields := [xv.fa, xv.fb, xv.fd] } ∧ xv.b.toNat < 32)
    ∧ (Ready (one tl) { fields := [xg.fa, xg.fb, xg.fd] } ∧ 32 ≤ xg.b.toNat) ∧ Ready (one tl) { fields := [xv.fa, xv.fd] }
    ∧ Ready (one tl) { fields := [xv.fd] } ∧ Ready (one tl) { fields := [xg.fa, xg.fb, .gd xg.vd] }
    ∧ (Ready (one tl) { fields := [{ xg with a := 32 }.fa, xg.fb, .vd xg.vd true] } ∧ 32 ≤ (32 : BitVec 6).toNat) :=
  ⟨⟨ready_of (by decide +kernel), by decide⟩, ⟨ready_of (by decide +kernel), by decide⟩, ready_of (by decide +kernel),
    ready_of (by decide +kernel), ready_of (by decide +kernel), ready_of (by decide +kernel), by decide⟩

theorem witness_ReductionsScansAndDots :
    Ready (one tl) { fields := [xv.fa, xv.fd] }
    ∧ (Ready (one tl) { fields := [xv.fa, xv.fb, .vd xv.vd true] } ∧ (7 : BitVec 3).toNat ∈ [1, 2, 6, 7]) :=
  ⟨ready_of (by decide +kernel), ready_of (by decide +kernel), by decide⟩

/-- A core whose special-function unit is full. -/
def sfu8 : State := { one tl with sfu := List.replicate 8 { core := 0, strand := 1, vd := 9 } }

theorem witness_SpecialFunctionsQueue :
    (Ready (one tl) { fields := [xv.fa, xv.fd] } ∧ ((one tl).sfu.filter (fun e => e.core == 0)).length < 8)
    ∧ (Ready sfu8 { fields := [xv.fa, xv.fd] } ∧ 8 ≤ (sfu8.sfu.filter (fun e => e.core == 0)).length)
    ∧ Ready (one tl) { fields := [xv.fa, xv.fb, xv.fd] } :=
  ⟨⟨ready_of (by decide +kernel), by decide +kernel⟩, ⟨ready_of (by decide +kernel), by decide +kernel⟩,
    ready_of (by decide +kernel)⟩

/-- A core whose recurrence unit is taken. -/
def rec1 : State := { one tl with recs := [{ core := 0, strand := 2, rows := [(3, 1), (5, 2)] }] }

theorem witness_RecurrenceInstructions :
    (xr 1 2).p.c.toNat < 32
    ∧ (Ready (one tl) { fields := [rangeField 1 false 0 1, rangeField 2 false 0 1] ++ recFields (xr 1 2) }
      ∧ (one tl).recs.any (fun e => e.core == 0) = false)
    ∧ (Ready rec1 { fields := [(xr 1 2).fa, rangeField 2 false 0 1] ++ recFields (xr 1 2) }
      ∧ rec1.recs.any (fun e => e.core == 0) = true)
    ∧ Ready (one tl) { fields := [xv.fa, xv.fb, xv.fc, xv.fd] } :=
  ⟨by decide, ⟨ready_of (by decide +kernel), by decide +kernel⟩, ⟨ready_of (by decide +kernel), by decide +kernel⟩,
    ready_of (by decide +kernel)⟩

theorem witness_ForwardsToNeighbours :
    (Ready (teams true) { fields := [.s 1 false 14, { spec := 48, lsb := 7, scalar := true, dst := true, src := false }], mem := true }
      ∧ (teams true).neighbour 0 1 = some 1 ∧ (teams true).hasTeam 1 1 = true ∧ (teams true).isFenced 1 = false)
    ∧ (one tl).neighbour 0 3 = none
    ∧ ((one tl).neighbour 0 1 = some 1 ∧ (one tl).hasTeam 1 1 = false ∧ (one tl).cur.mode = .launch)
    ∧ ({ one ts with fenced := [{ h := 1, w := 2 }] } : State).isFenced 1 = true
    ∧ Ready (one tl) { fields := [({ spec := 4, cells := [64 + 4] } : Field)] }
    ∧ ((48 : BitVec 6).toNat < 56 ∧ Ready (one tl) { fields := [.d 48 7], mem := true })
    ∧ Ready (one tl) { fields := [.vd 4 false] } :=
  ⟨⟨ready_of (by decide +kernel), by decide +kernel⟩, by decide +kernel, by decide +kernel, by decide +kernel,
    ready_of (by decide +kernel), ⟨by decide, ready_of (by decide +kernel)⟩, ready_of (by decide +kernel)⟩

/-- A forward to a k register that waits for it, from the strand of the core to the west. -/
def fwd1 : State :=
  { teams true with
    cur := { tl with gk := tl.gk.set 49 { full := false, mark := true } }
    strands := [{ tl with uid := 2, core := 1, wait := { kind := .fwd, n := 2 } }]
    fwds := [{ sender := 2, launch := 1, src := 1, core := 0, slot := 0, reg := 49, val := 7 }]
    pick := [0] }

theorem witness_CompletionsInTheCore :
    (sfu1.sfu.find? (fun e => e.core == sfu1.arg 0) = some { core := 0, strand := 1, vd := 0 } ∧ sfu1.cur.live = true ∧ sfu1.cur.uid = 1)
    ∧ (({ rec1 with cur := { tl with uid := 2 } } : State).recs.find? (fun e => e.core == 0)
        = some { core := 0, strand := 2, rows := [(3, 1), (5, 2)] } ∧ ([3, 5] : List Nat).Nodup)
    ∧ (∃ f u, fwd1.fwds[fwd1.arg 0]? = some f ∧ fwd1.fwdTarget f = some u ∧ fwd1.cur.live = true ∧ fwd1.cur.uid = u.uid
        ∧ u.uid ≠ f.sender ∧ 48 ≤ f.reg ∧ f.reg < 56) := by
  refine ⟨by decide +kernel, by decide +kernel, ?_⟩
  refine ⟨{ sender := 2, launch := 1, src := 1, core := 0, slot := 0, reg := 49, val := 7 }, fwd1.cur, ?_⟩
  decide +kernel
/-- A machine in the start map, in which every die's memory is mapped to itself, with a boot strand. -/
def mapped : State := { one ts with dies := Vector.replicate 4 { startMap := true } }

/-- The boot strand inside a FENCE that has sent its markers. -/
def fencing : State :=
  { one { ts with wait := { kind := .again, n := 1 } } with markers := [{ strand := 1, src := 0, dst := 1, pos := some 1 }] }

/-- A strand with a store that is still to be performed, and a load that is still out. -/
def out1 : State :=
  { one ts with
    stores := [{ uid := 2, ord := 2, strand := 1 }]
    pends := [{ uid := 3, strand := 1 }]
    nextUid := 4 }

/-- A store of the boot strand to an address of die 0 or of die 1, in a scope and a stage; the owner in the start map. -/
def storing (a scope : Nat) (stage : StoreStage) (clock : List Nat) : State :=
  { mapped with
    stores := [{ uid := 2, ord := 2, strand := 1, sup := true, addr := a, size := 8, val := 5, mask := 2 ^ 64 - 1, scope := scope,
                 stage := stage, clock := clock, base := a, span := 8 }]
    pick := [0] }

theorem witness_FencesAndDrains :
    (Ready (one ts) { } ∧ (one ts).cur.wait = { } ∧ (one ts).released 5 = true ∧ (one ts).returned = true
      ∧ (one ts).drained 1 = true)
    ∧ (Ready out1 { } ∧ out1.cur.wait = { } ∧ out1.released 3 = false ∧ out1.returned = false ∧ out1.drained 1 = false)
    ∧ (Ready fencing { } ∧ fencing.cur.wait.kind = .again ∧ fencing.cur.wait.n = 1
      ∧ ∀ m, m ∈ fencing.markers → m.strand = 1 → fencing.markerDone m = true)
    ∧ Ready (one (ts.setG 2 8)) { fields := [.s 1 false 14, .s 2 false 21] }
    ∧ ({ one ts with icinvs := [(1, 3, 0, 2)], pick := [0, 0] } : State).bySlot 0 0 = some ts
    ∧ ((one ts).writtenBack 1 = true ∧ (out1.stores.all (fun st => !st.beforeIcinv 1 3)) = false
      ∧ (storing 64 3 .applied []).stores.all (fun st => !st.beforeIcinv 1 3) = true) :=
  ⟨⟨ready_of (by decide +kernel), by decide +kernel⟩, ⟨ready_of (by decide +kernel), by decide +kernel⟩,
    ⟨ready_of (by decide +kernel), by decide +kernel⟩, ready_of (by decide +kernel), by decide +kernel, by decide +kernel⟩

/-- An acknowledgement, and an update for die 1, on their way. -/
def updating : State :=
  { mapped with
    updates := [{ kind := .ack, store := 2 }, { die := 1, writer := 0, addr := 8, size := 8, clock := [1, 0, 0, 0], pos := 1 }]
    pick := [1, 1, 1] }

theorem witness_StoresAndMemorySide :
    [(64, 3), (64, 2), (2 ^ 50, 4)].all (fun p => let s := storing p.1 p.2 .issued []
     s.arg 1 == 0 && s.stores[s.arg 2]?.any (fun x => let u := s.touch x.cls x.addr
      dieOf x.core == s.arg 0 && s.mayPerform x && !inWindow x.addr && x.scope == p.2 && !x.rel && decide (x.core < 4096)
      && (ownerOf x.addr == dieOf x.core) == (p.1 == 64) && u.accessFault x == none && (match u.storeKeys x with
        | .ok ks => !u.mustStall x.arr x.cls x.addr ks
        | .error _ => false)))
    ∧ (let s := storing (2 ^ 52) 2 .issued []
       s.stores[0]?.any (fun x => s.mayPerform x && !inWindow x.addr && x.origin != .engine
        && (s.touch x.cls x.addr).accessFault x == some 6))
    ∧ (let s := storing (2 ^ 50) 4 .sent [1, 0, 0, 0]
       s.stores[0]?.any (fun x => let u := s.touch x.cls x.addr
        x.origin != .sth && x.stage == .sent && s.clockReady (ownerOf x.addr) (dieOf x.core) x.clock
        && u.elementsPass x && u.accessFault x == none && !x.lost && x.more.isEmpty && !x.spoils
        && (match u.keys { sup := true, cls := x.cls } .w x.addr x.size with
          | .ok ks => !u.mustStall x.arr x.cls x.addr ks
          | .error _ => false)))
    ∧ (let s := { mapped with stores := [{ uid := 2, ord := 2, strand := 1, origin := .sth, addr := 64, size := 8 }] }
       s.stores[0]?.any (fun x => x.origin == .sth && !s.hBefore x.strand x.ord && !x.rel && !s.hostRefuses x.addr x.size))
    ∧ updating.updates[0]?.any (fun u => u.kind == .ack)
    ∧ (updating.arg 1 ≠ 0 ∧ updating.updates[1]?.any (fun u => u.kind == .update && u.die == updating.arg 0
        && updating.clockReady u.die u.writer u.clock)) := by
  decide +kernel

theorem witness_StoresAndMemorySide_boundary :
    mapped.lineFrozen 0 1 = false
    ∧ fencing.markers.length = 1
    ∧ (let s := { one tl with faultMsgs := [{ strand := 1, r := ⟨8, 0, BitVec.ofNat 64 (6 * 2 ^ 16)⟩ }] }
       s.faultMsgs[0]?.any (fun f => f.r.cause != 5 && s.cur.live && s.cur.uid == f.strand) ∧ s.cur.sfq.length < 8)
    ∧ (one { tl with sfq := List.replicate 8 ⟨8, 0, 0⟩ }).cur.sfq.length = 8
    ∧ (let s := one { tl with sfq := [⟨8, 0, 0⟩] }
       s.cur.sfDue = true ∧ s.cur.ending = none ∧ s.cur.haltReq = false ∧ s.cur.preTrap = none ∧ s.insideRecv = false
       ∧ s.cur.sfq.find? (fun r => !r.rpt) = some ⟨8, 0, 0⟩)
    ∧ (let s : State := { one tl with nops := [{ uid := 2, strand := 1, store := true, target := 1, addr := 262136, size := 8 }] }
       s.nops[0]?.any (fun n => !s.isFenced n.target && !s.dead.contains n.target && s.nops.all (fun m => !(m.uid < n.uid)) && n.store && Mem.wf s.spad
        && !s.rebuilding n.target n.addr n.size && !s.spadSoft n.target n.addr n.size
        && !s.badWords.any (fun w => w.core == n.target && !w.row && overlap w.addr 8 n.addr n.size))) := by
  decide +kernel

/-- An atomic of the boot strand at address 64. -/
def atomic1 (a : Nat) (clock : Option (List Nat)) : State :=
  { mapped with pends := [{ uid := 2, strand := 1, sup := true, dst := 3, op := .atomic 0 a 4 1 0 true, clock := clock, inj := 2 }], pick := [0, 0] }

theorem witness_Atomics :
    Ready (one tl) { fields := [.s 1 false 14, .s 2 false 21, .d 60 7], mem := true }
    ∧ Ready (one tl) { fields := [.s 1 false 14, .s 2 false 21, .d 3 7], mem := true }
    ∧ ((one (tl.setG 1 4)).cur.val 1).toNat % 8 ≠ 0
    ∧ (let s := atomic1 64 none
       s.pends[s.arg 1]?.any (fun p => p.clock == none && s.arMay p.strand p.uid p.core))
    ∧ (let s := atomic1 64 (some [0, 0, 0, 0])
       s.pends[0]?.any (fun p => s.atomicMay p.strand p.uid p.core p.inj 64 4 [0, 0, 0, 0] && !inWindow 64
        && okIs (s.keys (s.reqPend p 64) .rw 64 4) (keysFrom 64 4) && !s.uncorrectable (keysFrom 64 4)
        && !s.mustStall p.arr (s.reqPend p 64).cls 64 (keysFrom 64 4)) ∧ s.slices = [] ∧ s.touch 0 64 = s)
    ∧ (let s := atomic1 (2 ^ 52) (some [0, 0, 0, 0])
       s.pends[0]?.any (fun p => s.atomicMay p.strand p.uid p.core p.inj (2 ^ 52) 4 [0, 0, 0, 0] && !inWindow (2 ^ 52)
        && errIs ((s.touch (s.reqPend p (2 ^ 52)).cls (2 ^ 52)).keys (s.reqPend p (2 ^ 52)) .rw (2 ^ 52) 4) 6)) :=
  ⟨ready_of (by decide +kernel), ready_of (by decide +kernel), by decide +kernel, by decide +kernel, by decide +kernel,
    by decide +kernel⟩

/-- A wait of the boot strand, and one that has found its value. -/
def wait1 (found : Option Nat) : State :=
  { one { ts with wait := { kind := .sync, n := 2 } } with
    dies := Vector.replicate 4 { startMap := true }
    waits := [{ uid := 2, strand := 1, sup := true, addr := 64, cond := 1, c := 0, dst := 3, arrived := found.isSome, found := found }]
    pick := [0, 0] }

theorem witness_WaitsAndReplies :
    Ready (one tl) { fields := [.s 1 false 14, .s 2 false 21, .d 3 7], mem := true }
    ∧ (let s := wait1 none
       s.waits[s.arg 1]?.any (fun w => let u := s.touch (s.reqOf w.core w.launch w.sup false w.addr).cls w.addr
        !w.arrived && s.causal w.addr w.clock && !s.notAtOwner w.strand w.uid w.addr 4 && !s.earlier w.strand w.uid w.addr 4
        && !s.injectedBefore w.core w.uid w.addr 4 && !s.readStalls w.addr 4 && !inWindow w.addr
        && okIs (u.keys (s.reqOf w.core w.launch w.sup false w.addr) .r w.addr 4) (keysFrom 64 4)
        && !u.uncorrectable (keysFrom 64 4)))
    ∧ (let s := wait1 (some 0)
       s.waits[0]?.any (fun w => w.found == some 0 && !s.repliedFirst w && s.cur.live && s.cur.uid == w.strand)) :=
  ⟨ready_of (by decide +kernel), by decide +kernel, by decide +kernel⟩

/-- The boot strand with an address in g1 and `c` in g2, in the start map. -/
def toWait (c : Word) : State := { mapped with cur := (ts.setG 1 64).setG 2 c }

/-- The machine of `arming`: a strand whose JOININIT has come to the engine, of a counter that is not armed. -/
def arming : State :=
  { one { tl with wait := { kind := .sync, n := 2, len := 4 } } with
    counters := [{ launch := 1, index := 0 }]
    syncs := [{ uid := 2, strand := 1, launch := 1, op := .joininit (2 ^ 48) 3 1 0 [] }]
    pick := [1, 0] }

theorem witness_WaitsComplete :
    ([0, 1, 2].all (fun c => let s := toWait (if c = 0 then 5 else 0)
      let u := s.touch (s.reqOf 0 0 true false 64).cls 64
      readyB s { fields := [.s 1 false 14, .s 2 false 21, .d 3 7], mem := true } && s.cur.live && (s.cur.val 1).toNat == 64 && !inWindow 64
      && s.causal 64 (s.die 0).clock && !s.notAtOwner 1 2 64 4 && !s.earlier 1 2 64 4 && !s.injectedBefore 0 2 64 4 && !s.readStalls 64 4
      && s.waits.isEmpty && okIs (u.keys (s.reqOf 0 0 true false 64) .r 64 4) (keysFrom 64 4) && !u.uncorrectable (keysFrom 64 4)
      && decide (waitHolds c ((s.cur.val 2).toNat % 2 ^ 32) (u.ownRead (keysFrom 64 4)))))
    ∧ (arming.arg 0 = 1 ∧ arming.syncs[arming.arg 1]?.any (fun q => q.op == .joininit (2 ^ 48) 3 1 0 [] && arming.cur.live
        && arming.cur.uid == q.strand && (arming.counter? q.launch (2 ^ 48 % 4096)).any (fun j => !j.armed && !j.failed))) := by
  decide +kernel

/-- A strand in an open capsule, and in one that has been displaced. -/
def cap1 (mode : CapMode) : State := one { tl with cap := { mode := mode, l := 128 } }

/-- A launch with four join counters and a queue, that uses cluster 0. -/
def joins : State :=
  { one ((tl.setG 1 (2 ^ 48)).setG 3 (2 ^ 32 + 1)) with
    launches := [{ launch1 .live with m := { joinCount := 4, queues := [{ q := 1 }] }, clusters := [0] }]
    holds := [{ core := 0, launch := 1, started := true }] }

theorem witness_CapsuleInstructionsIssue :
    (Ready (one tl) { fields := fields2 x2, mem := true, cap := .opens }
      ∧ Ready (one tl) { fields := fields2 x2 ++ [cregField 40], mem := true, cap := .opens }
      ∧ Ready (one tl) { fields := fields2 x2 ++ [cregDest], mem := true, cap := .opens } ∧ ((one tl).cur.val 1).toNat % 128 = 0
      ∧ ((one (tl.setG 1 64)).cur.val 1).toNat % 128 ≠ 0)
    ∧ Ready (one tl) { fields := fields3 x3, mem := true, cap := .opens }
    ∧ (Ready (one tl) { fields := [.d 3 7, cregField 3], mem := true, cap := .allowed } ∧ (one tl).cur.cap.mode = .none)
    ∧ (Ready (cap1 .opened) { fields := [.d 40 7, cregField 40], mem := true, cap := .allowed } ∧ (cap1 .opened).cur.cap.mode = .opened)
    ∧ (Ready (cap1 .displaced) { fields := [.d 40 7, cregField 40], mem := true, cap := .allowed } ∧ (cap1 .displaced).cur.cap.viaCapa = false)
    ∧ Ready (cap1 .opened) { fields := fields2 ⟨40, 41, false⟩, mem := true, cap := .allowed }
    ∧ (Ready joins { fields := [.s 1 false 14, .s 2 false 21, .sd 3 false 7], mem := true }
      ∧ joins.badHandle 1 (joins.cur.val 1).toNat = false ∧ joins.counterFailed 1 (joins.cur.val 1).toNat = false
      ∧ (joins.cur.val 3).toNat < 2 ^ 36 ∧ (joins.cur.val 3).toNat % 2 ^ 32 ≠ 0 ∧ (joins.cur.val 2).toNat % 64 = 0)
    ∧ joins.badHandle 1 (2 ^ 48 + 4) = true :=
  ⟨⟨ready_of (by decide +kernel), ready_of (by decide +kernel), ready_of (by decide +kernel), by decide +kernel⟩,
    ready_of (by decide +kernel), ⟨ready_of (by decide +kernel), rfl⟩, ⟨ready_of (by decide +kernel), rfl⟩, ⟨ready_of (by decide +kernel), rfl⟩, ready_of (by decide +kernel),
    ⟨ready_of (by decide +kernel), by decide +kernel⟩, by decide +kernel⟩

/-- The strand of `joins` with a ticket out, or acknowledged. -/
def ticket (pend : List Nat) : State := { joins with cur := { tl with tickets := 1, ackPend := pend } }

theorem witness_QueueForms :
    (Ready joins { fields := [.s 2 false 14, .s 4 false 21], mem := true } ∧ joins.usesCluster 1 0 = true ∧ joins.usesCluster 1 63 = false
      ∧ joins.enqStalls 0 1 1 0 = false)
    ∧ Ready joins { fields := fields3 ⟨5, 2, 4, false, false⟩, mem := true }
    ∧ (let q : Queue := { launch := 1, q := 1, cluster := 0, hw := List.replicate 64 { }, ring := List.replicate 256 { } }
       ({ joins with queues := [q] } : State).enqStalls 0 1 1 0 = true)
    ∧ (Ready (ticket [0]) { fields := fields2 x2, mem := true } ∧ (ticket [0]).cur.knowsTicket 0 = true ∧ (ticket []).cur.knowsTicket 0 = true
      ∧ 0 ∈ (ticket [0]).cur.ackPend ∧ (ticket []).cur.knowsTicket 1 = false)
    ∧ (joins.cur.isHandler = false ∧ actor.cur.isHandler = true ∧ joins.cur.heldRec = none ∧ 0x3FFC0 % 64 = 0)
    ∧ (Ready actor { fields := fields3 x3, mem := true, cap := .unchecked }
      ∧ Ready actor { fields := [.s 1 false 14, suspField], cap := .unchecked })
    ∧ (Ready joins { fields := [.s 1 false 14, suspField] } ∧ Ready joins { fields := [.s 2 false 14, .s 4 false 21, spawnField] }
      ∧ joins.cur.live = true ∧ joins.noPends 1 = true
      ∧ joins.nops.any (fun n => n.strand == 1) = false ∧ joins.writtenBack 1 = true ∧ joins.ending 1 = false)
    ∧ (joins.flowCount 0 (fun m => m.isCounter) < 32) :=
  ⟨⟨ready_of (by decide +kernel), by decide +kernel⟩, ready_of (by decide +kernel), by decide +kernel,
    ⟨ready_of (by decide +kernel), by decide +kernel⟩, by decide +kernel, ⟨ready_of (by decide +kernel), ready_of (by decide +kernel)⟩,
    ⟨ready_of (by decide +kernel), ready_of (by decide +kernel), by decide +kernel⟩, by decide +kernel⟩

/-- A record on its way, an acknowledgement, and a counter message to a counter that stands at 2. -/
def records (spawn : Bool) (n : Nat) : State :=
  { joins with
    enqs := [{ uid := 2, strand := 1, launch := 1, target := 1, q := 1, cluster := 0, spawn := spawn,
               body := { w := List.replicate 8 0, run := true } }]
    acks := [{ strand := 1, ticket := 3, status := true }]
    counters := [{ launch := 1, index := 0, armed := true, count := 2, queue := 1, body := List.replicate 8 0 }]
    msgs := [{ w := [BitVec.ofNat 64 (2 ^ 48), 0, BitVec.ofNat 64 (2 ^ 48), BitVec.ofNat 64 n], launch := 1 }]
    pick := [0, 1] }

theorem witness_RecordSteps :
    (records false 1).enqs[0]?.any (fun e => !e.spawn && e.pkg == none && !(records false 1).recBefore e
      && e.origin == none && (records false 1).releaseReady e.strand e.uid e.scope e.core && (records false 1).usesCluster e.target e.cluster
      && (records false 1).queueRoom e.target e.q e.cluster 0)
    ∧ (records false 1).acks[0]?.any (fun a => (records false 1).cur.live && (records false 1).cur.uid == a.strand)
    ∧ (records true 1).enqs[0]?.any (fun e => e.spawn && (records true 1).releaseReady e.strand e.uid 1 e.core
      && !(records true 1).recBefore e && ((records true 1).launch? e.launch).isSome && !(records true 1).ending e.launch
      && ((records true 1).holdOf e.core e.launch).any (fun h => !h.ended && h.ending == none && h.drained == none) && (records true 1).slotFree e.core 1)
    ∧ [1, 2].all (fun n => (records false n).msgs[0]?.any (fun m => m.isCounter && m.stage == .sent && (records false n).msgs.length == 1
      && ((records false n).counter? m.launch ((m.w.getD 2 0).toNat % 4096)).any (fun c => !c.failed && c.armed && c.count == 2
        && (m.w.getD 2 0).toNat / 4096 % 4 == dieOfCluster c.cluster) && (m.w.getD 3 0).toNat % 2 ^ 32 == n)) := by
  decide +kernel

theorem witness_TileTableInstructions :
    (Ready (one tl) { fields := [.s 1 false 14], mem := true } ∧ (one tl).tileBusy 0 3 = false
      ∧ tdefBad ((one tl).cur.val 1) 0 = false ∧ tdefBad (BitVec.ofNat 64 (2 ^ 63)) 0 = true)
    ∧ ({ one tl with cores := [{ id := 0, uses := List.replicate 32 { pins := 1 } }] } : State).tileBusy 0 3 = true
    ∧ Ready (one tl) { mem := true } ∧ Ready (one tl) { fields := [.d 3 7], mem := true } ∧ Ready (one tl) { fields := [.s 1 false 14] } :=
  ⟨⟨ready_of (by decide +kernel), by decide +kernel⟩, by decide +kernel, ready_of (by decide +kernel), ready_of (by decide +kernel),
    ready_of (by decide +kernel)⟩
/-- A job of the boot strand whose record stands at 64, past or not, and a record of zeros in the start map. -/
def jobbed (past : Bool) : State :=
  { mapped with
    jobs := [{ uid := 2, strand := 1, sup := true, recAddr := 64, block := if past then 2 ^ 20 else 0,
               shape := if past then some { size0 := 0 } else none }]
    pick := [0] }

/-- A tile of the core that is READY. -/
def tile (state : Nat) : State :=
  { one tl with cores := [{ id := 0, tiles := List.replicate 32 (tSetState emptyTile state) }] }

theorem witness_CopyJobs :
    (Ready (one tl) { fields := fields2 x2, mem := true } ∧ jobOperandBad ((one tl).cur.val 1) = false
      ∧ ((one tl).cur.val 1).toNat % 64 = 0 ∧ (one tl).tileBusy 0 3 = false ∧ (one tl).idPending 0 0 = false
      ∧ (one tl).copyRoom 0 = true ∧ tState ((one tl).tile 0 3) = 0)
    ∧ jobOperandBad (BitVec.ofNat 64 (2 ^ 52)) = true ∧ 8 % 64 ≠ 0
    ∧ ({ one tl with jobs := List.replicate 256 { } } : State).copyRoom 0 = false
    ∧ Ready (one tl) { fields := [.s 60 false 14, rowsField], mem := true }
    ∧ (256 ≤ (256 : Word).toNat ∧ (255 : Word).toNat < 256)
    ∧ (jobbed false).jobs.find? (fun j => j.core == (jobbed false).arg 0)
        = some { uid := 2, strand := 1, sup := true, recAddr := 64 }
    ∧ (let s := { jobbed true with jobs := [{ uid := 2, strand := 1, sup := true, units := [(3, 9)] }], pick := [0, 1, 0] }
       s.arg 1 = 1 ∧ s.octetFrozen 0 = false ∧ s.jobs.any (fun j => !s.jobOver j && s.releaseReady j.strand j.uid 1 j.core
        && j.units[s.arg 2]? == some (3, 9)) ∧ s.rebuilding 0 (tBase (s.tile 0 0) + 24) 8 = false ∧ Mem.wf s.spad = true)
    ∧ (jobbed true).jobs.all (fun j => (jobbed true).jobOver j && !j.isDrain && (jobbed true).jobReleased j && j.fault == none) :=
  ⟨⟨ready_of (by decide +kernel), by decide +kernel⟩, by decide +kernel, by decide +kernel, by decide +kernel, ready_of (by decide +kernel), by decide,
    by decide +kernel⟩

/-- A strand whose e5 holds `e`, on a core whose tiles 0 and 1 hold the entries `x` and `y`. -/
def mx (e : Nat) (x y : Word) : State :=
  { one { tl with e := #v[0, 0, 0, 0, 0, BitVec.ofNat 64 e, 0, 0] } with
    cores := [{ id := 0, tiles := x :: y :: List.replicate 30 emptyTile }] }

/-- What a READY tile of 32 by 32 elements in 8 planes holds, and one of another side, scale or state. -/
def bp8 : Word := 0x007F188A00000000

/-- What the hypotheses on a chain of MXQ 0, 1 say, in order: no wait, a layout as it should be, tiles ready, tiles fit. -/
def chainIs (s : State) (bad fit : Bool) (i32 scales : Bool) : Bool :=
  let e := (s.cur.ext 5).toNat
  let ts := chainTiles 0 1 (e % 256) (e / 2 ^ 12 % 16) (e / 2 ^ 8 % 16)
  !s.mxFull 0 && !s.cur.audx && mxqBad e 0 1 == bad
    && (bad || ts.all (fun x => tState (s.tile 0 x.1) == 2)
      && ts.all (fun x => !tileUnfit (tSide (s.tile 0 0)) (s.tile 0 x.1) x.2) == fit
      && scalesBad i32 [(capOf 0 (s.tile 0 0), capOf 1 (s.tile 0 1))] == scales)

theorem witness_MatrixInstructions :
    (Ready (mx 0x8801 bp8 bp8) { fields := [rowsField], mem := true } ∧ chainIs (mx 0x8801 bp8 bp8) false true true false = true)
    ∧ chainIs (mx 0x9801 bp8 bp8) true true true false = true ∧ chainIs (mx 0x8800 bp8 bp8) true true true false = true
    ∧ (chainTiles 0 1 1 8 8).find? (fun y => tState ((mx 0x8801 bp8 0x007F188800000000).tile 0 y.1) != 2) = some (1, 8)
    ∧ (chainTiles 0 1 1 8 8).find? (fun y => tState ((mx 0x8801 0x007F188900000000 bp8).tile 0 y.1) != 2) = some (0, 8)
    ∧ chainIs (mx 0x8801 bp8 0x007F187A00000000) false false true false = true
    ∧ chainIs (mx 0x8801 bp8 0x0080188A00000000) false true true true = true
    ∧ ({ mx 0x8801 bp8 bp8 with
        mxCmds := List.replicate 16 { pairs := [({ }, { })] } } : State).mxFull 0 = true
    ∧ Ready (mx 0 bp8 bp8) { fields := [{ rowsField with src := false }], mem := true } ∧ Ready (mx 0 bp8 bp8) { mem := true } :=
  ⟨⟨ready_of (by decide +kernel), by decide +kernel⟩, by decide +kernel, by decide +kernel, by decide +kernel, by decide +kernel,
    by decide +kernel, by decide +kernel, by decide +kernel, ready_of (by decide +kernel), ready_of (by decide +kernel)⟩

/-- A core with a command of one pair, done or not, and a sample of it. -/
def mxWork (next : Nat) (audx : Bool) : State :=
  { one tl with
    mxCmds := [{ uid := 2, strand := 1, pairs := [({ tile := 0 }, { tile := 1 })], next := next, sums := [1] }]
    samples := [{ uid := 3, pairs := [({ tile := 0, gen := 7 }, { tile := 1 })], doneAt := some 0, audx := audx }]
    timeNs := 100000, pick := [0, 0], nextUid := 4 }

theorem witness_MatrixAndAuditEngines :
    ((mxWork 0 false).mxCmds.find? (fun c => c.core == 0 && decide (c.next < c.pairs.length))).any (fun c => c.pairs[c.next]?.isSome)
    ∧ ((mxWork 0 false).octetStopped ((mxWork 0 false).arg 0) = false
      ∧ (mxWork 0 false).samples.any (fun x => (mxWork 0 false).overdue x) = false
      ∧ (mxWork 0 true).samples.any (fun x => x.octet == 0 && ((mxWork 0 true).overdue x && decide (x.next < x.pairs.length))) = true)
    ∧ ((mxWork 1 false).mxCmds.find? (fun c => c.core == (mxWork 1 false).arg 0)).any (fun c => decide (c.pairs.length ≤ c.next)
      && (mxWork 1 false).octetFrozen c.core == false && (mxWork 1 false).cur.live && (mxWork 1 false).cur.uid == c.strand)
    ∧ (let s := mxWork 1 true
       (s.octetSamples (s.arg 0)).find? s.overdue = s.samples.head? ∧ s.octetStopped 0 = false
       ∧ s.arg 4 ≠ 1 ∧ s.samples.all (fun x => x.octet == s.arg 0 && x.doneAt.isSome && x.audx
        && x.pairs[x.next]?.any (fun p => tGen (s.tile x.core p.1.tile) != p.1.gen)))
    ∧ (let s := mxWork 1 false
       (s.octetSamples (s.arg 0)).find? s.overdue = none ∧ (s.octetSamples (s.arg 0)).head? = s.samples.head?
       ∧ s.arg 1 = 0 ∧ s.samples[s.arg 0]?.any (fun x => !x.audx && s.late? x && x.ended == none))
    ∧ (let s := { mxWork 1 true with samples := [{ uid := 3, pairs := [({ tile := 0 }, { tile := 1 })], doneAt := some 0, audx := true }] }
       s.samples.all (fun x => x.pairs[x.next]?.any (fun p => tGen (s.tile x.core p.1.tile) == p.1.gen
        && tGen (s.tile x.core p.2.tile) == p.2.gen)))
    ∧ [none, some [0, 0, 0, 0]].all (fun e =>
        let s := { mxWork 1 true with samples := [{ uid := 3, doneAt := some 0, audx := true, reduced := [(0, 0)], ended := e }] }
        s.samples.all (fun x => x.pairs.length ≤ x.next && s.tensorStalls x (divergenceMax (minScale x.pairs) x.f x.u) 0 == false))
    ∧ [[0, 0, 0, 0], [0, 1, 0, 0]].all (fun c =>
        let s := { mxWork 1 true with auditAdds := [{ addr := 64, clock := c }], pick := [0, 0, 0, 0, 1] }
        s.arg 4 == 1 && (s.auditAdds.find? (fun x => x.octet == s.arg 0)).any (fun x =>
          s.auditStalls x.core x.launch x.addr x.clock == (c != [0, 0, 0, 0]))) := by
  decide +kernel

/-- A launch of two kernels of one team each, joined by a pipe; its producer on core 0, its consumer on core 1. -/
def piped (consumer : Hold) (chan : List Channel) : State :=
  { one ((tl.setG 1 0).setG 2 256) with
    launches := [{ launch1 .live with
      m := { kernels := [{ convoys := 1, teams := 1, strands := 1 }, { convoys := 1, teams := 1, strands := 1 }],
             pipes := [{ producer := 0, consumer := 1, slots := 4, slotSize := 64, buf := 1024 }] } }]
    holds := [{ core := 0, launch := 1, started := true }, consumer]
    channels := chan
    nextUid := 3 }

/-- The consumer's team, and its channel. -/
def cons1 : Hold := { core := 1, launch := 1, kernel := 1, team := 1, started := true }
def chan1 : Channel := { launch := 1, p := 0, i := 0, credits := 2, sent := 2 }

/-- What PSEND and EOS of pipe 0 meet: the producer's side, no token, and the consumer's team by its hold and its end. -/
def sends (s : State) (gone started : Bool) (credit : Bool) : Bool :=
  (s.pipe? 1 0).isSome && !s.pipeAhead 0 && s.pipeTeam.any (fun h => h.kernel == 0 && s.teamIndex h == 0) && s.teamGone 1 1 0 == gone
    && !(s.channel 1 0 0).token && (gone || (s.teamAt 1 1 0).any (fun g => g.started == started))
    && ((s.channel 1 0 0).credits != 0) == credit

theorem witness_PipesAtIssue :
    (Ready (piped cons1 [chan1]) { fields := [.s 1 false 14, .s 2 false 21], mem := true }
      ∧ Ready (piped cons1 [chan1]) { fields := [.s 1 false 14], mem := true }
      ∧ sends (piped cons1 [chan1]) false true true = true ∧ ((piped cons1 [chan1]).cur.val 1).toNat = 0
      ∧ ((piped cons1 [chan1]).cur.val 2).toNat % 8 = 0 ∧ ((piped cons1 [chan1]).cur.val 2).toNat + 64 ≤ 0x40000)
    ∧ sends (piped cons1 [{ chan1 with credits := 0 }]) false true false = true
    ∧ sends (piped { cons1 with started := false } [chan1]) false false true = true
    ∧ sends (piped { cons1 with ended := true } [chan1]) true true true = true
    ∧ sends (piped { cons1 with ended := true } [{ chan1 with reported := true }]) true true true = true
    ∧ ((piped cons1 [{ chan1 with token := true }]).channel 1 0 0).token = true
    ∧ (piped cons1 []).pipe? 1 1 = none ∧ (one tl).pipe? 1 0 = none
    ∧ (piped cons1 [chan1]).nFlowFull 0 1 = false
    ∧ ({ piped cons1 [chan1] with
        pipeItems := List.replicate 32 { strand := 9, core := 0, dst := 1, p := 1 } } : State).nFlowFull 0 1 = true :=
  ⟨⟨ready_of (by decide +kernel), ready_of (by decide +kernel), by decide +kernel⟩, by decide +kernel⟩

/-- The consumer's strand, which receives. -/
def receiving : State :=
  { piped cons1 [chan1] with cur := { (tl.setG 2 512) with core := 1, uid := 5 } }

theorem witness_PipesAtIssue_receiver :
    Ready receiving { fields := fields3 x3, mem := true }
    ∧ receiving.pipeTeam.any (fun h => h.kernel == 1) ∧ (receiving.pipe? 1 (receiving.cur.val 1).toNat).isSome
    ∧ ((receiving.cur.val 2).toNat % 8 = 0 ∧ (receiving.cur.val 2).toNat + 64 ≤ 0x40000)
    ∧ (0x40000 - 56) % 8 = 0 ∧ 0x40000 < 0x40000 - 56 + 64 :=
  ⟨ready_of (by decide +kernel), by decide +kernel⟩

/-- An item of a channel on its way, and a credit on its way back. -/
def onWay (consumer : Hold) (kind : Nat) : State :=
  { piped consumer [chan1] with
    pipeItems := [{ uid := 2, strand := 9, launch := 1, p := 0, i := 0, k := 1, kind := kind, data := 77, scope := 1 }]
    pipeCredits := [(1, 0, 0)], pick := [0] }

theorem witness_Pipes :
    [0, 1].all (fun kind => (onWay cons1 kind).pipeItems[0]?.any (fun x => (onWay cons1 kind).releaseReady x.strand x.uid x.scope x.core
      && ((onWay cons1 kind).pipe? x.launch x.p).any (fun d => !(onWay cons1 kind).teamGone x.launch d.consumer x.i
        && ((onWay cons1 kind).teamAt x.launch d.consumer x.i).any (fun h => !h.away
          && !(onWay cons1 kind).rebuilding h.core (d.buf + x.k % d.slots * d.slotSize) d.slotSize))))
    ∧ (onWay { cons1 with ended := true } 0).teamGone 1 1 0 = true
    ∧ (onWay cons1 0).pipeCredits[0]? = some (1, 0, 0) ∧ ((onWay cons1 0).channel 1 0 0).abort = false
    ∧ Mem.wf (onWay cons1 0).spad = true := by
  decide +kernel

/-- A strand with a rectangle in g1 and an address in g2, on core 0, with a team of its launch on core 1. -/
def casting (rect addr : Nat) (out : Nat) : State :=
  { one ((tl.setG 1 (BitVec.ofNat 64 rect)).setG 2 (BitVec.ofNat 64 addr)) with
    holds := [{ core := 0, launch := 1 }, { core := 1, launch := 1 }]
    mcasts := (List.range out).map (fun n => { uid := n, src := 0, router := 9, dests := [1] }) }

/-- The packet of `casting`. -/
def packet (rect addr : Nat) : Mcast := (casting rect addr 0).packetOf rect ((casting rect addr 0).spadRead 0 addr 128)

theorem witness_MulticastAtIssue :
    Ready (casting 0x01010001 128 0) { fields := [.s 1 false 14, .s 2 false 21], mem := true }
    ∧ ((packet 0x01010001 128).w ≠ 0 ∧ (packet 0x01010001 128).x0 + (packet 0x01010001 128).w ≤ 64
      ∧ (packet 0x01010001 128).y0 + (packet 0x01010001 128).h ≤ 64 ∧ (casting 0x01010001 128 0).anyDest (packet 0x01010001 128) = true
      ∧ (casting 0x01010001 128 0).destsOf (packet 0x01010001 128) = [1] ∧ (casting 0x01010001 128 0).mcasts = []
      ∧ 32 ≤ ((casting 0x01010001 128 32).mcasts.filter (fun y => y.src == 0 && y.dests.contains 1)).length)
    ∧ (packet 0x01000001 128).h = 1 ∧ (packet 0x01000001 128).w = 0
    ∧ (casting 0x01010002 128 0).anyDest (packet 0x01010002 128) = false
    ∧ 64 < (packet 0x0101003F 128).x0 + (packet 0x0102003F 128).w
    ∧ 0x3FF80 % 128 = 0 ∧ 0x3FF80 < 0x40000
    ∧ (Ready (one tl) { fields := fields2 x2, mem := true } ∧ (one tl).rxq.find? (fun p => p.core == 0) = none)
    ∧ ({ one tl with rxq := [{ core := 0, src := 65, tag := 7, data := 9 }] } : State).rxq.find? (fun p => p.core == 0)
        = some { core := 0, src := 65, tag := 7, data := 9 } :=
  ⟨ready_of (by decide +kernel), by decide +kernel, by decide +kernel, by decide +kernel, by decide +kernel, by decide +kernel,
    by decide +kernel, by decide +kernel, ⟨ready_of (by decide +kernel), by decide +kernel⟩, by decide +kernel⟩

/-- A packet from core 0 at router 1, for cores 1 and 2, with a channel that has no room where `full` says so. -/
def forking (full : Bool) (left : Option (List Nat)) : State :=
  { casting 0 0 0 with
    mcasts := [{ uid := 1, src := 0, launch := 1, sup := true, x0 := 1, w := 2, h := 1, router := 1, inp := 3, left := left,
                 dests := [1, 2] }]
      ++ (if full then [{ uid := 2, router := 2, inp := 3 }, { uid := 3, router := 2, inp := 3 }] else [])
    pick := [0, 3] }

theorem witness_MulticastAndMesh :
    [true, false].all (fun full => (forking full none).mcasts[0]?.any (fun m => m.left == none
      && m.branches == [1, 4] && (forking full none).branchRoom m 1 == !full
      && (forking full none).branchRoom m 4 && m.dests.contains m.router && (forking full none).dead.isEmpty
      && !(forking full none).isFenced m.router
      && (forking full none).mcasts.all (fun x => !(x.router == m.router && x.inp == m.inp) || x.left == none)))
    ∧ (forking false none).mcasts.all (fun m => !(forking false none).mcastBefore m m.router)
    ∧ (let s := { forking false none with mcasts := (forking false none).mcasts ++ [({ uid := 0, src := 0, router := 9, dests := [1] } : Mcast)] }
       s.mcasts[0]?.any (fun m => s.mcastBefore m m.router && s.branchRoom m 4))
    ∧ (forking false (some [1])).mcasts[0]?.any (fun m => m.left == some [1])
    ∧ ((forking false none).arg 2 = 0 ∧ ({ forking false none with pick := [0, 15, 1] } : State).arg 2 ≠ 0)
    ∧ (forking false none).arg 0 < 4096 ∧ 1 ∈ neighboursOf 0 ∧ regionDist 7 0 < regionDist 8 0 ∧ 8 ∈ neighboursOf 7 := by
  decide +kernel

/-- A launch with an actor class, and a strand with the class's selector in g1. -/
def sending (cls : Nat) (more : List Msg) : State :=
  { one ((tl.setG 1 (BitVec.ofNat 64 (cls * 2 ^ 16 + 3))).setG 2 77) with
    launches := [{ launch1 .live with m := { classes := [{ cls := 5, stateSize := 64 }] } }]
    msgs := more
    nextUid := 100 }

/-- The strand of a twin pair's run, that has sent `n` messages. -/
def twinSending (n : Nat) : State :=
  { sending 5 [] with cur := { (sending 5 []).cur with kind := .handler, twin := some false, twinSends := n } }

/-- The message that SEND makes in `sending`. -/
def sent1 (s : State) : Msg :=
  { uid := s.nextUid, launch := 1, strand := some 1, w := [BitVec.ofNat 64 ((s.cur.val 1).toNat % 2 ^ 32), 0, 77, 0, 0, 0, 0, 0] }

theorem witness_MessagesLeave :
    (Ready (sending 5 []) { fields := [.s 1 false 14, .s 2 false 21], mem := true } ∧ Ready (sending 5 []) { fields := fields3 x3, mem := true }
      ∧ ((sending 5 []).cur.val 1).toNat / 2 ^ 16 % 2 ^ 16 = 5 ∧ (sending 5 []).classOf 1 5 ≠ none
      ∧ (sending 5 []).cur.twin = none ∧ (sending 5 []).cannotInject (sent1 (sending 5 [])) = false)
    ∧ ((sending 0 []).cur.val 1).toNat / 2 ^ 16 % 2 ^ 16 = 0 ∧ (sending 6 []).classOf 1 6 = none
    ∧ (sending 5 (List.replicate 32 (sent1 (sending 5 [])))).cannotInject (sent1 (sending 5 [])) = true
    ∧ (Ready (twinSending 31) { fields := [.s 1 false 14, .s 2 false 21], mem := true } ∧ (twinSending 31).cur.twinSends < 32
      ∧ 32 ≤ (twinSending 32).cur.twinSends)
    ∧ (let s := { sending 5 [{ sent1 (sending 5 []) with stage := .queued }] with pick := [0] }
       s.msgs[0]?.any (fun m => m.stage == .queued && m.strand == some 1 && s.releaseReady 1 m.uid 4 m.core)) :=
  ⟨⟨ready_of (by decide +kernel), ready_of (by decide +kernel), by decide +kernel⟩, by decide +kernel, by decide +kernel, by decide +kernel,
    ⟨ready_of (by decide +kernel), by decide +kernel⟩, by decide +kernel⟩

/-- A message on its way to the flow table, whose entry is there or not. -/
def landing (es : List Entry) : State :=
  { sending 5 [{ sent1 (sending 5 []) with stage := .sent, w := [BitVec.ofNat 64 (5 * 2 ^ 16 + 3), 0, 77, 0, 0, 0, 0, 0] }] with
    entries := es, pick := [0] }

/-- Its entry, LIVE. -/
def entry5 : Entry := { uid := 9, launch := 1, cls := 5, key := 77, st := .live, core := 0, die := homeDie 5 77 }

theorem witness_Messages :
    [([entry5], some true), ([{ entry5 with held := [{ }] }], some false), ([], none)].all (fun x => (landing x.1).msgs[0]?.any (fun (m : Msg) =>
      m.stage == .sent && !m.isCounter && m.cls == 5 && m.key == (77 : Word) && ((landing x.1).classOf m.launch m.cls).isSome
      && !(landing x.1).ending m.launch && (landing x.1).wsFull.isEmpty && (landing x.1).msgs.all (fun o => o.stage != .deferred)
      && match x.2 with
        | some forward => ((landing x.1).entryOf m.launch m.cls m.key).any (fun e => e.held.isEmpty == forward && e.ring.isEmpty
            && (!forward || (landing x.1).mayForward e) && decide (e.held.length < 32) && decide ((landing x.1).bufUsed e.die < 16384)
            && decide ((landing x.1).ringUsed e.die < 4194304))
        | none => ((landing x.1).entryOf m.launch m.cls m.key) == none && decide ((landing x.1).setCount (homeDie m.cls m.key) (setOf m.cls m.key) < 72)
            && decide ((landing x.1).bufUsed (homeDie m.cls m.key) < 16384) && (landing x.1).entries.all (fun e => e.uid != (landing x.1).nextUid)))
    ∧ (landing [{ entry5 with ring := [{ }] }]).entries.all (fun e => e.ring != [])
    ∧ (let s := { landing [] with msgs := [{ sent1 (sending 5 []) with stage := .away }], pick := [0, 0, 0] }
       s.arg 0 = 0 ∧ s.arg 2 ≠ 1 ∧ s.msgs[s.arg 1]?.any (fun m => m.stage == .away))
    ∧ (let s := { landing [] with pick := [1, 0, 5 * 2 ^ 16, 0, 77] }
       s.arg 0 = 1 ∧ (s.declarers (s.arg 2 / 2 ^ 16 % 2 ^ 16)).map (·.id) = [1])
    ∧ (let s := { landing [] with pick := [2, 7] }
       s.arg 0 = 2 ∧ (s.enqs.filter (fun e => e.origin.isSome && e.cluster == s.arg 3 % 64)).length < 16) := by
  decide +kernel

/-- A message that waits in the input queue of core 0 for its actor, whose entry is LIVE. -/
def arrived : State :=
  { landing [entry5] with
    msgs := [], inq := [{ core := 0, entry := 9, msg := some (sent1 (sending 5 [])), tIn := 3 }], pick := [0, 1] }

/-- A handler of that actor in front, and the same with a load still out. -/
def handling (kind : Kind) (out : Bool) (twin : Option Bool) : State :=
  { landing [entry5] with
    cur := { tl with kind := kind, entry := 9, twin := twin }
    pends := if out then [{ uid := 3, strand := 1 }] else [] }

theorem witness_HandlerForms :
    (arrived.handlerSlot (arrived.arg 0) (arrived.arg 1) = true ∧ arrived.coreUp (arrived.arg 0) = true
      ∧ arrived.octetFrozen (arrived.arg 0) = false ∧ arrived.arg 1 = 1 ∧ arrived.choice (arrived.arg 0) 0 = none
      ∧ arrived.resumption (arrived.arg 0) (arrived.arg 1) = none
      ∧ (nextReady arrived (arrived.arg 0) 0 arrived.inq).any (fun p => p.2.msg.isSome && (arrived.entry? p.2.entry == some entry5))
      ∧ (arrived.launch? 1).isSome = true ∧ (arrived.classOf 1 5).isSome = true)
    ∧ ((one tl).cur.isHandler = false ∧ actor.cur.isHandler = true ∧ Ready actor { })
    ∧ ((handling .handler true none).quiet 1 = false ∧ (handling .handler false none).quiet 1 = true
      ∧ (handling .creator false none).quiet 1 = true ∧ (handling .handler false (some true)).quiet 1 = true) :=
  ⟨by decide +kernel, ⟨rfl, rfl, ready_of (by decide +kernel)⟩, by decide +kernel⟩

/-- An entry in a state, on a machine in the start map; the heap of its class is at 0, and has no slot, one free slot, or the
actor's. -/
def tabled (st : EntryState) (heap : Nat) (creator : Word) (held : List Msg) : State :=
  { landing [{ entry5 with st := st, held := held }] with
    dies := Vector.replicate 4 { startMap := true }
    launches := [{ launch1 .live with
      m := { classes := [{ cls := 5, stateSize := 64, heapSize := 128, creator := creator }] } }]
    hbm := if heap = 0 then [(0, 1), (12, 1)] else if heap = 1 then [] else [(0, 77), (8, 3), (12, 1), (14, 5)]
    msgs := []
    inqRets := [0]
    wsFull := [(0, 0, [1])]
    pick := [0] }

theorem witness_ActorTable :
    [(EntryState.probing, 2, (0 : Word)), (.probing, 1, 0), (.probing, 1, 2), (.probing, 0, 0), (.fetched, 1, 0), (.evicting none, 1, 0),
      (.evicting (some 3), 1, 0), (.evicting (some 3), 0, 0), (.evicting (some 3), 2, 0)].all (fun x =>
      (tabled x.1 x.2.1 x.2.2 []).entries[(tabled x.1 x.2.1 x.2.2 []).arg 0]?.any (fun e => e.st == x.1 && !e.twin && !e.final
        && e.held.isEmpty && ((tabled x.1 x.2.1 x.2.2 []).classOf e.launch e.cls).any (fun d =>
          (tabled x.1 x.2.1 x.2.2 []).touchSearch d e.key == tabled x.1 x.2.1 x.2.2 []
          && !(tabled x.1 x.2.1 x.2.2 []).fencedEntry e && match x.2.1 with
          | 0 => (tabled x.1 x.2.1 x.2.2 []).search d e.key == .none
          | 1 => (tabled x.1 x.2.1 x.2.2 []).search d e.key == .free 0
          | _ => (tabled x.1 x.2.1 x.2.2 []).search d e.key == .slot 0 3)))
    ∧ (({ tabled (.evicting none) 1 0 [] with fenced := [clusterRect 0] } : State).entries.all (fun e =>
        ({ tabled (.evicting none) 1 0 [] with fenced := [clusterRect 0] } : State).fencedEntry e))
    ∧ Mem.wf (tabled .probing 2 0 []).spad = true
    ∧ (tabled .live 1 0 [{ }]).arg 0 ∈ (tabled .live 1 0 [{ }]).inqRets
    ∧ ((tabled .live 1 0 []).wsFull.find? (fun y => y.1 == 0)).any (fun x => decide ((tabled .live 1 0 []).ringUsed x.1 < 4194304)
      && x.2.2.all (fun l => ((tabled .live 1 0 []).launch? l).isSome)) := by
  decide +kernel

/-- An item of a twin's run for the comparator, with what the entry keeps of the other run. -/
def comparing (digB : List Word) (doneB : Bool) (fin : Bool) : State :=
  { landing [{ entry5 with twin := true, core2 := 195, digB := digB, timesB := digB.map (fun _ => 0), doneB := doneB, ran := 20000 }] with
    msgs := [{ sent1 (sending 5 []) with stage := if fin then .twinDone else .twin, entry := 9 }]
    timeNs := 20000
    pick := [0] }

/-- The entry after its item has come. -/
def compared (digB : List Word) (doneB fin : Bool) : Option Entry :=
  match (comparing digB doneB fin).msgs, (comparing digB doneB fin).entries with
  | m :: _, e :: _ => some (e.addItem m)
  | _, _ => none

theorem witness_Actors : Ready actor { } ∧ actor.cur.isHandler = true := ⟨ready_of (by decide +kernel), rfl⟩

theorem witness_TwinComparison :
    ((comparing [] false false).msgs[(comparing [] false false).arg 0]?.any (fun m => m.isItem
      && ((comparing [] false false).entry? m.entry).isSome)
      ∧ (compared [] false false).any (fun x => !x.doneA && !x.doneB && x.digB.isEmpty))
    ∧ (compared [327683] true true).any (fun x => x.doneA && x.doneB && x.digA == x.digB)
    ∧ (compared [3, 4] true true).any (fun x => x.doneA && x.doneB && x.digA.length != x.digB.length)
    ∧ ((comparing [3] false false).entries[0]?.any (fun e => e.openAt == some 0
        && decide (0 + ((comparing [3] false false).die e.die).compareWindow ≤ e.ran))
      ∧ (comparing [3] false false).arg 1 = 0 ∧ ({ comparing [] false false with pick := [0, 1000] } : State).arg 1 ≠ 0)
    ∧ ((comparing [] true true).classOf 1 5).any (fun d => (comparing [] true true).writeStalls d 77 == false)
    ∧ entry5.st ≠ .creating := by
  decide +kernel

/-- A producer of the boot strand in the start map, as the first in flight, whose result goes to g3. -/
def producing (op : PendOp) (acq : Bool) : State :=
  { mapped with
    pends := [{ uid := 2, strand := 1, sup := true, dst := 3, acq := acq, op := op, clock := some [0, 0, 0, 0], left := 2 ^ op.unitCount - 1 }]
    pick := [0], nextUid := 3 }

/-- What every clause asks of the producer. -/
def inFront (s : State) : Bool :=
  s.pends[s.arg 0]?.any (fun p => s.cur.live && s.cur.uid == p.strand)

theorem witness_LongLatencyResults :
    [(PendOp.ready 5, true), (.failed ⟨6, 8⟩, false), (.ldg 64 3 8 0 3, false), (.ldg (2 ^ 52) 3 8 0 3, false), (.ldg 64 3 8 0 1, false),
      (.ldgCap 64 8 [], false), (.ldh 64 8, false)].all (fun x => inFront (producing x.1 x.2))
    ∧ (let s := producing (.ldg 64 3 8 0 3) false
       s.pends[0]?.any (fun p => !s.earlier p.strand p.uid 64 8 && !s.readStalls 64 8 && !inWindow 64 && !s.inRecord 64 8
        && p.nextUnit (s.arg 1) == 0 && p.left - 1 == 0 && unitsOf 64 8 == [(64, 8)]
        && okIs ((s.touch (s.reqPend p 64).cls 64).keys ((s.touch (s.reqPend p 64).cls 64).reqPend p 64) .r 64 8) (keysFrom 64 8)
        && !s.uncorrectable (keysFrom 64 8) && s.slices.isEmpty))
    ∧ (let s := producing (.ldg 0 4 128 0 3) false
       s.pends[0]?.any (fun p => p.nextUnit (s.arg 1) == 0 && p.left - 1 != 0))
    ∧ (let s := { producing (.ldg 64 3 8 0 3) false with records := [0] }
       s.pends[0]?.any (fun p => s.inRecord 64 8 && !s.notAtOwner p.strand p.uid 64 8 && !s.earlier p.strand p.uid 64 8 && !s.readStalls 64 8
        && okIs ((s.touch (s.reqPend p 64).cls 64).keys ((s.touch (s.reqPend p 64).cls 64).reqPend p 64) .r 64 8) (keysFrom 64 8)
        && !(s.touch (s.reqPend p 64).cls 64).uncorrectable (keysFrom 64 8)))
    ∧ (producing (.ldg 64 3 8 0 3) false).cur.core < 4096
    ∧ (let s := producing (.ldg (2 ^ 52) 3 8 0 3) false
       s.pends[0]?.any (fun p => errIs (s.keys (s.reqPend p (2 ^ 52)) .r (2 ^ 52) 8) 6))
    ∧ (let s := { producing (.ldg 64 3 8 0 3) false with badUnits := [(64, 32)] }
       s.uncorrectable (keysFrom 64 8))
    ∧ (let s := producing (.ldgCap 64 8 []) false
       s.pends[0]?.any (fun p => s.causal 64 (p.clock.getD []) && !s.notAtOwner p.strand p.uid 64 8 && !s.earlier p.strand p.uid 64 8
        && !s.readStalls 64 8))
    ∧ (let s := producing (.ldh 64 8) false
       !s.hBefore 1 2 && !s.hostRefuses 64 8 && ({ s with hostDeny := [(64, 8)] } : State).hostRefuses 64 8)
    ∧ (let s := { producing (.jwait 4) false with cores := [{ id := 0, mail := [(4, 0x8200000000000040)] }] }
       inFront s && s.mailDone 0 4 == some 0x8200000000000040)
    ∧ inFront (producing (.deq 1 128 0 (some [9])) true)
    ∧ (let s := { producing (.deq 1 128 0 none) true with queues := [{ q := 1, hw := [{ w := [9] }] }] }
       inFront s && (s.queue 0 1 0).hw.length == 1 && (s.oldestDeq 0 1 0).any (fun w => w.uid == 2) && s.leftFirst 0 1 0 == none) := by
  decide +kernel

/-- A PRECV of the consumer's strand on a channel whose item has landed, or that is closed. -/
def takes (c : Channel) : State :=
  { piped { cons1 with } [c] with
    cur := { tl with core := 1, uid := 5 }
    pends := [{ uid := 2, strand := 5, core := 1, launch := 1, dst := 3, acq := true, op := .precv 0 256 }]
    pick := [0] }

theorem witness_LongLatencyResults_boundary :
    [{ chan1 with landed := [(0, 0, [])] }, { chan1 with landed := [(0, 1, [])], token := true }, { chan1 with closed := some 2 }].all (fun c =>
      inFront (takes c) && !(takes c).isSaved 5 && (takes c).holdOf 1 1 == some cons1 && ((takes c).pipe? 1 0).isSome
        && (((takes c).channel 1 0 ((takes c).teamIndex cons1)).closed.isSome
          || ((takes c).channel 1 0 ((takes c).teamIndex cons1)).landed.any (fun x => x.1 == 0)
            && !(takes c).rebuilding 1 1024 64 && !(takes c).rebuilding 1 256 64 && !(takes c).spadSoft 1 1024 64))
    ∧ Mem.wf (takes chan1).spad = true := by
  decide +kernel

/-- A strand of a team inside a trap handler, or not. -/
def exiting (inH : Bool) (out : Bool) : State :=
  { one { tl with status := if inH then 0x100 else 0 } with
    holds := [{ core := 0, launch := 1, started := true }]
    pends := if out then [{ uid := 3, strand := 1 }] else [] }

/-- The boot strand before its first fetch. -/
def fetching : State := { mapped with pick := [0, 0, 0] }

theorem witness_StrandsEndAndFetch :
    actor.cur.isHandler = true
    ∧ (Ready (exiting true false) { } ∧ (exiting true false).cur.mode = .launch ∧ inTrap (exiting true false).cur.status = true
      ∧ (exiting true false).cur.live = true ∧ (exiting true false).cur.isHandler = false)
    ∧ (Ready (exiting false false) { } ∧ inTrap (exiting false false).cur.status = false ∧ (exiting false false).quiet 1 = true
      ∧ (exiting false false).holdOf 0 1 = some { core := 0, launch := 1, started := true })
    ∧ (exiting false true).quiet 1 = false
    ∧ (fetching.cur.core = fetching.arg 0 ∧ fetching.cur.slot = fetching.arg 1 ∧ fetching.arg 2 ≠ 1 ∧ fetching.cur.fetchBuf = none
      ∧ fetching.cur.mode = .supervisor ∧ findLine fetching.icache 0 0 = none ∧ findLine fetching.islices 0 0 = none
      ∧ okIs (fetching.keys (fetching.reqCur fetching.cur 0) .x 0 64) (keysFrom 0 64) = true
      ∧ fetching.uncorrectable (keysFrom 0 64) = false ∧ fetching.readStalls 0 64 = false) :=
  ⟨rfl, ⟨ready_of (by decide +kernel), by decide +kernel⟩, ⟨ready_of (by decide +kernel), by decide +kernel⟩, by decide +kernel,
    by decide +kernel⟩

/-- A core with a team and a record at the head of a queue, and no strand. -/
def dispatching : State :=
  { ({ } : State) with
    launches := [{ launch1 .live with m := { kernels := [{ convoys := 1, teams := 1, strands := 1 }], queues := [{ q := 1 }] } }]
    holds := [{ core := 0, launch := 1, started := true }]
    queues := [{ launch := 1, q := 1, hw := [{ w := [0x1000, 7, 1, 2, 3, 4, 5, 6], run := true }] }]
    pick := [0, 0] }

/-- A strand that has waited in ACKW since cycle 0. -/
def waiting : State := { one { tl with wait := { kind := .ackw } } with cycles := 8192, pick := [0, 0] }

/-- A PARKED strand on each slot of core 0, with a handler that waits for one. -/
def crowded : State :=
  { arrived with
    cur := { tl with run := .parked }
    strands := [1, 2, 3].map (fun n => { tl with uid := 10 + n, slot := n, run := .parked })
    pick := [0, 0] }

/-- A displaced team on core 0, whose drain limit has passed or not; its strand in its slot or saved. -/
def drained (limit saved : Bool) : State :=
  { one (if saved then ({ } : Strand) else tl) with
    launches := [{ launch1 .live with m := { kernels := [{ convoys := 1, teams := 1, strands := 1 }], trapVector := 0x2000 } }]
    holds := [{ core := 0, launch := 1, started := true, drained := some 0, limit := limit }]
    saved := if saved then [{ t := { tl with trapVector := 0x2000 }, at' := 5 }] else []
    timeNs := 2000000
    pick := [0, if saved then 1 else 0] }

theorem witness_SlotsAndSaves :
    (dispatching.choice (dispatching.arg 0) (dispatching.arg 1) = some (.record 0 0 1 1 1)
      ∧ (dispatching.launch? 1).isSome = true ∧ (dispatching.holdOf (dispatching.arg 0) 1).isSome = true
      ∧ dispatching.heldWaiter 1 1 0 = none ∧ (dispatching.queue 1 1 0).hw.map (fun r => r.w.headD 0) = [0x1000])
    ∧ (waiting.waitSince waiting.cur = some 0 ∧ waiting.cur.run = .run ∧ waiting.cur.live = true ∧ 0 + 8192 ≤ waiting.cycles
      ∧ waiting.cur.core = waiting.arg 0 ∧ waiting.cur.slot = waiting.arg 1)
    ∧ ((crowded.bySlot (crowded.arg 0) (crowded.arg 1)).any (fun u => u.run == .parked && crowded.mayLeave u && crowded.byUid u.uid == some u
        && crowded.all.all (fun w => !(w.core == 0 && w.run == .parked) || decide (u.slot ≤ w.slot)))
      ∧ [0, 1, 2, 3].all (fun n => !crowded.handlerSlot 0 n) ∧ (nextReady crowded 0 0 crowded.inq).isSome)
    ∧ (drained true false).bySlot ((drained true false).arg 0) ((drained true false).arg 1) = some tl
    ∧ ((drained true false).saveDue tl = true ∧ tl.run ≠ .halted ∧ tl.ending = none ∧ (drained true false).mayLeave tl = true ∧ (drained true false).byUid 1 = some tl) := by
  decide +kernel

theorem witness_SlotsAndSaves_boundary :
    (let s : State := { ({ } : State) with saved := [{ t := { tl with wait := { kind := .ackw } }, swap := true }], pick := [0, 0] }
     (s.resumption (s.arg 0) (s.arg 1)).any (fun v => (s.readCtx v).cap.mode == .none))
    ∧ (let s := { drained false false with pick := [0, 1] }
       (s.holdOf (s.arg 0) (s.arg 1)).any (fun h => h.drained == some 0) ∧ (s.launch? (s.arg 1)).any (fun l => decide (0 + l.m.drainLimit ≤ s.timeNs))
        ∧ s.all.all (fun t => t.run != .halted))
    ∧ (let s := drained true true
       s.restoredWith (s.arg 0) (s.arg 1) = [0] ∧ s.savedOn (s.arg 0) (s.arg 1) ≠ [] ∧ s.mayRestore (s.arg 1) 0 = true
        ∧ (s.saved.map (fun v => v.t.uid)).Nodup ∧ s.saved.all (fun v => !v.swap && v.t.slot == 0 && (s.readCtx v).cap.mode == .none))
    ∧ (let u : Strand := { tl with lastAt := some { uid := 7, pc := 0x40 } }
       let s : State := { one u with pends := [{ uid := 7, strand := 1, op := .jwait 3 }] }
       (s.recvOf u).isSome = true ∧ (one u).recvOf u = none) := by
  decide +kernel

/-- A strand halted or not, in a cluster with these bits in DBG_CTL. -/
def debugged (r : RunState) (ctl : Word) : State :=
  { one { tl with run := r } with
    clusters := (Vector.replicate 64 ({ } : Cluster)).set 0 { dbgCtl := ctl, traceCtl := 0xA00, frozen := r == .halted }
    strands := [{ tl with uid := 2, slot := 1, run := r }]
    xtNet := [(0, true)]
    cycles := 1024
    pick := [0, 0x10, 0x1C0] }

theorem witness_BreakpointsAndDebug :
    (Ready (debugged .run 0) { } ∧ ((debugged .run 0).cluster (clusterOf (debugged .run 0).cur.core)).dbgCtl.getLsbD 0 = false)
    ∧ (Ready (debugged .run 5) { } ∧ ((debugged .run 5).cluster (clusterOf (debugged .run 5).cur.core)).dbgCtl.getLsbD 0 = true
      ∧ (debugged .run 5).cur.core < 4096)
    ∧ (((debugged .run 0).cluster 0).power = 0 ∧ (({ one tl with clusters := Vector.replicate 64 { power := 3 } } : State).cluster 0).power ≠ 0)
    ∧ ((debugged .halted 0).arg 0 < 64 ∧ (debugged .halted 0).arg 1 < 256 ∧ (debugged .halted 0).cur.live = true
      ∧ ((debugged .halted 0).cur.core, (debugged .halted 0).cur.slot) = (debugged .halted 0).dbgSelected ((debugged .halted 0).arg 0)
      ∧ (debugged .halted 0).cur.run = .halted ∧ (debugged .halted 0).cur.stopped = false)
    ∧ 4096 ≤ (one { ts with core := 8192 }).cur.core
    ∧ ((debugged .run 0).xtNet.find? (fun x => x.1 == 0) = some (0, true) ∧ ((debugged .run 0).cluster 0).dbgCtl.getLsbD 2 = false
      ∧ ((debugged .run 5).cluster 0).dbgCtl.getLsbD 2 = true)
    ∧ (let s := debugged .run 0
       let p := (s.cluster (s.arg 0)).traceCtl.toNat / 256 % 32
       10 ≤ p ∧ p ≤ 24 ∧ (s.cluster (s.arg 0)).lastSample < s.cycles / 2 ^ p * 2 ^ p ∧ (s.cluster (s.arg 0)).traceCtl.getLsbD 2 = false)
    ∧ (0x800 ≤ 0x9BF / 8 * 8 ∧ 0x9BF / 8 * 8 < 0x9C0) :=
  ⟨⟨ready_of (by decide +kernel), by decide +kernel⟩, ⟨ready_of (by decide +kernel), by decide +kernel⟩, by decide +kernel,
    by decide +kernel, by decide +kernel, by decide +kernel, by decide⟩

/-- Words of core 0's scratchpad that show errors, and words of it that are uncorrectable. -/
def softly (errs bad : List SoftErr) (pick : List Nat) : State := { one tl with softErrs := errs, badWords := bad, pick := pick }

/-- A word that shows an error, in the first column group. -/
def soft (a : Nat) (found : Bool) : SoftErr := { addr := a, mask := 1, found := found }

theorem witness_ErrorForms :
    ((softly [] [] [0, 0, 8, 2 ^ 64 + 1]).arg 0 = 0 ∧ undetected ((softly [] [] [0, 0, 8, 2 ^ 64 + 1]).arg 3 % 2 ^ 68) = true
      ∧ undetected 1 = false ∧ (softly [] [] [0, 0, 8, 1]).arg 3 % 2 ^ 68 ≠ 0 ∧ (softly [] [] []).softErrs ++ (softly [] [] []).badWords = []
      ∧ Mem.wf (softly [] [] []).spad = true)
    ∧ ((softly [soft 8 true] [] [0]).softErrs[(softly [soft 8 true] [] [0]).arg 0]? = some (soft 8 true)
      ∧ ([soft 8 true].filter (fun x => x.sameGroup (soft 8 true) && !x.same (soft 8 true) && !undetected x.mask)) = [])
    ∧ (let s := softly [soft 0 false] [] [0, 0]
       let a := s.arg 1 % 16 * 16384 + s.cycles / 4096 % 2048 * 8
       s.softErrs.find? (fun x => x.core == s.arg 0 && !undetected x.mask && (if x.row then x.addr / 512 == a / 512 else x.addr == a))
        = some (soft 0 false))
    ∧ ([soft 8 true, soft 504 false].filter (fun x => x.sameGroup (soft 8 true) && !x.same (soft 8 true) && !undetected x.mask) ≠ []
      ∧ ([{ soft 504 false with mask := 0 }].filter (fun x => x.sameGroup (soft 8 true) && !x.same (soft 8 true))) ≠ [])
    ∧ ({ mapped with pick := [1, 0, 1, 7] } : State).arg 0 = 1
    ∧ ((mapped.leaf (mapped.ownerClass 64) 64).any (fun l => l.gran < 3) ∧ ({ mapped with pick := [0, 64] } : State).arg 0 ≠ 1)
    ∧ [[], [5, 1], [5, 1, 6, 1], [5, 1, 6, 1, 7, 1]].all (fun p =>
        let e := errorWord 0 (pairsOf p)
        ((e.filter (fun x => x != 0)).length ≤ 2) == (p.length ≤ 4))
    ∧ decodeError 0 ((granCode 0).syndromes (errorWord 0 (pairsOf [5, 1, 6, 1, 7, 1]))) = none := by
  decide +kernel

/-- A die past its start map, with a page to move, and the move at a phase. -/
def moving (phase : MovePhase) (marked : Nat) (fault : Nat) : State :=
  { one ts with
    moves := [{ phase := phase, marked := List.range marked }]
    pick := [0, fault] }

/-- A page of die 0 past the start map, to be moved to the other tier. -/
def toMove : State :=
  { one ts with dies := Vector.replicate 4 { root0 := 2 ^ 36, root1 := 2 ^ 36 + 2 ^ 18, nextHbm := 2 ^ 36 + 2 ^ 20, idLimit := 2 ^ 36 }, pick := [0, 64, 1, 1] }

/-- A failing core of which its drover core has been told, and the containment it leads to. -/
def failing (told : Bool) (cs : List Contain) : State :=
  { one tl with notes := if told then [{ cause := 0x10, core := 0 }] else [], contains := cs, pick := [0, if told then 0 else 1] }

theorem witness_RecoveryForms :
    (((toMove.mapOwn 64 0).die 0).startMap = false ∧ toMove.arg 1 = 64 ∧ ((toMove.mapOwn 64 0).leaf (toMove.arg 0 % 2) 64).isSome = true
      ∧ ((toMove.mapOwn 64 0).pairFor (ownerOf (toMove.arg 1)) (toMove.arg 0 % 2) (toMove.arg 1 % 2 ^ 50)).any (fun p =>
        (p.2.leafFor (ownerOf (toMove.arg 1)) (toMove.arg 0 % 2) (toMove.arg 1) p.1).any (fun l => !l.mig)
          && (p.2.newFrame (ownerOf (toMove.arg 1)) (toMove.arg 3 % 2) (toMove.arg 0 % 2) (toMove.arg 2 % 4)).isSome))
    ∧ [MovePhase.copy, .recopy 1, .recopy 16, .final].all (fun p => (moving p 0 0).moves[(moving p 0 0).arg 0]?.any (fun m => m.phase == p)
        && (moving p 0 0).arg 1 != 1)
    ∧ ((moving .copy 513 0).moves[0]?.any (fun m => decide (512 < m.marked.length)) ∧ (moving .copy 0 1).arg 1 = 1)
    ∧ ((failing true []).notes.find? (fun n => (n.core == (failing true []).arg 0 || n.core2 == some ((failing true []).arg 0))
        && (n.cause == 0x10 || n.cause == 0x11)) = some { cause := 0x10, core := 0 } ∧ (failing false []).arg 1 = 1
      ∧ (failing false []).notes = [])
    ∧ (failing false [{ rects := [clusterRect 0] }]).contains[(failing false [{ rects := [clusterRect 0] }]).arg 0]?.any (fun c =>
      !c.resetDone && (failing false [{ rects := [clusterRect 0] }]).entries.isEmpty) := by
  decide +kernel

theorem witness_ErrorsAndTheirRecovery : undetected (2 ^ 64 + 1) = true ∧ undetected 1 = false := by decide +kernel

/-- A LAUNCH strand in front, with an address and no handle, or with a load still out. -/
def launching (out : Bool) : State :=
  { one ((tl.setG 1 256).setG 2 0) with pends := if out then [{ uid := 1, strand := 1 }] else [] }

/-- An item of the host at the head of the sequence. -/
def itemAt (k : ItemKind) : Item := { seq := 0, source := 2, tag := 7, launch := 1, kind := k }
def queued (s : State) (k : ItemKind) : State := { s with link := { s.link with items := [itemAt k] } }

/-- Whether an item is the next of the sequence (`Taken`). -/
def takable (s : State) (k : ItemKind) : Bool :=
  s.link.items == [itemAt k] && s.launches.all (fun l => l.stage != .leases) && decide (s.link.events.length < 256)

/-- A launch whose leases are to be made resident. -/
def leasing (m : Manifest) : State :=
  { ({ } : State) with launches := [{ id := 1, source := 2, tag := 7, m := m, plan := [{ core := 0, launch := 1 }] }], pick := [1] }

/-- A team whose turn has come. -/
def starting1 : State :=
  { ({ } : State) with
    launches := [{ launch1 .live with m := { kernels := [{ entry := 0x1000, convoys := 1, teams := 1, strands := 2, args := [1, 2, 3, 4] }] } }]
    holds := [{ core := 0, launch := 1, toStart := [0, 1] }]
    pick := [1, 0] }

theorem witness_LaunchesBegin :
    (Ready (launching false) { fields := [.s 1 false 14, .s 2 false 21], mem := true } ∧ ((launching false).cur.val 1).toNat % 256 = 0
      ∧ (launching false).cur.val 2 = 0 ∧ (launching false).releaseReady 1 2 4 0 = true ∧ (launching true).releaseReady 1 2 4 0 = false)
    ∧ (((one (tl.setG 1 128)).cur.val 1).toNat % 256 ≠ 0 ∧ joins.badHandle 1 (2 ^ 48 + 4) = true)
    ∧ (takable (queued (one tl) (.launch 512 3 9)) (.launch 512 3 9) = true ∧ (itemAt (.launch 512 3 9)).source < 16
      ∧ ((queued (one tl) (.launch 512 3 9)).launches.filter (fun l => l.stage != .over)).length < 32
      ∧ (one tl).covers 0 (itemAt (.launch 512 3 9)).clock = true ∧ (one tl).covers 0 [1, 0, 0, 0] = false)
    ∧ (match (one tl).readManifest 512 with | .error _ => true | .ok _ => false) = true
    ∧ (let l : Launch := { id := 1, source := 2, m := { kernels := [{ convoys := 1, teams := 1, strands := 1 }] } }
       let s1 := { one tl with launches := [l] }
       s1.areasFit l = some [] ∧ (match ({ s1 with areas := [] } : State).distribute l l.m.numbered [] [] with
        | .ok _ => true | .error _ => false) = true)
    ∧ 32 ≤ (({ one tl with launches := List.replicate 32 { stage := .live } } : State).launches.filter (fun l => l.stage != .over)).length
    ∧ ((leasing { }).launch? ((leasing { }).arg 0)).any (fun l => l.stage == .leases && decide (l.source < 16) && l.thermal.isNone
        && (match (leasing { }).mapLeases l.id l.m 0 l.m.leases with | .ok _ => true | .error _ => false))
    ∧ (match (leasing { leases := [{ base := 2 ^ 52, len := 1024 }] }).mapLeases 1 { leases := [{ base := 2 ^ 52, len := 1024 }] } 0
        [{ base := 2 ^ 52, len := 1024 }] with | .ok _ => false | .error n => n == 0) = true
    ∧ ((starting1.launch? (starting1.arg 0)).any (fun l => l.stage == .live)
      ∧ starting1.holds.all (fun h => h.launch == 1 && h.unit == starting1.arg 1 && !h.toStart.isEmpty && !h.started && starting1.teamReady h)
      ∧ starting1.holds.length = 1 ∧ (0x1000 : Word).toNat % 2 = 0) :=
  ⟨⟨ready_of (by decide +kernel), by decide +kernel⟩, by decide +kernel, by decide +kernel, by decide +kernel, by decide +kernel,
    by decide +kernel, by decide +kernel, by decide +kernel⟩

/-- A MESSAGE for class 5 of launch 1. -/
def msg5 : ItemKind := .message 5 3 77 [1, 2, 3, 4, 5] 12 4

/-- A launch at a stage of its end, with nothing of it left. -/
def finishing (stage : LaunchStage) (k : Option ItemKind) : State :=
  { ({ } : State) with
    launches := [{ id := 1, source := 2, tag := 7, stage := stage, vector := 3, token := 9 }]
    holds := []
    link := { items := match k with | some k => [itemAt k] | none => [] }
    timeNs := 2000000
    pick := [1] }

/-- A strand of a launch that is ending. -/
def stopping : State := { finishing .ending none with cur := { live := true, uid := 1, launch := 1 } }

/-- The only strand of a launch, in a wait that nothing can end. -/
def stuck : State :=
  { one { tl with wait := { kind := .sync, n := 2 } } with
    launches := [launch1 .live]
    waits := [{ uid := 2, strand := 1, launch := 1, addr := 64 }] }

theorem witness_LaunchesEnd :
    (takable (queued (one tl) msg5) msg5 = true ∧ (one tl).launch? 1 = none)
    ∧ (takable (queued (sending 5 []) msg5) msg5 = true ∧ ((sending 5 []).launch? 1).any (fun l => l.stage == .live)
      ∧ (sending 5 []).classOf 1 5 ≠ none ∧ (sending 6 []).classOf 1 6 = none)
    ∧ (takable (queued (one tl) .endLaunch) .endLaunch = true ∧ takable (queued (sending 5 []) .endLaunch) .endLaunch = true)
    ∧ ((stopping.launch? (stopping.arg 0)).any (fun l => l.stage == .ending && decide (l.endAt + l.m.drainLimit ≤ stopping.timeNs))
      ∧ stopping.all.all (fun t => t.run != .halted) ∧ stopping.saved = [] ∧ stopping.cur.mode = .launch)
    ∧ takable (queued joins (.teamEnd 0 0 0)) (.teamEnd 0 0 0) = true
    ∧ ((finishing .ending none).launch? ((finishing .ending none).arg 0)).any (fun l => l.stage == .ending
        && !((finishing .ending none).endClean l).hasStrands l.id && ((finishing .ending none).endClean l).settled l.id)
    ∧ ((finishing .over (some .launchEnd)).launch? 1).any (fun l => l.stage == .over && decide (l.source < 16) && l.thermal.isNone
        && takable (finishing .over (some .launchEnd)) .launchEnd)
    ∧ (stuck.launches.filter (fun l => l.stage == .live) = [launch1 .live] ∧ (stuck.deadlockOf 1).map (fun a => a.id) = [1] ∧ stuck.deadlocks = [] ∧ stuck.all.all (fun t => t.run != .halted))
    ∧ (one tl).deadlockOf 1 = [] := by
  decide +kernel

/-- A host's write of a register, or of a doorbell. -/
def hostWrites (pick : List Nat) : State :=
  { ({ } : State) with
    pick := pick
    link := { started := true
              cqs := { base := 0, size := 16, tail := 1 } :: List.replicate 15 { }
              evqSize := 64, events := [[1, 2, 3, 4]]
              rings := { size := 16 } :: List.replicate 63 { }
              windows := [{ vector := 1, token := 2, closeAt := 0 }] }
    msgs := [{ w := [BitVec.ofNat 64 (0xFFFF * 2 ^ 16), 0, 0, 0, 0, 0, 0, 0], stage := .sent }]
    host := [(0, 3)] }

theorem witness_HostQueuesAndRings :
    ((hostWrites [0x20, 32]).arg 0 = 0x20 ∧ (hostWrites [0x20, 32]).arg 1 % 2 ^ 64 % 32 = 0 ∧ (hostWrites [0x20, 32]).arg 2 ≠ 1
      ∧ (hostWrites [0x1008, 0, 1]).arg 2 = 1 ∧ (hostWrites [0x1008, 0, 1]).link.cqs[0]?.any (fun c => c.size == 16))
    ∧ (hostWrites [256, 3, 2]).arg 2 = 2
    ∧ ((hostWrites [0, 16]).link.cqs[(hostWrites [0, 16]).arg 0]?.any (fun q => !q.stopped
        && decide (((hostWrites [0, 16]).arg 1 + 2 ^ 32 - q.head) % 2 ^ 32 ≤ q.size)
        && decide (q.size < ((hostWrites [0, 17]).arg 1 + 2 ^ 32 - q.head) % 2 ^ 32))
      ∧ (hostWrites [0, 16]).pick.length ≤ 2)
    ∧ ((hostWrites []).link.started = true ∧ (hostWrites []).link.events.length < 256 ∧ (hostWrites []).link.nextQueue = some 0
      ∧ (hostWrites []).link.cqs[0]?.isSome = true)
    ∧ ((hostWrites []).link.evqSize ≠ 0 ∧ ((hostWrites []).link.evqProd + 2 ^ 32 - (hostWrites []).link.evqCons) % 2 ^ 32 < 64
      ∧ (64 + 2 ^ 32 - 0) % 2 ^ 32 = 64)
    ∧ (hostWrites [0]).msgs[(hostWrites [0]).arg 0]?.any (fun m => m.stage == .sent && !m.isCounter && m.cls == 0xFFFF
      && ((hostWrites [0]).link.rings.getD (m.key.toNat % 64) { }).size != 0)
    ∧ (hostWrites [0]).link.windows[(hostWrites [0]).arg 0]?.any (fun w => decide (w.closeAt ≤ (hostWrites [0]).timeNs)) := by
  decide +kernel

/-- A POWER command under way, of clusters 0 and 1. -/
def powering (pick : List Nat) : State :=
  { ({ } : State) with link := { powers := [(2, 7, [0, 1], 1)] }, pick := pick }

theorem witness_PowerAttestationAndHostAccess :
    (takable (queued joins (.power 1 3)) (.power 1 3) = true ∧ joins.clusterHolds 0 = true ∧ (joins.cluster 0).power = 0
      ∧ (1 : Word).getLsbD 0 = true)
    ∧ (takable (queued (one tl) (.power 0 3)) (.power 0 3) = true ∧ (List.range 64).all (fun c => !(0 : Word).getLsbD c) = true)
    ∧ (takable (queued (one tl) (.power 3 1)) (.power 3 1) = true ∧ (one tl).clusterHolds 0 = false ∧ (one tl).clusterHolds 1 = false)
    ∧ ((powering [0, 1]).link.powers[(powering [0, 1]).arg 0]? = some (2, 7, [0, 1], 1) ∧ (powering [0, 1]).arg 1 ∈ [0, 1]
      ∧ (powering [0, 1]).link.powers.length = 1 ∧ (powering [0, 1]).link.events.length < 256)
    ∧ (({ one tl with pick := [3] } : State).arg 0 < 4 ∧ (List.range 64).all (fun c => ((one tl).cluster c).power != 3) = true)
    ∧ (takable (queued (one tl) (.attest [1, 2] 256)) (.attest [1, 2] 256) = true ∧ Mem.wf (one tl).host = true)
    ∧ (let s := { mapped with pick := [1, 64, 8, 5] }
       s.arg 0 = 1 ∧ (s.mapOwn 64 0).touch (s.ownerClass 64) 64 = s ∧ okIs (s.keys (s.reqOwner 64) .w 64 8) (keysFrom 64 8) = true
        ∧ s.mustStall 0 (s.ownerClass 64) 64 (keysFrom 64 8) = false ∧ s.readStalls 64 8 = false
        ∧ s.partialBad (keysFrom 64 8) (coveredKeys (256 ^ 8 - 1) (keysFrom 64 8)) = false
        ∧ ({ s with moves := [{ phase := .final, src := 0 }] } : State).mustStall 0 (s.ownerClass 64) 64 (keysFrom 64 8) = true
        ∧ okIs (s.keys (s.reqOwner 64) .r 64 8) (keysFrom 64 8) = true ∧ s.uncorrectable (keysFrom 64 8) = false
        ∧ errIs (s.keys (s.reqOwner (2 ^ 52)) .w (2 ^ 52) 8) 6 = true) := by
  decide +kernel

/-- A start under way, die `d` at step `n`. -/
def startingAt (n ok : Nat) (boots : Bool) : State :=
  { one (if boots then ts else ({ } : Strand)) with
    link := { startKind := 1, steps := [n, 9, 9, 9] }, timeNs := 1000000, pick := [0, ok] }

theorem witness_StartUp :
    ((startingAt 1 0 false).link.starting = true ∧ (one tl).link.starting = false)
    ∧ [1, 4, 6, 7, 8].all (fun n => (startingAt n 1 false).arg 0 < 4 && (startingAt n 1 false).link.steps.getD 0 0 == n
        && (startingAt n 1 false).link.failed.getD 0 false == false && (startingAt n 1 false).arg 1 == 1 && !(startingAt n 1 false).bootTrapped 0)
    ∧ ((startingAt 5 1 false).bootTrapped 0 = false ∧ ({ startingAt 5 1 false with notes := [{ cause := 1 }] } : State).bootTrapped 0 = true)
    ∧ imageGood (startingAt 2 1 false).flashImage (startingAt 2 1 false).fuseVendor = true ∧ imageGood [] 0 = false
    ∧ ([0, 1, 2, 3].all (fun e => 7 ≤ (startingAt 7 1 false).link.steps.getD e 0)
      ∧ ({ startingAt 7 1 false with link := { startKind := 1, steps := [7, 6, 9, 9] } } : State).link.steps.getD 1 0 < 7)
    ∧ (startingAt 1 0 false).arg 1 ≠ 1
    ∧ ((startingAt 6 1 false).all.all (fun u => u.kind != .boot) ∧ ((startingAt 6 1 false).die 0).bootLost = false)
    ∧ ((startingAt 6 1 true).all.any (fun u => u.kind == .boot && dieOf u.core == 0)
      ∧ (startingAt 6 1 true).all.any (fun u => u.kind == .boot && u.core == cornerOf 0)
      ∧ ((startingAt 6 1 true).die 0).cornerAt + 1000000 ≤ (startingAt 6 1 true).timeNs)
    ∧ (startingAt 8 1 false).link.steps.set 0 9 = [9, 9, 9, 9] := by
  decide +kernel

/-- A strand with a trap vector in its own mode's register. -/
def vectored (m : Mode) (inside : Bool) : State :=
  one { tl with mode := m, trapVector := 0x2000, svTrapVector := 0x3000, status := if inside then 0x100 else 0 }

theorem witness_TakingATrap :
    ((vectored .launch false).cur.mode = .launch ∧ (vectored .launch false).cur.trapVector ≠ 0
      ∧ inTrap (vectored .launch false).cur.status = false)
    ∧ (inTrap (vectored .launch true).cur.status = true ∧ (vectored .launch true).cur.live = true) ∧ (one tl).cur.trapVector = 0
    ∧ ((vectored .supervisor false).cur.mode = .supervisor ∧ (vectored .supervisor false).cur.svTrapVector ≠ 0)
    ∧ (one ts).cur.mode = .supervisor ∧ (one ts).cur.svTrapVector = 0 ∧ (one ts).cur.cap.mode ≠ .opened := by
  decide +kernel

/-- A strand whose g1 is empty, is awaited, or holds a tag. -/
def g1 (f : Reg → Reg) : State := one (tl.onReg 1 f)

/-- The field of g1 as a source, with its policy bit. -/
def srcG1 (p : Bool) : Field := .s 1 p 14

theorem witness_ChecksAtIssue :
    ([Field.d 63 7, srcG1 false].find? (fun f => f.bad) = some (.d 63 7) ∧ (Field.d 59 7).bad = true ∧ (srcG1 false).bad = false)
    ∧ ([srcG1 true].find? (fun f => f.pol && f.src && f.cells.any (fun c => !(g1 (fun r => { r with full := false })).cur.cellFull c))
        = some (srcG1 true))
    ∧ ((srcG1 false).cells.all (fun c => !(g1 (fun r => { r with full := false })).cur.cellFull c)
      ∧ (srcG1 false).cells.any (fun c => (g1 (fun r => { r with pend := true })).cur.cellPend c))
    ∧ [5, 0x10, 6].all (fun n => [srcG1 false].findSome? (fun f => if f.src then
        f.cells.findSome? (fun c => (g1 (fun r => { r with tag := some ⟨n, 8⟩ })).cur.cellTag c) else none) == some ⟨n, 8⟩)
    ∧ ((one { tl with hold := 1 }).cur.hold ≠ 0 ∧ (one tl).cur.hold = 0 ∧ (one tl).caughtUp (one tl).cur = true
      ∧ (one { tl with need := [0, 1, 0, 0] }).caughtUp { tl with need := [0, 1, 0, 0] } = false)
    ∧ (capCheck (one { tl with cap := { mode := .opened } }).cur .outside [srcG1 false] none = some 2
      ∧ capCheck (one tl).cur .outside [srcG1 false] none = none) := by
  decide +kernel

/-- A machine whose next step runs ADD g3, g1, g2. -/
def addNext : State := State.reset.withFetchWord 32 (joinHalves (encode (.add ⟨3, 1, 2, false, false⟩)))

theorem witness_AStepRunsTheDecodedInstruction :
    ((Instr.add ⟨3, 1, 2, false, false⟩).wf = true ∧ encode (.add ⟨3, 1, 2, false, false⟩) ≠ [])
    ∧ (addNext.tape = [] ∧ addNext.stalled = false ∧ addNext.cur.live = true ∧ (addNext.pass 1 1).boundary = .issue
      ∧ (addNext.pass 1 1).mustYield exec = false ∧ (fetchFor (addNext.pass 1 1) (addNext.pass 1 1).cur).fault = none
      ∧ (fetchFor (addNext.pass 1 1) (addNext.pass 1 1).cur).halves = encode (.add ⟨3, 1, 2, false, false⟩))
    ∧ (let s := { one ts with tape := [.issue 0 0 1 1] }
       (({ s with tape := [] } : State).pass 1 1).select 0 0 = some (({ s with tape := [] } : State).pass 1 1))
    ∧ (encode .sliceWriteback = [] ∧ encode .cRet ≠ []) := by
  decide +kernel

theorem witness_QueueForms_boundary :
    (let s := { joins with dies := Vector.replicate 4 { package := 3 } }
     decide (0x28000 / 2 ^ 15 % 2 = 1) ∧ 0x28000 / 2 ^ 16 % 256 ≠ (s.die (dieOf s.cur.core)).package)
    ∧ (one { tl with heldRec := some [] }).cur.heldRec = some []
    ∧ ({ joins with launches := [launch1 .ending] } : State).ending 1 = true ∧ out1.noPends 1 = false
    ∧ ({ joins with msgs := List.replicate 32 { w := [BitVec.ofNat 64 (2 ^ 48), 0, BitVec.ofNat 64 (2 ^ 48)], core := 0 } } : State).flowCount 0
        (fun m => m.isCounter && !m.isItem && (m.w.getD 2 0).toNat / 4096 % 4 == 2 ^ 48 / 4096 % 4) = 32
    ∧ (twinSending 32).cur.twin.isSome = true ∧ 32 ≤ (twinSending 32).cur.twinSends := by
  decide +kernel

theorem witness_QueueAndMeshInstructionsComplete :
    (joins.enqStalls 0 1 ((joins.cur.val 1).toNat % 16) 0 = false ∧ (joins.cur.val 2).toNat % 2 = 0 ∧ (joins.cur.val 2).toNat < 2 ^ 11
      ∧ joins.usesCluster 1 ((joins.cur.val 2).toNat / 16 % 64) = true ∧ joins.cur.ackPend.length < 64 ∧ joins.cur.twin = none
      ∧ joins.flowCount 0 (fun m => m.isCounter && !m.isItem && (m.w.getD 2 0).toNat / 4096 % 4 == (joins.cur.val 1).toNat / 4096 % 4) < 32
      ∧ (joins.cur.val 4).toNat % 64 = 0 ∧ (joins.cur.val 4).toNat < 0x3FFC0 ∧ 0 ∉ (ticket []).cur.ackPend)
    ∧ (let s := casting 0x01010001 128 0
       let m := s.packetOf (s.cur.val 1).toNat (s.spadRead 0 128 128)
       m.w ≠ 0 ∧ m.h ≠ 0 ∧ m.x0 + m.w ≤ 64 ∧ m.y0 + m.h ≤ 64 ∧ s.anyDest m = true ∧ s.mcasts = [] ∧ (s.cur.val 2).toNat = 128)
    ∧ ({ one tl with rxq := [{ core := 0 }] } : State).rxq.find? (fun p => p.core == 0) = some { core := 0 }
    ∧ (forking false none).mcasts.all (fun m => m.left == none && !(forking false none).mcastBefore m m.router && m.branches.all (fun b => (forking false none).branchRoom m b))
    ∧ (forking false (some [1])).mcasts.all (fun m => (forking false (some [1])).branchRoom m 1) := by
  decide +kernel

theorem witness_DecodingEncodedInstructions :
    ((Instr.li 63 0xFFFFF).wf = true ∧ encode (.li 63 0xFFFFF) ≠ [])
    ∧ ((Instr.vfma ⟨some ⟨true, true, 31, 5, true, true, 3⟩, 2, 63, true, 63, true, 31⟩).wf = true
      ∧ (encode (.vfma ⟨some ⟨true, true, 31, 5, true, true, 3⟩, 2, 63, true, 63, true, 31⟩)).length = 4)
    ∧ ((Instr.cNop).wf = true ∧ (encode .cNop).length = 1) := by
  decide +kernel

theorem witness_EveryStepKeepsMemoriesCanonical :
    (Mem.wf addNext.hbm = true ∧ Mem.wf addNext.spad = true ∧ Mem.wf addNext.host = true)
    ∧ (match step addNext with | .next _ => true | _ => false) = true := by
  decide +kernel

/-! ### Ill-formed terms, each refused by one check -/

theorem test_wf_scopes : [Instr.fenceAcq 0, .fenceRel 6, .fenceFull 63, .icinv 1 ⟨1, 2, false, false⟩, .icinv 5 ⟨1, 2, false, false⟩,
    .pfg ⟨1, false⟩ 0 0, .ldg ⟨3, 1, false⟩ 3 0 6 0].all (fun i => !i.wf) = true := by decide

theorem test_wf_sizes_and_orders : [Instr.lds ⟨3, 1, false⟩ 7 0, .lds ⟨32, 1, false⟩ 4 0, .ldn ⟨3, 1, 2, false, false⟩ 5, .lda 32 4 0,
    .ldk 3 5 0, .ldh ⟨3, 1, false⟩ 4 0, .ldg ⟨3, 1, false⟩ 3 2 3 0, .stg ⟨3, 1, false⟩ 3 1 3 0, .sth ⟨3, 1, false⟩ 3 3].all (fun i => !i.wf)
    = true := by decide

theorem test_wf_destinations : [Instr.enqAck ⟨60, 1, 2, false, false⟩, .fwd ⟨47, 1, false⟩ 0 0, .fwd ⟨60, 1, false⟩ 0 0, .fwdArm 60,
    .cAdd 0 0 0, .capb ⟨39, 1, false⟩, .capb ⟨60, 1, false⟩, .caps 48, .cape ⟨39, 1, false⟩, .capa ⟨47, 1, false⟩].all (fun i => !i.wf) = true := by decide

theorem test_wf_capsule_destinations : [Instr.capb ⟨47, 1, false⟩, .caps 60, .cape ⟨40, 1, false⟩, .capa ⟨48, 1, false⟩].all (fun i => i.wf) = true := by
  decide

/-- A prefix with one field set. -/
def p0 : Pfx := ⟨false, false, 0, 0, false, false, 0⟩

theorem test_wf_prefix : [Instr.vadd ⟨some { p0 with rnd := 6 }, 0, 2, false, 1, false, 4⟩, .vadd ⟨some { p0 with rnd := 1 }, 3, 2, false, 1, false, 4⟩,
    .vmin ⟨some { p0 with sat := true }, 3, 2, false, 1, false, 4⟩, .vadd ⟨some { p0 with c := 1 }, 0, 2, false, 1, false, 4⟩,
    .vadd ⟨some { p0 with m := 1 }, 0, 2, false, 1, false, 4⟩, .vadd ⟨some { p0 with zero := true }, 0, 2, false, 1, false, 4⟩,
    .vsel ⟨none, 0, 2, false, 1, false, 4⟩, .mand ⟨some { p0 with men := true }, 0, 2, false, 1, false, 4⟩,
    .vnop (some { p0 with m := 1 }), .vfwdArm (some { p0 with rnd := 1 }) 4, .vfwd (some { p0 with men := true }) 0 0 4].all (fun i => !i.wf)
    = true := by decide

theorem test_wf_operands : [Instr.vshl ⟨none, 0, 2, false, 1, false, 4⟩, .vabs ⟨none, 3, 2, false, 1, false, 4⟩, .vbcast ⟨none, 3, 33, false, 33, false, 4⟩,
    .vslide ⟨none, 3, 2, false, 1, false, 4⟩, .vperm ⟨none, 3, 33, false, 1, false, 4⟩, .mand ⟨none, 0, 2, true, 1, false, 4⟩,
    .mand ⟨none, 0, 2, false, 8, false, 4⟩, .vceq ⟨none, 3, 2, false, 1, false, 8⟩, .vcvt ⟨none, 0, 12, false, 1, false, 4⟩,
    .vcvt ⟨none, 4, 0, true, 1, false, 4⟩, .tlrs ⟨some { p0 with c := 32 }, 0, 33, false, 33, false, 31⟩,
    .tlrs ⟨some p0, 0, 1, false, 33, false, 0⟩, .tema ⟨some p0, 0, 1, false, 33, false, 0⟩].all (fun i => !i.wf) = true := by decide

theorem test_reserved_words : [0x0C00001B, 0xF800001F, 0x4000601F, 0x0030003B, 0x60000007].map (fun w => (decodeTableWord 32 w).isSome)
    = [true, false, false, true, false] := by decide +kernel

/-! ### Words, bit by bit from the encodings of R30 to R37 -/

theorem test_word_majors_0_to_4 :
    decodeTableWord 32 0b00000_000010_1_000001_0_000011_00000_11 = some (.add ⟨3, 1, 2, false, true⟩)
    ∧ decodeTableWord 32 0b00010_000000_0_110111_1_111000_00001_11 = some (.popc ⟨56, 55, true⟩)
    ∧ decodeTableWord 32 0b111111111_001_000001_0_000011_00010_11 = some (.andi ⟨3, 1, false⟩ 0x1FF)
    ∧ decodeTableWord 32 0b000111111_111_000001_0_000011_00010_11 = some (.srai ⟨3, 1, false⟩ 63)
    ∧ decodeTableWord 32 0b1000000000000000001_000011_00100_11 = some (.liu 3 0x40001) := by
  decide +kernel

theorem test_word_majors_5_to_7 :
    decodeTableWord 32 0b100000000000000_011_1_000001_00101_11 = some (.bgez ⟨1, true⟩ 0x4000)
    ∧ decodeTableWord 32 0b0000000000000000010_101110_00110_11 = some (.jal 46 2)
    ∧ decodeTableWord 32 0b00010_010000_0_000000_0_000000_00111_11 = some (.trap 16)
    ∧ decodeTableWord 32 0b00101_000011_0_000000_0_000111_00111_11 = some (.crdBank1 3 7)
    ∧ decodeTableWord 32 0b10100_000000_0_000001_0_000011_00111_11 = some (.ins ⟨3, 1, false⟩) := by
  decide +kernel

theorem test_word_memory :
    decodeTableWord 32 0b11111111_101_0_000001_0_000011_01000_11 = some (.lds ⟨3, 1, false⟩ 5 0xFF)
    ∧ decodeTableWord 32 0b00000000_111_1_000000_0_000011_01000_11 = some (.pushs 3)
    ∧ decodeTableWord 32 0b0_011_1_000010_0_000001_0_000011_01001_11 = some (.stn ⟨3, 1, 2, false, false⟩ 3)
    ∧ decodeTableWord 32 0b000000000000001_010_1_000011_01010_11 = some (.sta 3 2 1)
    ∧ decodeTableWord 32 0b11_101_10_011_01_000001_0_000011_01100_11 = some (.stg ⟨3, 1, false⟩ 3 2 5 3)
    ∧ decodeTableWord 32 0b01_011_00_100_10_000001_0_111100_01100_11 = some (.pfg ⟨1, false⟩ 3 1)
    ∧ decodeTableWord 32 0b000000_10_011_1_000001_0_000011_01101_11 = some (.sth ⟨3, 1, false⟩ 3 2) := by
  decide +kernel

theorem test_word_atomics_and_queues :
    decodeTableWord 32 0b1_1001_000010_0_000001_0_000011_01110_11 = some (.acas ⟨3, 1, 2, false, false⟩ true)
    ∧ decodeTableWord 32 0b0_1010_000010_0_000001_0_000011_01111_11 = some (.afaddAr ⟨3, 1, 2, false, false⟩)
    ∧ decodeTableWord 32 0b00110_000010_0_000001_1_000000_10000_11 = some (.joindec ⟨1, 2, true, false⟩)
    ∧ decodeTableWord 32 0b01011_000010_1_000001_0_000011_10000_11 = some (.capr ⟨3, 1, 2, false, true⟩)
    ∧ decodeTableWord 32 0b00011_000010_0_000001_0_111100_10001_11 = some (.enq ⟨1, 2, false, false⟩)
    ∧ decodeTableWord 32 0b00011_000010_0_000001_0_000011_10001_11 = some (.enqAck ⟨3, 1, 2, false, false⟩)
    ∧ decodeTableWord 32 0b01010_0_1_00_00_0_000000_0_110000_10001_11 = some (.fwdArm 48) := by
  decide +kernel

theorem test_word_tiles_and_exchange :
    decodeTableWord 32 0b00000_0_11111_0_000001_0_000000_10010_11 = some (.tdef 31 ⟨1, false⟩)
    ∧ decodeTableWord 32 0b00011_1_00011_0_000001_0_000111_10010_11 = some (.cpyjSt 3 ⟨7, 1, false⟩)
    ∧ decodeTableWord 32 0b00110_000001_0_000001_0_000001_10010_11 = some (.mxdrAddI32 ⟨1, false⟩)
    ∧ decodeTableWord 32 0b00000_000000_0_000001_0_000101_10011_11 = some (.xmov 5 ⟨1, false⟩)
    ∧ decodeTableWord 32 0b00001_000_101_0_000000_0_000011_10011_11 = some (.xget 5 3) := by
  decide +kernel

theorem test_word_vectors :
    decodeTableWord 32 0b111_110_100001_1_000010_0_00100_10100_11 = some (.vmax ⟨none, 6, 33, true, 2, false, 4⟩)
    ∧ decodeTableWord 64 (0b100_000_000011_0_000010_0_00100_10110_11 * 2 ^ 32 + 0b000000000_0_0_000000_000_0_1_010_11111_11)
        = some (.vsel ⟨some { p0 with men := true, m := 2 }, 0, 3, false, 2, false, 4⟩)
    ∧ decodeTableWord 32 0b000_010_001000_0_000010_0_00100_10111_11 = some (.vcvt ⟨none, 2, 8, false, 2, false, 4⟩)
    ∧ decodeTableWord 32 0b111_001_000011_0_000010_0_00100_11000_11 = some (.vdot ⟨none, 1, 3, false, 2, false, 4⟩)
    ∧ decodeTableWord 32 0b011_000_000000_0_000010_0_00100_11001_11 = some (.vexp2 ⟨none, 0, 0, false, 2, false, 4⟩)
    ∧ decodeTableWord 32 0b110_000_000000_0_000010_0_00100_11010_11 = some (.mpop ⟨none, 0, 0, false, 2, false, 4⟩) := by
  decide +kernel

theorem test_word_compact :
    decodeTableWord 16 0b1111_010_001_0110_00 = some (.cAddi 1 2 15)
    ∧ decodeTableWord 16 0b0_0011_010_001_010_01 = some (.cLdsW 1 2 3)
    ∧ decodeTableWord 16 0b0_1111111_001_111_01 = some (.cBnz 1 127)
    ∧ decodeTableWord 16 0b0000000_010_0101_10 = some (.cJr 2)
    ∧ decodeTableWord 16 0b0000000000_1111_10 = some .cBkpt
    ∧ decodeTableWord 16 0x0000 = none ∧ decodeTableWord 16 0x8000 = none := by
  decide +kernel

/-! ### Instructions on small states -/

/-- The state after an instruction. -/
def after (i : Instr) (s : State) : State :=
  match exec i s with
  | .next t => t
  | _ => s

/-- The register `r` after an instruction on g1 and g2. -/
def result (i : Instr) (a b : Word) (r : Nat) : Word := ((after i (one ((tl.setG 1 a).setG 2 b))).cur.reg r).val

/-- R40: the sum wraps. -/
theorem test_add_wraps : result (.add ⟨3, 1, 2, false, false⟩) 0xFFFFFFFFFFFFFFFF 2 3 = 1 := by decide +kernel

/-- R40: a zero divisor gives -1, and the remainder is the dividend. -/
theorem test_div_by_zero : result (.div ⟨3, 1, 2, false, false⟩) 5 0 3 = 0xFFFFFFFFFFFFFFFF ∧ result (.rem ⟨3, 1, 2, false, false⟩) 5 0 3 = 5 := by
  decide +kernel

/-- R40: the most negative number divided by -1 wraps to itself. -/
theorem test_div_overflow : result (.div ⟨3, 1, 2, false, false⟩) 0x8000000000000000 0xFFFFFFFFFFFFFFFF 3 = 0x8000000000000000 := by
  decide +kernel

/-- R40: ADDW sign-extends its low half; the source is also the destination. -/
theorem test_addw_extends : result (.addw ⟨1, 1, 1, false, false⟩) 0x40000000 0 1 = 0xFFFFFFFF80000000 := by decide +kernel

/-- R40: MULH and MULHN differ in their signs. -/
theorem test_mulh_signs : result (.mulh ⟨3, 1, 2, false, false⟩) 0xFFFFFFFFFFFFFFFF 2 3 = 0xFFFFFFFFFFFFFFFF
    ∧ result (.mulhn ⟨3, 1, 2, false, false⟩) 0xFFFFFFFFFFFFFFFF 2 3 = 1 := by decide +kernel

/-- R42: leading zeros of 0 are 64. -/
theorem test_clz_of_zero : result (.clz ⟨3, 1, false⟩) 0 0 3 = 64 := by decide +kernel

/-- R43: imm9 is signed. -/
theorem test_addi_negative : result (.addi ⟨3, 1, false⟩ 0x1FF) 0 0 3 = 0xFFFFFFFFFFFFFFFF := by decide +kernel

/-- R25: y0 takes a result first, and a result moves the others on. -/
theorem test_result_enters_y : (after (.add ⟨60, 1, 2, false, false⟩) (one ((tl.setG 1 3).setG 2 4))).cur.y = #v[7, 0, 0, 0] := by
  decide +kernel

/-- R46: a branch that is taken, and one that is not. -/
theorem test_branch : (after (.bz ⟨1, false⟩ 0x7FFF) (one { tl with pc := 0x100 })).cur.pc = 0xFE
    ∧ (after (.bnz ⟨1, false⟩ 0x7FFF) (one { tl with pc := 0x100 })).cur.pc = 0x104 := by decide +kernel

/-- R57, R396: TRAP 16 has cause 0x90; the pc is saved, and goes to the vector. -/
theorem test_trap : (let t := (after (.trap 16) (one { tl with pc := 0x100, trapVector := 0x2000 })).cur
    (t.pc, t.trapPc, t.trapCause, inTrap t.status)) = (0x2000, 0x100, 0x90, true) := by decide +kernel

/-- R34, R257: a store of a word to the top of the scratchpad, and the load of its bytes. -/
theorem test_store_load : (let s := after (.sts ⟨2, 1, false⟩ 2 0) (one ((tl.setG 1 0x3FFFC).setG 2 0x1122334455667788))
    (s.spadRead 0 0x3FFFC 4, s.spadRead 0 0x3FFF8 4)) = (0x55667788, 0) := by decide +kernel

/-- R37: C.LI sign-extends. -/
theorem test_cli_negative : ((after (.cLi 1 0x7F) (one tl)).cur.reg (c3 1).toNat).val = 0xFFFFFFFFFFFFFFFF := by decide +kernel

/-- R206: an element without its mask bit is kept. -/
theorem test_vadd_masked : (let t : Strand := ((tl.setV 1 5).setV 2 7).setV 4 9
    ((after (.vadd ⟨some { p0 with men := true }, 3, 2, false, 1, false, 4⟩) (one t)).cur.vreg 4).val.toNat % 2 ^ 32) = 9 := by
  decide +kernel

end Sys2Proof.Tests
end

section
/-! SUPPORT. MCAST, NETRX and the mesh (R139, R141, R143, R147 to R153): what completing an instruction keeps, what sending a packet
into the branches of its tree keeps, and what the passing of occupancy counts writes. -/

namespace Sys2Proof.Mesh

open Sys2Proof Sys2Proof.Machine

/-! ### Completing an instruction -/

/-- What an instruction that writes at most the registers `ds`, and no last result, leaves of its strand `u`: a strand `t` that
has moved past it. -/
structure Completed (u t : Strand) (fs : List Field) (ds : List Nat) (len : Nat) : Prop where
  regs : KeepsRegs u t fs ds
  cap : t.cap = u.countStep.cap
  last : t.y = u.y
  pc : t.pc = u.pc + BitVec.ofNat 48 len
  rest : t = u.withRegs t

/-- Only the registers, the pc and the capsule step change, so the core stays. -/
theorem Completed.core {u t : Strand} {fs : List Field} {ds : List Nat} {len : Nat} (h : Completed u t fs ds len) :
    t.core = u.core := by
  rw [h.rest]; rfl

/-- Reading the sources, counting the step and moving past the instruction. -/
theorem completed_begin (u : Strand) (fs : List Field) (len : Nat) (h : fieldsOk fs) :
    Completed u ((u.consume fs).countStep.advance len) fs [] len := by
  have hk := (u.consume_reads fs h).keepsRegs
  have hb := u.begin_eq fs h
  refine ⟨⟨fun c hc => ?_, fun c hc => ?_, fun c h56 hc hn => ?_, fun c hc hn => ?_⟩, ?_, ?_, ?_, ?_⟩
  · simpa using hk.scalar c hc
  · simpa using hk.vector c hc
  · simpa using hk.unread c h56 hc hn
  · simpa using hk.unreadV c hc hn
  all_goals rw [hb]; rfl

theorem setG_eq (t : Strand) (d : BitVec 6) (x : Word) : t.setG d x = { t with gk := (t.setG d x).gk } := by
  unfold Strand.setG Strand.onReg; split <;> rfl

theorem setG_advance (t : Strand) (d : BitVec 6) (x : Word) (len : Nat) :
    (t.setG d x).advance len = (t.advance len).setG d x := by
  unfold Strand.setG Strand.onReg; split <;> rfl

/-- A register written on top of it. -/
theorem Completed.setG {u t : Strand} {fs : List Field} {len : Nat} (h : Completed u t fs [] len) (d : BitVec 6) (x : Word) :
    Completed u (t.setG d x) fs [d.toNat] len := by
  have hreg : ∀ c, c ∉ [d.toNat] → (t.setG d x).reg c = t.reg c := fun c hc => by
    rw [Strand.setG, Strand.reg_onReg, if_neg (fun hd => hc (by simp [hd.1]))]
  have hvreg : ∀ c, (t.setG d x).vreg c = t.vreg c := fun c => by rw [Strand.setG, Strand.vreg_onReg]
  have hrest : t.setG d x = u.withRegs (t.setG d x) := by
    rw [setG_eq t d x]
    exact congrArg (fun w : Strand => { w with gk := (t.setG d x).gk }) h.rest
  refine ⟨⟨fun c hc => ?_, fun c _ => ?_, fun c h56 hc hn => ?_, fun c _ hn => ?_⟩, ?_, ?_, ?_, hrest⟩
  · rw [hreg c hc]; exact h.regs.scalar c (by simp)
  · rw [hvreg c]; exact h.regs.vector c (by simp)
  · rw [hreg c hc]; exact h.regs.unread c h56 (by simp) hn
  · rw [hvreg c]; exact h.regs.unreadV c (by simp) hn
  · rw [setG_eq]; exact h.cap
  · rw [setG_eq]; exact h.last
  · rw [setG_eq]; exact h.pc

theorem reg_setG_same (t : Strand) (d : BitVec 6) (x : Word) (hd : d.toNat < 56) : ((t.setG d x).reg d.toNat).val = x := by
  simp [Strand.setG, Strand.reg_onReg, hd, Reg.put]

/-! ### MCAST -/

/-- The fields of MCAST (R149). -/
abbrev castFields (x : AB) : List Field := [.s x.a x.pa 14, .s x.b x.pb 21]

theorem fieldsOk_cast (x : AB) : fieldsOk (castFields x) := by
  simp only [castFields, fieldsOk_cons]
  exact ⟨cellsOk_s _ _ _, cellsOk_s _ _ _, fieldsOk_nil⟩

/-- The packet that an MCAST of a strand describes. -/
abbrev castPacket (s : State) (x : AB) : Mcast :=
  s.packetOf (s.cur.val x.a).toNat (s.spadRead s.cur.core (s.cur.val x.b).toNat 128)

theorem exec_mcast (s : State) (x : AB) : exec (.mcast x) s = execMcast x s := rfl

/-- R141: a packet is held back where 32 of the core's packets to one of its destinations are out. -/
theorem mcastHeld_iff (s : State) (m : Mcast) :
    s.mcastHeld m = true ↔
      ∃ c, c ∈ s.destsOf m ∧ 32 ≤ (s.mcasts.filter (fun y => y.src == m.src && y.dests.contains c)).length := by
  simp only [State.mcastHeld, List.any_eq_true, decide_eq_true_eq]

/-- An instruction that only reads its sources and moves on. -/
theorem finish_regsOnly (s : State) (fs : List Field) (len : Nat) (h : fieldsOk fs) :
    ∃ t, finish (s.onCur (fun t => (t.consume fs).countStep)) len (fun t => t) = .next t
      ∧ t.cur.pc = s.cur.pc + BitVec.ofNat 48 len ∧ t.cur.y = s.cur.y ∧ RegsOnly s t fs [] := by
  have hc := completed_begin s.cur fs len h
  refine ⟨_, rfl, hc.pc, hc.last, ⟨hc.regs, hc.cap⟩, ?_⟩
  exact congrArg (fun u => { s with cur := u }) hc.rest

/-- What an instruction that completes adds to the packets on the mesh. -/
theorem finish_cast (s : State) (fs : List Field) (len : Nat) (m : Mcast) (h : fieldsOk fs) :
    ∃ t, finish ({ s.onCur (fun t => (t.consume fs).countStep) with mcasts := s.mcasts ++ [m] } : State).fresh len
        (fun t => t) = .next t
      ∧ t.mcasts = s.mcasts ++ [m] ∧ t.cur.pc = s.cur.pc + BitVec.ofNat 48 len ∧ t.cur.y = s.cur.y ∧ Retires s t fs []
      ∧ t = { s with mcasts := t.mcasts, nextUid := s.nextUid + 1, cur := s.cur.withRegs t.cur } ∧ SameMemory s t := by
  have hc := completed_begin s.cur fs len h
  exact ⟨_, rfl, rfl, hc.pc, hc.last, ⟨hc.regs, hc.cap⟩,
    congrArg (fun u => { s with mcasts := s.mcasts ++ [m], nextUid := s.nextUid + 1, cur := u }) hc.rest,
    fun _ => rfl, fun _ => rfl, fun _ => rfl⟩

section
variable {s : State} {x : AB} (h : Ready s { fields := castFields x, mem := true })
include h

/-- R150: an empty rectangle is no work. -/
theorem mcast_empty (hm : ¬ ((castPacket s x).w ≠ 0 ∧ (castPacket s x).h ≠ 0)) :
    exec (.mcast x) s = finish (s.onCur (fun t => (t.consume (castFields x)).countStep)) 4 (fun t => t) := by
  have hempty : (castPacket s x).w = 0 ∨ (castPacket s x).h = 0 := by omega
  rw [exec_mcast, execMcast, issue_of_ready h]
  exact if_pos hempty

variable (hm : (castPacket s x).w ≠ 0 ∧ (castPacket s x).h ≠ 0)
include hm

/-- R149: a rectangle that leaves the mesh. -/
theorem mcast_outside (hin : ¬ ((castPacket s x).x0 + (castPacket s x).w ≤ 64 ∧ (castPacket s x).y0 + (castPacket s x).h ≤ 64)) :
    Traps (.mcast x) s Cause.protection (s.cur.val x.a) := by
  have hout : 64 < (castPacket s x).x0 + (castPacket s x).w ∨ 64 < (castPacket s x).y0 + (castPacket s x).h := by omega
  rw [Traps, exec_mcast, execMcast, issue_of_ready h]
  exact (if_neg (not_or.mpr hm)).trans (if_pos hout)

variable (hin : (castPacket s x).x0 + (castPacket s x).w ≤ 64 ∧ (castPacket s x).y0 + (castPacket s x).h ≤ 64)
include hin

/-- R149: past the checks of the rectangle, the checks of the address and the sending. -/
theorem mcast_inside :
    exec (.mcast x) s =
      (if (s.cur.val x.b).toNat % 128 ≠ 0 then trap s Cause.misaligned (s.cur.val x.b)
      else if 0x40000 ≤ (s.cur.val x.b).toNat then trap s Cause.protection (s.cur.val x.b)
      else if !s.anyDest (castPacket s x) then
        finish (s.onCur (fun t => (t.consume (castFields x)).countStep)) 4 (fun t => t)
      else if s.mcastHeld (castPacket s x) then stall s
      else finish ({ s.onCur (fun t => (t.consume (castFields x)).countStep) with
        mcasts := s.mcasts ++ [{ castPacket s x with dests := s.destsOf (castPacket s x) }] } : State).fresh 4
          (fun t => t)) := by
  have hout : ¬ (64 < (castPacket s x).x0 + (castPacket s x).w ∨ 64 < (castPacket s x).y0 + (castPacket s x).h) := by omega
  rw [exec_mcast, execMcast, issue_of_ready h]
  exact (if_neg (not_or.mpr hm)).trans (if_neg hout)

/-- R141, R151: an MCAST with a destination sends, unless its packet is held back. -/
theorem mcast_sending (hat : (s.cur.val x.b).toNat % 128 = 0 ∧ (s.cur.val x.b).toNat < 0x40000)
    (hd : s.anyDest (castPacket s x) = true) :
    exec (.mcast x) s =
      (if s.mcastHeld (castPacket s x) then stall s
      else finish ({ s.onCur (fun t => (t.consume (castFields x)).countStep) with
        mcasts := s.mcasts ++ [{ castPacket s x with dests := s.destsOf (castPacket s x) }] } : State).fresh 4
          (fun t => t)) := by
  have hsome : ¬ (!s.anyDest (castPacket s x)) = true := by rw [hd]; decide
  exact (mcast_inside h hm hin).trans
    ((if_neg (not_not_intro hat.1)).trans ((if_neg (Nat.not_le.mpr hat.2)).trans (if_neg hsome)))

end

/-- R149, R150, R151, R141: the clause of MCAST. -/
theorem mcast_atIssue {s : State} {x : AB} (h : Ready s { fields := castFields x, mem := true }) :
    let b := (s.cur.val x.b).toNat
    let m := castPacket s x
    let some' := m.w ≠ 0 ∧ m.h ≠ 0
    let inside := m.x0 + m.w ≤ 64 ∧ m.y0 + m.h ≤ 64
    let at' := b % 128 = 0 ∧ b < 0x40000
    let held := ∃ c, c ∈ s.destsOf m ∧ 32 ≤ (s.mcasts.filter (fun y => y.src == m.src && y.dests.contains c)).length
    ((¬ some' ∨ (inside ∧ at' ∧ s.anyDest m = false)) → ∃ t, exec (.mcast x) s = .next t
        ∧ t.cur.pc = s.cur.pc + 4 ∧ t.cur.y = s.cur.y ∧ RegsOnly s t (castFields x) [])
    ∧ (some' → ¬ inside → Traps (.mcast x) s 0x06 (s.cur.val x.a))
    ∧ (some' → inside → b % 128 ≠ 0 → Traps (.mcast x) s 0x04 (s.cur.val x.b))
    ∧ (some' → inside → b % 128 = 0 → 0x40000 ≤ b → Traps (.mcast x) s 0x06 (s.cur.val x.b))
    ∧ (some' → inside → at' → s.anyDest m = true → held → Stalls (.mcast x) s)
    ∧ (some' → inside → at' → s.anyDest m = true → ¬ held → ∃ t, exec (.mcast x) s = .next t
        ∧ t.mcasts = s.mcasts ++ [{ m with dests := s.destsOf m }] ∧ t.cur.pc = s.cur.pc + 4 ∧ t.cur.y = s.cur.y
        ∧ Retires s t (castFields x) []
        ∧ t = { s with mcasts := t.mcasts, nextUid := s.nextUid + 1, cur := s.cur.withRegs t.cur } ∧ SameMemory s t) := by
  intro b m some' inside at' held
  have hfs := fieldsOk_cast x
  refine ⟨fun hno => ?_, fun hm hin => mcast_outside h hm hin, fun hm hin hb => ?_, fun hm hin hb hhi => ?_,
    fun hm hin hat hd hh => ?_, fun hm hin hat hd hh => ?_⟩
  · by_cases hm : some'
    · obtain ⟨hin, ⟨hb, hlo⟩, hd⟩ := hno.resolve_left (not_not_intro hm)
      have hnone : (!s.anyDest m) = true := by rw [hd]; rfl
      rw [(mcast_inside h hm hin).trans ((if_neg (not_not_intro hb)).trans ((if_neg (Nat.not_le.mpr hlo)).trans (if_pos hnone)))]
      exact finish_regsOnly s (castFields x) 4 hfs
    · rw [mcast_empty h hm]
      exact finish_regsOnly s (castFields x) 4 hfs
  · exact (mcast_inside h hm hin).trans (if_pos hb)
  · exact (mcast_inside h hm hin).trans ((if_neg (not_not_intro hb)).trans (if_pos hhi))
  · exact (mcast_sending h hm hin hat hd).trans (if_pos ((mcastHeld_iff s m).mpr hh))
  · rw [(mcast_sending h hm hin hat hd).trans (if_neg (fun hc => hh ((mcastHeld_iff s m).mp hc)))]
    exact finish_cast s (castFields x) 4 _ hfs

/-! ### NETRX -/

theorem exec_netrx (s : State) (x : A2) : exec (.netrx x) s = execNetrx x s := rfl

/-- R262: the time at which a corner took a packet is a matter of the dies alone. -/
theorem cornerTook_eq (s : State) (u : Strand) (q : List RxItem) (core : Nat) :
    ({ s with cur := u, rxq := q } : State).cornerTook core =
      { s with cur := u, rxq := q, dies := (s.cornerTook core).dies } := by
  unfold State.cornerTook State.onDie
  split
  · split <;> rfl
  · rfl

/-- R244, R249: what a store to the own scratchpad writes, seen from a state with the same memories. -/
theorem spadStore_of_sameMemory {s u : State} (hm : u.spad = s.spad ∧ u.hbm = s.hbm ∧ u.host = s.host) (hw : Mem.wf s.spad = true)
    (a n v mask : Nat) : SpadStore s (u.spadStore a n v mask) u.cur.core a n v mask := by
  obtain ⟨hs, hh, ho⟩ := hm
  have hspad : (u.spadStore a n v mask).spad =
      Mem.write s.spad (spadKey u.cur.core a) n (blend (s.spadRead u.cur.core a n) v mask) := by
    rw [State.spadRead, ← hs]; rfl
  refine ⟨fun i hi => ?_, fun k hk => ?_, fun k => ?_, fun k => ?_⟩
  · rw [hspad, Mem.get_write_in _ _ _ _ _ hw hi]
  · rw [hspad, Mem.get_write_out _ _ _ _ _ hw hk]
  · rw [← hh]; rfl
  · rw [← ho]; rfl

/-- R153: what taking a packet of `n` bytes from the receive queue leaves. -/
theorem finish_take (s : State) (fs : List Field) (d : BitVec 6) (v : Word) (q : List RxItem) (a n data : Nat) (h : fieldsOk fs) :
    ∃ t, finish ((({ s.onCur (fun t => (t.consume fs).countStep) with rxq := q } : State).cornerTook s.cur.core).spadStore
        a n data (fullMask n)) 4 (fun t => t.setG d v) = .next t
      ∧ (d.toNat < 56 → (t.cur.reg d.toNat).val = v)
      ∧ t.rxq = q
      ∧ (Mem.wf s.spad = true → SpadStore s t s.cur.core a n data (256 ^ n - 1))
      ∧ t.cur.pc = s.cur.pc + 4 ∧ t.cur.y = s.cur.y ∧ Retires s t fs [d.toNat]
      ∧ t = { s with rxq := t.rxq, spad := t.spad, late := t.late, softErrs := t.softErrs, badWords := t.badWords
                     dies := (s.cornerTook s.cur.core).dies
                     cur := s.cur.withRegs t.cur } := by
  have hcore : (s.cur.consume fs).countStep.core = s.cur.core := (completed_begin s.cur fs 4 h).core
  have hc := (completed_begin s.cur fs 4 h).setG d v
  rw [← setG_advance] at hc
  have hcorner := cornerTook_eq s (s.cur.consume fs).countStep q s.cur.core
  rw [State.onCur, hcorner]
  refine ⟨_, rfl, fun hd => reg_setG_same _ d v hd, rfl, fun hw => ?_, hc.pc, hc.last, ⟨hc.regs, hc.cap⟩, ?_⟩
  · have hst := spadStore_of_sameMemory (s := s)
      (u := { s with cur := (s.cur.consume fs).countStep, rxq := q, dies := (s.cornerTook s.cur.core).dies })
      ⟨rfl, rfl, rfl⟩ hw a n data (fullMask n)
    rw [hcore] at hst
    exact ⟨hst.bytes, hst.others, hst.hbm, hst.host⟩
  · exact congrArg (fun w : Strand =>
      { ({ s with cur := (s.cur.consume fs).countStep, rxq := q, dies := (s.cornerTook s.cur.core).dies } : State).spadStore
          a n data (fullMask n) with cur := w }) hc.rest

/-- R152, R153: the clause of NETRX. -/
theorem netrx_atIssue {s : State} {x : A2} (h : Ready s { fields := fields2 x, mem := true }) :
    let a := (s.cur.val x.a).toNat
    (s.rxq.find? (fun p => p.core == s.cur.core) = none → Stalls (.netrx x) s)
    ∧ (∀ p, s.rxq.find? (fun p => p.core == s.cur.core) = some p →
      (a % 128 ≠ 0 → Traps (.netrx x) s 0x04 (s.cur.val x.a))
      ∧ (a % 128 = 0 → 0x40000 ≤ a → Traps (.netrx x) s 0x06 (s.cur.val x.a))
      ∧ (a % 128 = 0 → a < 0x40000 → ∃ t, exec (.netrx x) s = .next t
        ∧ (x.d.toNat < 56 → (t.cur.reg x.d.toNat).val = BitVec.ofNat 64 (p.tag * 2 ^ 48 + meshPlace p.src / 64 * 2 ^ 8 + meshPlace p.src % 64))
        ∧ t.rxq = s.rxq.eraseP (fun q => q.core == s.cur.core)
        ∧ (Mem.wf s.spad = true → SpadStore s t s.cur.core a 128 p.data (256 ^ 128 - 1))
        ∧ t.cur.pc = s.cur.pc + 4 ∧ t.cur.y = s.cur.y ∧ Retires s t (fields2 x) [x.d.toNat]
        ∧ t = { s with rxq := t.rxq, spad := t.spad, late := t.late, softErrs := t.softErrs, badWords := t.badWords
                       dies := (s.cornerTook s.cur.core).dies,
                       cur := s.cur.withRegs t.cur })) := by
  have hi : Ready s { fields := [.s x.a x.pa 14, .d x.d 7], mem := true } := h
  intro a
  refine ⟨fun hn => ?_, fun p hp => ⟨fun ha => ?_, fun ha hhi => ?_, fun ha hlo => ?_⟩⟩
  · rw [Stalls, exec_netrx, execNetrx, issue_of_ready hi]
    simp only [hn]
    rfl
  · rw [Traps, exec_netrx, execNetrx, issue_of_ready hi]
    simp only [hp]
    exact if_pos ha
  · rw [Traps, exec_netrx, execNetrx, issue_of_ready hi]
    simp only [hp]
    exact (if_neg (not_not_intro ha)).trans (if_pos hhi)
  · rw [exec_netrx, execNetrx, issue_of_ready hi]
    simp only [hp]
    rw [if_neg (not_not_intro ha), if_neg (show ¬ Config.spadBytes ≤ _ from Nat.not_le.mpr hlo)]
    exact finish_take s (fields2 x) x.d _ _ a 128 p.data (fieldsOk_2 x)

/-- R149 to R153, R141: MCAST and NETRX at issue. -/
theorem multicastAtIssue : MulticastAtIssue :=
  fun _ => ⟨fun _ h => mcast_atIssue h, fun _ h => netrx_atIssue h⟩

/-! ### The branches of a packet -/

/-- What sending copies of packet `m` keeps: the packets on the mesh and in the receive queues stay, no copy comes before `m`
in its flow (R141), and nothing else changes. -/
structure Forks (m : Mcast) (s t : State) : Prop where
  mcasts : s.mcasts ⊆ t.mcasts
  rxq : s.rxq ⊆ t.rxq
  before : ∀ c, t.mcastBefore m c = s.mcastBefore m c
  rest : t = { s with mcasts := t.mcasts, rxq := t.rxq }

theorem Forks.refl (m : Mcast) (s : State) : Forks m s s := ⟨fun _ => id, fun _ => id, fun _ => rfl, rfl⟩

theorem Forks.trans {m : Mcast} {s t u : State} (h : Forks m s t) (h' : Forks m t u) : Forks m s u :=
  ⟨List.Subset.trans h.mcasts h'.mcasts, List.Subset.trans h.rxq h'.rxq, fun c => (h'.before c).trans (h.before c),
    h'.rest.trans (congrArg (fun w : State => { w with mcasts := u.mcasts, rxq := u.rxq }) h.rest)⟩

/-- A packet is not before one with its own number (R141). -/
theorem not_before_self {m x : Mcast} (h : x.uid = m.uid) (c : Nat) :
    (x.src == m.src && decide (x.uid < m.uid) && x.dests.contains c) = false := by
  simp [h]

/-- A packet with the number of `m` joins those on the mesh. -/
theorem forks_append {m x : Mcast} (s : State) (h : x.uid = m.uid) : Forks m s { s with mcasts := s.mcasts ++ [x] } :=
  ⟨List.subset_append_left _ _, fun _ => id,
    fun c => by simp only [State.mcastBefore, List.any_append, List.any_cons, List.any_nil, not_before_self h c, Bool.or_false],
    rfl⟩

theorem forks_sendBranch (s : State) (m : Mcast) (b : Nat) : Forks m s (s.sendBranch m b) := by
  unfold State.sendBranch
  split
  · split
    · exact forks_append s rfl
    · split
      · exact ⟨fun _ => id, List.subset_append_left _ _, fun _ => rfl, rfl⟩
      · exact .refl m s
  · exact forks_append s rfl

theorem forks_foldl (m : Mcast) (bs : List Nat) (s : State) :
    Forks m s (bs.foldl (fun (s : State) b => s.sendBranch m b) s) := by
  induction bs generalizing s with
  | nil => exact .refl m s
  | cons b bs ih => exact (forks_sendBranch s m b).trans (ih _)

/-- Each branch of a list has its turn, before and after which copies of the packet are sent. -/
theorem foldl_sends (m : Mcast) (bs : List Nat) (s : State) {b : Nat} (hb : b ∈ bs) :
    ∃ u, Forks m s u ∧ Forks m (u.sendBranch m b) (bs.foldl (fun (s : State) b => s.sendBranch m b) s) := by
  obtain ⟨l, r, rfl⟩ := List.append_of_mem hb
  refine ⟨l.foldl (fun (s : State) b => s.sendBranch m b) s, forks_foldl m l s, ?_⟩
  rw [List.foldl_append, List.foldl_cons]
  exact forks_foldl m r _

/-- R147: a branch to a neighbour takes the packet over its link. -/
theorem sendBranch_link (s : State) (m : Mcast) {b : Nat} (hb : b < 4) :
    { m with router := linkTo m.router b, inp := (b + 2) % 4, left := none, dests := m.beyond b } ∈ (s.sendBranch m b).mcasts := by
  rw [State.sendBranch, if_neg (by omega)]
  exact List.mem_append_right _ (List.mem_singleton_self _)

/-- R141: an early packet waits in the reorder buffer of its core. -/
theorem sendBranch_reorder {s : State} {m : Mcast} (h : s.mcastBefore m m.router = true) :
    { m with inp := 6, left := some [4], dests := m.dests.filter (· == m.router) } ∈ (s.sendBranch m 4).mcasts := by
  rw [State.sendBranch, if_pos rfl, if_pos h]
  exact List.mem_append_right _ (List.mem_singleton_self _)

/-- R152: the receive queue of a core takes the packet. -/
theorem sendBranch_receive {s : State} {m : Mcast} (h : s.mcastBefore m m.router = false) (hd : m.router ∈ m.dests)
    (hdead : s.dead.contains m.router = false) (hf : s.isFenced m.router = false) :
    ({ core := m.router, src := m.src, tag := m.tag, data := m.data } : RxItem) ∈ (s.sendBranch m 4).rxq := by
  have hto : (m.dests.contains m.router && !s.dead.contains m.router && !s.isFenced m.router) = true := by
    rw [hdead, hf, List.contains_iff_mem.mpr hd]; rfl
  rw [State.sendBranch, if_pos rfl, if_neg (by rw [h]; decide), if_pos hto]
  exact List.mem_append_right _ (List.mem_singleton_self _)

/-! ### Forking -/

/-- The branches of a list that have no room. -/
def noRoom (s : State) (m : Mcast) (bs : List Nat) : List Nat := bs.filter (fun b => !s.branchRoom m b)

/-- What the residue buffer keeps of a packet (R148). -/
def residue (s : State) (m : Mcast) (bs : List Nat) : Mcast :=
  { m with left := some (noRoom s m bs), dests := ((noRoom s m bs).flatMap m.beyond).eraseDups }

/-- The state in which a fork sends: the packet has left its router, or its residue stays there. -/
def forkBase (s : State) (k : Nat) (m : Mcast) (bs : List Nat) : State :=
  if (noRoom s m bs).isEmpty then { s with mcasts := s.mcasts.eraseIdx k }
  else { s with mcasts := s.mcasts.set k (residue s m bs) }

/-- R148: a fork sends into each branch that has room. -/
theorem forkInto_eq (s : State) (k : Nat) (m : Mcast) (bs : List Nat) :
    s.forkInto k m bs =
      (bs.filter (fun b => s.branchRoom m b)).foldl (fun (s : State) b => s.sendBranch m b) (forkBase s k m bs) := rfl

theorem forkBase_rest (s : State) (k : Nat) (m : Mcast) (bs : List Nat) :
    forkBase s k m bs = { s with mcasts := (forkBase s k m bs).mcasts } := by
  unfold forkBase; split <;> rfl

/-- The packet itself is not before itself, and neither is its residue. -/
theorem mcastBefore_forkBase {s : State} {k : Nat} {m : Mcast} (bs : List Nat) (hk : s.mcasts[k]? = some m) (c : Nat) :
    (forkBase s k m bs).mcastBefore m c = s.mcastBefore m c := by
  obtain ⟨hlt, hm⟩ := List.getElem?_eq_some_iff.mp hk
  have hsplit : s.mcasts = s.mcasts.take k ++ m :: s.mcasts.drop (k + 1) := by
    rw [← hm, List.getElem_cons_drop, List.take_append_drop]
  unfold forkBase State.mcastBefore
  split
  · conv => rhs; rw [hsplit]
    simp only [List.eraseIdx_eq_take_drop_succ, List.any_append, List.any_cons, not_before_self rfl, Bool.false_or]
  · have hres : (residue s m bs).uid = m.uid := rfl
    conv => rhs; rw [hsplit]
    simp only [List.set_eq_take_append_cons_drop, if_pos hlt, List.any_append, List.any_cons, not_before_self hres,
      not_before_self rfl, Bool.false_or]

theorem residue_mem_forkBase {s : State} {k : Nat} {m : Mcast} {bs : List Nat} (hk : s.mcasts[k]? = some m)
    (h : ∃ b, b ∈ bs ∧ s.branchRoom m b = false) : residue s m bs ∈ (forkBase s k m bs).mcasts := by
  obtain ⟨b, hb, hroom⟩ := h
  have hne : b ∈ noRoom s m bs := List.mem_filter.mpr ⟨hb, by rw [hroom]; rfl⟩
  have hempty : ¬ (noRoom s m bs).isEmpty = true := by
    rw [List.isEmpty_iff]; exact List.ne_nil_of_mem hne
  rw [forkBase, if_neg hempty]
  exact List.mem_set (List.getElem?_eq_some_iff.mp hk).1 _

/-- R147, R148, R141: what a fork of a packet sends, and what it keeps. -/
theorem forkInto_sends {s : State} {k : Nat} {m : Mcast} (bs : List Nat) (hk : s.mcasts[k]? = some m) :
    (∀ b, b ∈ bs → b < 4 → s.branchRoom m b = true →
        { m with router := linkTo m.router b, inp := (b + 2) % 4, left := none, dests := m.beyond b } ∈ (s.forkInto k m bs).mcasts)
    ∧ (4 ∈ bs → s.branchRoom m 4 = true → s.mcastBefore m m.router = true →
        { m with inp := 6, left := some [4], dests := m.dests.filter (· == m.router) } ∈ (s.forkInto k m bs).mcasts)
    ∧ (4 ∈ bs → s.branchRoom m 4 = true → s.mcastBefore m m.router = false → m.router ∈ m.dests → s.dead.contains m.router = false →
        s.isFenced m.router = false →
        ({ core := m.router, src := m.src, tag := m.tag, data := m.data } : RxItem) ∈ (s.forkInto k m bs).rxq)
    ∧ ((∃ b, b ∈ bs ∧ s.branchRoom m b = false) → residue s m bs ∈ (s.forkInto k m bs).mcasts)
    ∧ s.forkInto k m bs = { s with mcasts := (s.forkInto k m bs).mcasts, rxq := (s.forkInto k m bs).rxq } := by
  have hall := forks_foldl m (bs.filter (fun b => s.branchRoom m b)) (forkBase s k m bs)
  have hturn := fun {b} => foldl_sends m (bs.filter (fun b => s.branchRoom m b)) (forkBase s k m bs) (b := b)
  rw [← forkInto_eq] at hall
  simp only [← forkInto_eq, List.mem_filter] at hturn
  refine ⟨fun b hb h4 hroom => ?_, fun hb hroom hbef => ?_, fun hb hroom hbef hd hdead hf => ?_, fun hleft => ?_, ?_⟩
  · obtain ⟨u, -, hafter⟩ := hturn ⟨hb, hroom⟩
    exact hafter.mcasts (sendBranch_link u m h4)
  · obtain ⟨u, hu, hafter⟩ := hturn ⟨hb, hroom⟩
    have hbef' : u.mcastBefore m m.router = true := by rw [hu.before, mcastBefore_forkBase bs hk, hbef]
    exact hafter.mcasts (sendBranch_reorder hbef')
  · obtain ⟨u, hu, hafter⟩ := hturn ⟨hb, hroom⟩
    have hbef' : u.mcastBefore m m.router = false := by rw [hu.before, mcastBefore_forkBase bs hk, hbef]
    have hdead' : u.dead.contains m.router = false := by rw [hu.rest, forkBase_rest]; exact hdead
    have hf' : u.isFenced m.router = false := by rw [hu.rest, forkBase_rest]; exact hf
    exact hafter.rxq (sendBranch_receive hbef' hd hdead' hf')
  · exact hall.mcasts (residue_mem_forkBase hk hleft)
  · exact hall.rest.trans (congrArg (fun w : State =>
      { w with mcasts := (s.forkInto k m bs).mcasts, rxq := (s.forkInto k m bs).rxq }) (forkBase_rest s k m bs))

/-- R148: the head of a packet forks where its channel's residue buffer is empty and no packet is before it. -/
theorem exec_multicastFork {s : State} {m : Mcast} (hk : s.mcasts[s.arg 0]? = some m) (hleft : m.left = none)
    (hfirst : ∀ x, x ∈ s.mcasts.take (s.arg 0) → x.router = m.router → x.inp ≠ m.inp)
    (hfree : ∀ x, x ∈ s.mcasts → x.router = m.router → x.inp = m.inp → x.left = none) :
    exec .multicastFork s = .next (s.forkInto (s.arg 0) m m.branches) := by
  have hgo : ¬ (m.left.isSome || (s.mcasts.take (s.arg 0)).any (fun x => x.router == m.router && x.inp == m.inp)
      || s.mcasts.any (fun x => (x.router == m.router && x.inp == m.inp) && x.left.isSome)) = true := by
    simp only [hleft, Option.isSome_none, Bool.false_or, Bool.or_eq_true, List.any_eq_true, Bool.and_eq_true, beq_iff_eq]
    rintro (⟨x, hx, hr, hi⟩ | ⟨x, hx, ⟨hr, hi⟩, hsome⟩)
    · exact hfirst x hx hr hi
    · rw [hfree x hx hr hi] at hsome
      cases hsome
  rw [show exec .multicastFork s = execMulticastFork s from rfl, execMulticastFork, hk]
  exact if_neg hgo

/-- R148: the residue buffer sends into the branches not taken. -/
theorem exec_residueBranchSend {s : State} {m : Mcast} {bs : List Nat} (hk : s.mcasts[s.arg 0]? = some m)
    (hleft : m.left = some bs) : exec .residueBranchSend s = .next (s.forkInto (s.arg 0) m bs) := by
  rw [show exec .residueBranchSend s = execResidueBranchSend s from rfl, execResidueBranchSend, hk]
  simp only [hleft]

/-! ### Occupancy counts -/

/-- A change of the counts alone. -/
def OccOnly (s t : State) : Prop := t = { s with occ := t.occ }

theorem OccOnly.trans {s t u : State} (h : OccOnly s t) (h' : OccOnly t u) : OccOnly s u :=
  Eq.trans h' (congrArg (fun w : State => { w with occ := u.occ }) h)

theorem occOnly_foldl {α : Type} (f : State → α → State) (hf : ∀ s a, OccOnly s (f s a)) (l : List α) (s : State) :
    OccOnly s (l.foldl f s) := by
  induction l generalizing s with
  | nil => rfl
  | cons a l ih => exact (hf s a).trans (ih _)

/-- The entry of a router and a region after a count has been set: that one, or none for a count of 0, or the entry before. -/
theorem find?_setOcc (l : List (Nat × Nat × Nat)) (router region n r q : Nat) :
    (setOcc l router region n).find? (fun x => x.1 == r && x.2.1 == q) =
      if r = router ∧ q = region then (if n = 0 then none else some (router, region, n))
      else l.find? (fun x => x.1 == r && x.2.1 == q) := by
  have hrest : (l.filter (fun x => !(x.1 == router && x.2.1 == region))).find? (fun x => x.1 == r && x.2.1 == q) =
      if r = router ∧ q = region then none else l.find? (fun x => x.1 == r && x.2.1 == q) := by
    rw [List.find?_filter]
    split
    · rename_i h
      obtain ⟨rfl, rfl⟩ := h
      refine List.find?_eq_none.mpr (fun x _ => ?_)
      rw [decide_eq_true_iff]
      rintro ⟨hdrop, hx⟩
      rw [hx] at hdrop
      cases hdrop
    · rename_i h
      have hkeep : ∀ x : Nat × Nat × Nat,
          (x.1 == r && x.2.1 == q) = true → (!(x.1 == router && x.2.1 == region)) = true := by
        simp only [Bool.and_eq_true, beq_iff_eq, Bool.not_eq_true', Bool.and_eq_false_iff, beq_eq_false_iff_ne]
        rintro x ⟨rfl, rfl⟩
        exact Decidable.not_and_iff_not_or_not.mp h
      congr 1
      funext x
      rw [Bool.eq_iff_iff, decide_eq_true_iff]
      exact ⟨And.right, fun hp => ⟨hkeep x hp, hp⟩⟩
  have hhead : (router == r && region == q) = decide (r = router ∧ q = region) := by
    rw [Bool.eq_iff_iff]
    simp only [Bool.and_eq_true, beq_iff_eq, decide_eq_true_eq]
    exact and_congr eq_comm eq_comm
  unfold setOcc
  by_cases hn : n = 0
  · simp only [if_pos hn]
    exact hrest
  · simp only [if_neg hn, List.find?_cons, hhead, hrest]
    by_cases h : r = router ∧ q = region <;> simp [h]

/-- A count that is set reads as what was set, and no other changes. -/
theorem occOf_setOcc (s : State) (router region n r q : Nat) :
    ({ s with occ := setOcc s.occ router region n } : State).occOf r q =
      if r = router ∧ q = region then n else s.occOf r q := by
  unfold State.occOf
  rw [find?_setOcc]
  by_cases h : r = router ∧ q = region
  · by_cases hn : n = 0 <;> simp [h, hn]
  · simp only [if_neg h]

/-- A router's count of one region passed to a neighbour that is farther from it (R143). -/
def passOne (router n : Nat) (s : State) (q : Nat) : State :=
  if regionDist router q < regionDist n q then { s with occ := setOcc s.occ n q (s.occOf router q) } else s

theorem passOcc_eq (s : State) (router n : Nat) : s.passOcc router n = (List.range 64).foldl (passOne router n) s := rfl

theorem occOnly_passOne (router n : Nat) (s : State) (q : Nat) : OccOnly s (passOne router n s q) := by
  unfold passOne; split <;> rfl

theorem occOnly_passOcc (s : State) (router n : Nat) : OccOnly s (s.passOcc router n) :=
  occOnly_foldl _ (occOnly_passOne router n) _ s

/-- Passing one count writes that count of the neighbour, if it is the farther one. -/
theorem occOf_passOne (router n : Nat) (s : State) (p r q : Nat) :
    (passOne router n s p).occOf r q =
      if r = n ∧ q = p ∧ regionDist router q < regionDist r q then s.occOf router q else s.occOf r q := by
  unfold passOne
  split
  · rw [occOf_setOcc]; grind
  · grind

/-- The counts after a router has passed those of the regions `qs` to the neighbour `n`. -/
theorem occOf_foldl_passOne {router n : Nat} (hne : router ≠ n) (qs : List Nat) (s : State) (r q : Nat) :
    (qs.foldl (passOne router n) s).occOf r q =
      if r = n ∧ q ∈ qs ∧ regionDist router q < regionDist r q then s.occOf router q else s.occOf r q := by
  induction qs generalizing s with
  | nil => simp
  | cons p qs ih =>
    have hself : (passOne router n s p).occOf router q = s.occOf router q := by
      rw [occOf_passOne, if_neg (fun h => hne h.1)]
    rw [List.foldl_cons, ih, hself, occOf_passOne]
    grind

/-- The counts after a router has passed its own to the neighbours `ns`. -/
theorem occOf_foldl_passOcc {router : Nat} (ns : List Nat) (hne : router ∉ ns) (s : State) (r q : Nat) :
    (ns.foldl (fun (s : State) n => s.passOcc router n) s).occOf r q =
      if r ∈ ns ∧ q < 64 ∧ regionDist router q < regionDist r q then s.occOf router q else s.occOf r q := by
  induction ns generalizing s with
  | nil => simp
  | cons n ns ih =>
    obtain ⟨hn, hns⟩ := not_or.mp (mt List.mem_cons.mpr hne)
    rw [List.foldl_cons, ih hns, passOcc_eq, occOf_foldl_passOne hn, occOf_foldl_passOne hn]
    grind

/-- No router is its own neighbour (R136). -/
theorem not_mem_neighboursOf_self (router : Nat) : router ∉ neighboursOf router := by
  simp only [neighboursOf, List.mem_append, List.mem_ite_nil_right, List.mem_singleton]
  omega

theorem exec_occupancyPropagate (s : State) : exec .occupancyPropagate s = execOccupancyPropagate s := rfl

/-- R143: the clause of IMBALANCE_LIMIT. -/
theorem occupancyPropagate_limit {s : State} (h0 : s.arg 0 < 4096) (h2 : s.arg 2 ≠ 0) (h1 : s.arg 1 ≤ 15) :
    exec .occupancyPropagate s = .next (s.onDie (dieOf (s.arg 0)) (fun d => { d with imbalance := s.arg 1 })) := by
  rw [exec_occupancyPropagate, execOccupancyPropagate]
  dsimp only
  rw [if_neg (Nat.not_le.mpr h0), if_pos h2, if_pos h1]

/-- R143: the clause of the counts that a router passes on. -/
theorem occupancyPropagate_counts {s : State} (h0 : s.arg 0 < 4096) (h2 : s.arg 2 = 0) :
    ∃ t, exec .occupancyPropagate s = .next t
      ∧ t.occOf (s.arg 0) (clusterOf (s.arg 0)) = min 15 (s.arg 1)
      ∧ (∀ n q, n ∈ neighboursOf (s.arg 0) → q < 64 → regionDist (s.arg 0) q < regionDist n q →
          t.occOf n q = if q = clusterOf (s.arg 0) then min 15 (s.arg 1) else s.occOf (s.arg 0) q)
      ∧ t = { s with occ := t.occ } ∧ SameMemory s t := by
  have hself := not_mem_neighboursOf_self (s.arg 0)
  have hframe := occOnly_foldl (fun (s' : State) n => s'.passOcc (s.arg 0) n) (fun s' n => occOnly_passOcc s' (s.arg 0) n)
    (neighboursOf (s.arg 0)) { s with occ := setOcc s.occ (s.arg 0) (clusterOf (s.arg 0)) (min 15 (s.arg 1)) }
  refine ⟨_, ?_, ?_, fun n q hn hq hd => ?_, hframe, ?_⟩
  · rw [exec_occupancyPropagate, execOccupancyPropagate]
    dsimp only
    rw [if_neg (Nat.not_le.mpr h0), if_neg (not_not_intro h2)]
  · rw [occOf_foldl_passOcc _ hself, if_neg (fun h => hself h.1), occOf_setOcc, if_pos ⟨rfl, rfl⟩]
  · rw [occOf_foldl_passOcc _ hself, if_pos ⟨hn, hq, hd⟩, occOf_setOcc]
    simp only [true_and]
  · rw [hframe]
    exact ⟨fun _ => rfl, fun _ => rfl, fun _ => rfl⟩

/-- R139, R143, R147, R148: the moves of the mesh. -/
theorem meshMoves : MeshMoves := by
  intro s
  refine ⟨fun i m bs hk hi => ?_, occupancyPropagate_limit, occupancyPropagate_counts⟩
  have hx : exec i s = .next (s.forkInto (s.arg 0) m bs) := by
    obtain ⟨rfl, hleft, rfl, hfirst, hfree⟩ | ⟨rfl, hleft⟩ := hi
    · exact exec_multicastFork hk hleft hfirst hfree
    · exact exec_residueBranchSend hk hleft
  obtain ⟨hlink, hreorder, hreceive, hresidue, hrest⟩ := forkInto_sends bs hk
  refine ⟨_, hx, hlink, hreorder, hreceive, hresidue, hrest, ?_⟩
  rw [hrest]
  exact ⟨fun _ => rfl, fun _ => rfl, fun _ => rfl⟩

/-- Settles O39: MCAST and NETRX case by case of their checks; a fork as the fold of its branches, each of which finds the
receive queue's condition (R141) as it stood at first; and the counts as the folds over neighbours and regions. -/
theorem multicastAndMesh : Obligations.MulticastAndMesh :=
  ⟨multicastAtIssue, meshMoves⟩

end Sys2Proof.Mesh
end
